-- ==== Sys2Proof/Word.lean ====
section
/-! DEFINITION. The word types of Borore: 32-bit registers (R16), bytes, 64-bit Zaxus words (R99) and byte strings. -/

namespace Sys2Proof

/-- A register word (R16). -/
abbrev Word := BitVec 32

/-- A byte. -/
abbrev Byte := BitVec 8

/-- A 64-bit word: a Zaxus instruction word (R99), a header word (R94), an address. -/
abbrev DWord := BitVec 64

/-- A byte string, first byte first. -/
abbrev Bytes := List Byte

/-- A status word (R121): class in bits [15:12], code in bits [11:0]. -/
abbrev Status := BitVec 16

end Sys2Proof
end

