-- ==== Sys2Proof/Syntax.lean ====
section
/-! DEFINITION. The commands of the block: one constructor of `Instr` per row of spec/opcode_table.json, with the operands its
rules name (the table gives no row any bits), and the small types of those operands. -/

namespace Sys2Proof

/-- The cause of a CHIP reset (FC_CAUSE.LAST_RESET, R363). -/
inductive ResetCause where
  | powerUp | rstN | collector | stage4
  deriving DecidableEq, Repr

/-- The four PLLs (R11). -/
inductive Pll where
  | engine | housekeeping | ucie (m : Nat)
  deriving DecidableEq, Repr

/-- What boot firmware finds outside the modelled state (R374, R375, R312, R393, R361). -/
structure BootReport where
  /-- the SEQ of a journal record that the scan found lost (R375) -/
  lostSeq : Option Nat := none
  /-- the seal of the lost record can be read, and shows its HWM (R375) -/
  sealRead : Bool := false
  /-- duplex version counters both of whose copies are lost (R375): 0 boot firmware, 1 + k the patch version of class k -/
  lostDuplex : List Nat := []
  /-- self-test of the identity keys (R312) -/
  identityOk : Bool := true
  /-- engines (class code of MC_PASS, number) whose self-test fails with the chosen section (R393) -/
  badEngines : List (Nat × Nat) := []
  /-- the reaction path self-test fails (source 1523, R361) -/
  reactionPathBad : Bool := false
  deriving DecidableEq, Repr

/-- Where a register read arrives: the hinge's BAR0, a leaf window on module `m`, or the Klozor monitor (R21, R32, R436). -/
inductive Port where
  | hinge
  | leafWin (m leaf : Nat)
  deriving DecidableEq, Repr

/-- The size in bytes and the byte enables of an access to BAR0 or a register of a leaf window (R16, R32). -/
structure Access where
  size : Nat := 4
  enables : Nat := 15
  deriving DecidableEq, Repr

/-- An access at an offset of BAR0 or of a leaf window (R15, R16). -/
structure BarAccess extends Access where
  off : Nat
  deriving DecidableEq, Repr

/-- How a DMA read failed (R49). -/
inductive ReadError where
  | ur | ca | poison
  | byteCount (got : Bytes)
  deriving DecidableEq, Repr

/-- One engine that executes strokes (R171): a tumbler, a bolt, or a unit of a shared array. -/
inductive EngineId where
  | tumbler (n : Nat) | bolt (n : Nat) | plainBarrel (n : Nat) | maskedBarrel (n : Nat) | sha256 (n : Nat) | sha512 (n : Nat)
  | aes (n : Nat) | mult (n : Nat)
  deriving DecidableEq, Repr

/-- Where a stripe or row of a home store lies (R196, R201, R258): cells of the turns in some slots, a working frame held by the operation of
the turn in a slot (none: hinge work), the blank area, or free space. -/
inductive StoreSpot where
  | cells (owners : List Nat) | frame (owner : Option Nat) | blank | free
  deriving DecidableEq, Repr

/-- What the checks of a stroke found at its end (R171, R198, R201, R217, R266): the engine and the finding. -/
inductive StrokeError where
  /-- the engine's own check failed in the stroke (R198, R217, R237, R254, R268, R279) -/
  | engine (e : EngineId)
  /-- an uncorrectable error in a store, and where (R201) -/
  | storeUe (e : EngineId) (spot : StoreSpot)
  /-- a corrected store error: single-bit or by the outer code (R199, R200) -/
  | storeCe (e : EngineId) (outer : Bool)
  /-- an end-of-operation invariant did not hold for the turn in this slot (R264, R266) -/
  | invariant (slot : Nat)
  /-- an uncorrectable key-state slot or context word was read by the turn in this slot (R246, R276) -/
  | slotUe (slot : Nat)
  deriving DecidableEq, Repr

/-- What a word of vault memory belongs to (R351): a leaf's context, a spill unit of the turn in a slot, or
nothing, at this byte address. -/
inductive VaultSpot where
  | context (leaf : Nat) | spill (slot : Nat) | free (addr : Nat)
  deriving DecidableEq, Repr

/-- A store that a scrubber walks (R202, R258, R351); for vault memory, what the word belongs to. -/
inductive StoreId where
  | tumbler (n : Nat) | bolt (n : Nat) | vault (half : Nat) (spot : VaultSpot)
  deriving DecidableEq, Repr

/-- The outcome of reading protected memory (R199 to R201, R365). -/
inductive EccResult where
  | clean | corrected | outerCorrected | uncorrectable
  deriving DecidableEq, Repr

/-- The block whose CTL register an error injection writes (R219, R255, R270, R280). -/
inductive InjectTarget where
  | tumbler (n : Nat) | bolt (n : Nat) | bank | digest | blockArray
  deriving DecidableEq, Repr

/-- A mask or blinding generator (R209, R252, R260). -/
inductive GenId where
  | tumbler (n : Nat) | bank | bolt (n : Nat)
  deriving DecidableEq, Repr

/-- The classes of maintenance activity (R401). -/
inductive ActClass where
  | compute | entropy | nv | sense | life | fwSwap
  deriving DecidableEq, Repr

/-- A raise synchronised in one collector cycle (R357): the source, and where a stroke was under way, the turn it belongs to. -/
structure Raise where
  source : Nat
  /-- the turn slot whose stroke was in the engine when the source was raised, if any (R217) -/
  slot : Option Nat := none
  /-- the leaf whose context is concerned, if any (R316, R351) -/
  leaf : Option Nat := none
  /-- where an uncorrectable stripe or row lies, for a source of a store (R218, R269) -/
  spot : Option StoreSpot := none
  deriving DecidableEq, Repr

/-- The rails whose loss is stage 4 (R409). -/
inductive Rail where
  | sram | ucie | io
  deriving DecidableEq, Repr

/-- A frame received on the latch ring (R448): the bytes between its delimiters, TYPE first and the CRC last. -/
structure RxFrame where
  bytes : Bytes
  deriving DecidableEq, Repr

/-- A PCIe configuration write the model gives a meaning (R51, R57). -/
inductive CfgWrite where
  | msixEnable (on : Bool)
  | maxPayload (bytes : Nat)
  | other (reg : Nat) (value : Word)
  deriving DecidableEq, Repr

/-- A block the BLOCK reaction can reset (R354). -/
inductive BlockId where
  | tumbler (n : Nat) | bolt (n : Nat) | bank | digest | blockArray | sched | link (m : Nat) | dma (m : Nat) | entropy
  | vaultHalf (h : Nat) | mgmt | ring
  deriving DecidableEq, Repr

/-- The commands. Each constructor is one row of spec/opcode_table.json (LAWS.json maps it to the row's mnemonic). The operand-free commands of
the hinge, keyway, hasp and interlock blocks stand last. -/
inductive Instr where
  /-- POWER_UP (R410): VDD_CORE returns after a power cycle. Rights, SHACKLED and BEAT are cleared and the boot ROM starts. -/
  | powerUp
  /-- POWER_LOSS (R410): VDD_CORE falls below 0.45 V for at least 1 ms. All volatile state is lost and the always-on island holds on VDD_IO or VBAT. -/
  | powerLoss (ioFalls : Bool) (commitCycle : Nat)
  /-- AON_POWER_UP (R420): First supply of VDD_IO or VBAT after both were absent. The real-time counter, tamper windows and always-on state are cleared and AON_POR is set. -/
  | aonPowerUp (vbat : Bool)
  /-- RST_N_ASSERT (R443): RST_N is held low for at least 50 ns. This is a CHIP reset, except that an NV commit under way completes first (R370). -/
  | rstNAssert
  /-- RST_N_RELEASE (R443): RST_N rises with the rails good. The housekeeping PLL starts and the boot sequence begins. -/
  | rstNRelease
  /-- CHIP_RESET (R353): CHIP reset from any cause. Leaves, turns and volatile state are lost, and the pass path closes. -/
  | chipReset (cause : ResetCause)
  /-- HOUSEKEEPING_PLL_LOCK (R41): The housekeeping PLL locks. The management core starts boot firmware, and the collector and sensors run. -/
  | housekeepingPllLock
  /-- ENGINE_PLL_LOCK (R167): The engine PLL locks. The beat timebase starts counting and the first beat edge falls 1,024 cycles later. -/
  | enginePllLock
  /-- PLL_LOCK_LOSS (R423): A PLL loses lock. The matching power/clock source is raised, with a CHIP reset or a module retrain. -/
  | pllLockLoss (pll : Pll)
  /-- BOOT_ROM_START (R325): The boot ROM repairs hasp rows, resumes any pending wipe and selects the firmware bank. -/
  | bootRomStart (wipeFails : Option Nat) (rows : Nat)
  /-- BOOT_FIRMWARE_START (R40): Boot firmware runs its start sequence while configuration reads get Retry Status. -/
  | bootFirmwareStart (report : BootReport)
  /-- BOOT_COMPLETE (R40): Boot firmware finishes. Configuration reads and BAR accesses are served and ALIVE starts toggling. -/
  | bootComplete
  /-- CONFIG_READ (R40): A PCIe configuration read is answered, with Retry Status until boot finishes. -/
  | configRead (m : Nat) (reg : Nat)
  /-- PARTNER_SIDEBAND_ACTIVE (R42): A module's partner sideband becomes active and training starts. -/
  | partnerSidebandActive (m : Nat)
  /-- NO_PARTNER_TIMEOUT (R42): No partner sideband activity 10 ms after RST_N release. The module enters DOWN_NO_PARTNER and keeps listening. -/
  | noPartnerTimeout (m : Nat)
  /-- LINK_TRAINED (R37): Training or retrain completes at the highest common rate and the module enters ACTIVE. -/
  | linkTrained (m : Nat) (rate : Nat) (badTx : Nat) (badRx : Nat)
  /-- LINK_RETRAIN (R43): Either partner starts a retrain. BAR accesses stall and the data paths of that module wait. -/
  | linkRetrain (m : Nat)
  /-- LINK_DOWN (R44): A module leaves ACTIVE other than by retrain. Posted writes in the adapter are lost and outstanding reads are abandoned. -/
  | linkDown (m : Nat)
  /-- REPLAY_THRESHOLD (R57): More than 16 flit replays occur in 1 ms. REPLAY_THRESHOLD is set and its source is raised. -/
  | replayThreshold (m : Nat)
  /-- MODULE_RETRAIN (R57): A write of UL_MOD_CTL.RETRAIN retrains the module. -/
  | moduleRetrain (m : Nat) (value : Word)
  /-- MODULE_ENABLE_WRITE (R55): A write of UL_MOD_CTL.ENABLE for module 1. A write of 0 disables the module, or is dropped while leaves are bound to it. -/
  | moduleEnableWrite (value : Word)
  /-- REGISTER_WRITE (R18): A BAR0 write to a register that has no row of its own, applied by access code, including W1C and lock rules. -/
  | registerWrite (off : Nat) (acc : Access) (value : Word)
  /-- PAIR_LO_READ (R21): A read of a _LO register returns the live low half and copies the high half into the shadow. -/
  | pairLoRead (port : Port) (acc : BarAccess)
  /-- PAIR_HI_READ (R21): A read of a _HI register returns the shadow and empties it, or returns the live high half if the shadow is empty. -/
  | pairHiRead (port : Port) (acc : BarAccess)
  /-- PAIR_LO_WRITE (R23): A write of _LO in a writable pair is staged and takes no effect yet. -/
  | pairLoWrite (acc : BarAccess) (value : Word)
  /-- PAIR_HI_WRITE (R23): A write of _HI commits both halves of the pair in one fabric cycle. -/
  | pairHiWrite (acc : BarAccess) (value : Word)
  /-- VAULT_WINDOW_READ (R30): A read of the BAR0 vault memory window needs MONITOR_READ. Without it the read returns 0 and a debug-access fault is raised. -/
  | vaultWindowRead (acc : BarAccess)
  /-- VAULT_WINDOW_WRITE (R30): A write to the BAR0 vault memory window needs MONITOR_WRITE. -/
  | vaultWindowWrite (acc : BarAccess) (value : Word)
  /-- DOORBELL_WRITE (R69): A leaf doorbell write carries SQ_TAIL and CQ_HEAD. The queue joins the fetch list, or is stopped on a bad value. -/
  | doorbellWrite (m : Nat) (leaf : Nat) (off : Nat) (size : Nat) (value : DWord)
  /-- RANDOM_WINDOW_READ (R290): A random-window read claims one line, returns its first bytes, and returns zeros while NOT_READY is 1. -/
  | randomWindowRead (m : Nat) (leaf : Nat) (off : Nat) (size : Nat)
  /-- RANDOM_READ_RELEASE (R291): A held random-window read completes when a line arrives, or completes with zeros when NOT_READY becomes 1. -/
  | randomReadRelease (m : Nat)
  /-- LVT_INDEX_WRITE (R57): A write of UL_LVT_INDEX loads the staging registers with the selected vector table entry. -/
  | lvtIndexWrite (value : Word)
  /-- LVT_COMMIT (R53): UL_LVT_CTL.COMMIT writes the staged address and data to the entry in one fabric cycle. -/
  | lvtCommit (value : Word)
  /-- LVT_MASK_WRITE (R53): A write of the entry's mask bit. Unmasking sends one message if the pending bit is set, and clears it. -/
  | lvtMaskWrite (value : Word)
  /-- DMA_READ_COMPLETE (R48): DMA read data arrives in cells, stream buffers or decode, and the waiting turn or hinge work becomes eligible again. -/
  | dmaReadComplete (m : Nat) (tag : Nat) (data : Bytes)
  /-- DMA_READ_ERROR (R49): A DMA read gets UR, CA, poisoned data or a wrong byte count. The turn ends with DMA_FAULT at the next edge. -/
  | dmaReadError (m : Nat) (tag : Nat) (kind : ReadError)
  /-- DMA_COMPLETION_TIMEOUT (R49): A DMA read gets no completion within UL_DMA_CTL.CTO. The turn ends with DMA_FAULT. -/
  | dmaCompletionTimeout (m : Nat) (tag : Nat)
  /-- DMA_WRITE_FAIL (R459): A DMA write is not handed to the link within CTO. It is dropped, WR_FAIL is set, the error count rises and source 1216+8m+5 is raised. -/
  | dmaWriteFail (m : Nat)
  /-- RESET_DONE (R73): Once the records of completed turns are written or lost, the pointers are reset and RESET_DONE is set. -/
  | resetDone (leaf : Nat)
  /-- QUIESCE_DEADLINE (R91): The drain deadline beat is reached. Remaining turns are aborted with LEAF_QUIESCE. -/
  | quiesceDeadline (leaf : Nat)
  /-- QUIESCE_COMPLETE (R91): The last record of the leaf is written. The leaf enters QUIESCED and the hinge cause is set. -/
  | quiesceComplete (leaf : Nat)
  /-- HINGE_UNKNOWN_OPCODE (R62): An opcode not listed in HG_CMD starts a command that returns BAD_ARGUMENT. -/
  | hingeUnknownOpcode (opcode : Byte)
  /-- HINGE_WORK_RESTART (R65): Hinge work whose engine is reset or faults is zeroised and restarts from its first stroke on another engine. -/
  | hingeWorkRestart
  /-- SQ_FETCH (R173): The fetcher takes the queue at the head of the fetch list and reads up to four entries within the in-flight limits. -/
  | sqFetch
  /-- FREEZE_POINT (R179): At engine cycle 768 of a beat, the scheduler fixes the dispatch set for the next edge, including pre-emptions and delay-list wakes. -/
  | freezePoint
  /-- BEAT_EDGE (R180): At each beat edge BEAT advances, due aborts apply, caps are checked, strokes dispatch and charges are made. -/
  | beatEdge (beatB : Option (BitVec 48))
  /-- STROKE_END (R171): A stroke ends at cycle 1,023. The engine writes back and zeroises its registers, and on the last stroke the results become visible. -/
  | strokeEnd (errs : List StrokeError)
  /-- KEYWAY_CHANGE_APPLY (R307): At the first edge after a durable commit, the new keyway values take effect. -/
  | keywayChangeApply (leaf : Nat)
  /-- NOP (R134): Does nothing. -/
  | zxNop (slot : Nat)
  /-- END (R113): Ends the turn: writes deferred STOREs, zeroises cells, writes the record, then sends MSI-X. -/
  | zxEnd (slot : Nat)
  /-- FENCE (R137): Holds the program until earlier turns of the queue have their records written. -/
  | zxFence (slot : Nat)
  /-- WAIT (R137): Puts the turn on a delay list for IMM beats. -/
  | zxWait (slot : Nat)
  /-- SKIP_IF (R134): Skips forward if the last status class is the one tested. -/
  | zxSkipIf (slot : Nat)
  /-- REPEAT (R136): Runs the following body a fixed number of times with index i. -/
  | zxRepeat (slot : Nat)
  /-- ALLOC (R138): Allocates and zeroes a cell of the given size. -/
  | zxAlloc (slot : Nat)
  /-- FREE (R106): Zeroises and releases a cell. -/
  | zxFree (slot : Nat)
  /-- LOAD (R139): Reads the cell's size in bytes from host memory, waiting off the ready list for the data. -/
  | zxLoad (slot : Nat)
  /-- STORE (R140): Takes a deferred copy of the cell, to be written at END. -/
  | zxStore (slot : Nat)
  /-- STORE_STREAM (R140): Writes the cell's bytes to host memory at once. -/
  | zxStoreStream (slot : Nat)
  /-- COPY_WHOLE (R138): Copies SRCA to DST. -/
  | zxCopyWhole (slot : Nat)
  /-- COPY_SLICE (R138): Copies a slice of SRCA of DST's size into DST. -/
  | zxCopySlice (slot : Nat)
  /-- COPY_APPEND (R138): Appends SRCA to DST. -/
  | zxCopyAppend (slot : Nat)
  /-- COPY_CTR (R141): Generates counter blocks with inc32 and advances the counter. -/
  | zxCopyCtr (slot : Nat)
  /-- ZERO (R138): Sets DST to IMM zero bytes. -/
  | zxZero (slot : Nat)
  /-- XOR (R138): Sets DST to SRCA XOR SRCB. -/
  | zxXor (slot : Nat)
  /-- RAND_FILL (R132): Fills DST with fresh DRBG bytes, waiting while NOT_READY is 1. -/
  | zxRandFill (slot : Nat)
  /-- KEYW_CUT (R305): Checks a cut message and commits the counter for a keyway change. -/
  | zxKeywCut (slot : Nat)
  /-- KEYW_GEN (R306): Generates a random keyway internally and commits the counter. -/
  | zxKeywGen (slot : Nat)
  /-- KEYW_CLEAR (R143): Clears the keyway and advances the counter. -/
  | zxKeywClear (slot : Nat)
  /-- KEYW_WRAP (R144): Wraps a cell under the WRAP_ONLY keyway. -/
  | zxKeywWrap (slot : Nat)
  /-- KEYW_UNWRAP (R309): Unwraps a wrapped key into a cell, or returns UNWRAP_INTEGRITY. -/
  | zxKeywUnwrap (slot : Nat)
  /-- KEYW_DERIVE (R144): Derives an HKDF output from the keyway. -/
  | zxKeywDerive (slot : Nat)
  /-- MLKEM_KEYGEN (R211): Generates an ML-KEM key pair. -/
  | zxMlkemKeygen (slot : Nat)
  /-- MLKEM_ENCAPS (R211): Performs ML-KEM encapsulation with the modulus check. -/
  | zxMlkemEncaps (slot : Nat)
  /-- MLKEM_DECAPS (R211): Performs ML-KEM decapsulation with implicit rejection. -/
  | zxMlkemDecaps (slot : Nat)
  /-- MLDSA_KEYGEN (R212): Generates an ML-DSA key pair. -/
  | zxMldsaKeygen (slot : Nat)
  /-- MLDSA_SIGN (R148): Runs ML-DSA signing attempts up to the limit. -/
  | zxMldsaSign (slot : Nat)
  /-- MLDSA_VERIFY (R212): Verifies an ML-DSA signature. -/
  | zxMldsaVerify (slot : Nat)
  /-- HQC_KEYGEN (R229): Generates an HQC key pair. -/
  | zxHqcKeygen (slot : Nat)
  /-- HQC_ENCAPS (R229): Performs HQC encapsulation. -/
  | zxHqcEncaps (slot : Nat)
  /-- HQC_DECAPS (R229): Performs HQC decapsulation with implicit rejection. -/
  | zxHqcDecaps (slot : Nat)
  /-- MCE_KEYGEN (R234): Runs Classic McEliece key generation attempts, using spill units, and defers the public-key write. -/
  | zxMceKeygen (slot : Nat)
  /-- MCE_ENCAPS (R232): Performs Classic McEliece encapsulation while streaming public-key slices. -/
  | zxMceEncaps (slot : Nat)
  /-- MCE_DECAPS (R231): Performs Classic McEliece decapsulation. -/
  | zxMceDecaps (slot : Nat)
  /-- SPILL_UNIT_GRANT (R235): A waiting key generation receives its spill units and resumes. -/
  | spillUnitGrant (slot : Nat)
  /-- DIGEST_INIT (R154): Starts a digest state cell with a declared block count. -/
  | zxDigestInit (slot : Nat)
  /-- DIGEST_ABSORB (R155): Feeds whole blocks from a cell. -/
  | zxDigestAbsorb (slot : Nat)
  /-- DIGEST_STREAM (R244): Streams the remaining declared blocks from host memory. -/
  | zxDigestStream (slot : Nat)
  /-- DIGEST_FINAL (R155): Writes the digest and closes the state. -/
  | zxDigestFinal (slot : Nat)
  /-- XOF_SQUEEZE (R155): Squeezes SHAKE output bytes. -/
  | zxXofSqueeze (slot : Nat)
  /-- MAC_KEYSTATE (R156): Computes HMAC key states into a slot with a new stamp. -/
  | zxMacKeystate (slot : Nat)
  /-- MAC_INIT (R247): Starts a MAC state from a slot's inner key state. -/
  | zxMacInit (slot : Nat)
  /-- MAC_FINAL (R247): Checks the stamp, runs the outer hash and writes the tag. -/
  | zxMacFinal (slot : Nat)
  /-- CMP_CT (R157): Compares two cells in constant time. -/
  | zxCmpCt (slot : Nat)
  /-- SLH_KEYGEN (R158): Generates an SLH-DSA key pair. -/
  | zxSlhKeygen (slot : Nat)
  /-- SLH_SIGN (R251): Produces an SLH-DSA signature run on barrels or digest cores. -/
  | zxSlhSign (slot : Nat)
  /-- SLH_VERIFY (R158): Verifies an SLH-DSA signature run. -/
  | zxSlhVerify (slot : Nat)
  /-- BN_SETMOD (R162): Sets the turn's modulus. -/
  | zxBnSetmod (slot : Nat)
  /-- BN_ADD (R265): Performs modular addition. -/
  | zxBnAdd (slot : Nat)
  /-- BN_SUB (R265): Performs modular subtraction. -/
  | zxBnSub (slot : Nat)
  /-- BN_MUL (R265): Performs modular multiplication. -/
  | zxBnMul (slot : Nat)
  /-- BN_EXP (R265): Performs modular exponentiation. -/
  | zxBnExp (slot : Nat)
  /-- BN_INV (R265): Performs modular inversion with the product check. -/
  | zxBnInv (slot : Nat)
  /-- EC_KEYGEN (R262): Generates an ECDSA key pair. -/
  | zxEcKeygen (slot : Nat)
  /-- EC_SIGN (R266): Produces an ECDSA signature with an algebraic re-verify. -/
  | zxEcSign (slot : Nat)
  /-- EC_VERIFY (R265): Verifies an ECDSA signature. -/
  | zxEcVerify (slot : Nat)
  /-- EC_DH (R265): Performs an ECDH point multiplication. -/
  | zxEcDh (slot : Nat)
  /-- ECX_KEYGEN (R262): Generates an X25519 or X448 key pair. -/
  | zxEcxKeygen (slot : Nat)
  /-- ECX_MUL (R162): Performs an X25519 or X448 scalar multiplication. -/
  | zxEcxMul (slot : Nat)
  /-- ED_KEYGEN (R262): Generates an EdDSA key pair. -/
  | zxEdKeygen (slot : Nat)
  /-- ED_SIGN (R263): Produces an EdDSA signature with a re-verify. -/
  | zxEdSign (slot : Nat)
  /-- ED_VERIFY (R265): Verifies an EdDSA signature, cofactored. -/
  | zxEdVerify (slot : Nat)
  /-- RSA_PUB (R265): Performs the RSA public operation. -/
  | zxRsaPub (slot : Nat)
  /-- RSA_PRIV (R267): Performs the RSA private operation, with no invariant. -/
  | zxRsaPriv (slot : Nat)
  /-- RSA_CRT (R266): Performs the RSA CRT private operation with its checks. -/
  | zxRsaCrt (slot : Nat)
  /-- BLK_ENC (R165): Encrypts AES blocks as a gang. -/
  | zxBlkEnc (slot : Nat)
  /-- BLK_DEC (R165): Decrypts AES blocks as a gang. -/
  | zxBlkDec (slot : Nat)
  /-- GHM_GHASH (R165): Accumulates GHASH into Y. -/
  | zxGhmGhash (slot : Nat)
  /-- GHM_XTS_SEQ (R165): Generates the XTS tweak sequence. -/
  | zxGhmXtsSeq (slot : Nat)
  /-- CTX_SAVE_VAULT (R276): Saves a context into a vault slot. -/
  | zxCtxSaveVault (slot : Nat)
  /-- CTX_SAVE_WRAPPED (R277): Seals a context under the keyway. -/
  | zxCtxSaveWrapped (slot : Nat)
  /-- CTX_RESTORE_VAULT (R276): Restores a context from a vault slot. -/
  | zxCtxRestoreVault (slot : Nat)
  /-- CTX_RESTORE_WRAPPED (R277): Opens and restores a wrapped context. -/
  | zxCtxRestoreWrapped (slot : Nat)
  /-- STORE_SCRUB_STEP (R202): The scrubber reads and checks the next stripe, row or word of a store or of vault memory. -/
  | storeScrubStep (store : StoreId) (result : EccResult) (spot : StoreSpot)
  /-- ERROR_INJECT (R219): An INJECT write under FAULT_INJECT injects the selected error into the next write or stroke. -/
  | errorInject (target : InjectTarget) (value : Word)
  /-- MASK_RESEED (R209): A mask or blinding generator draws a fresh seed every 4,096 beats, or retries at each edge. -/
  | maskReseed (gen : GenId)
  /-- MASK_STARVED (R209): 65,536 beats pass after a due reseed. The generator is starved, its source is raised and masked strokes stop. -/
  | maskStarved (gen : GenId)
  /-- NOISE_BLOCK_END (R283): A 5.12 us block period ends. Every pin's block is health-tested, conditioned or discarded, and channels switch or go offline. -/
  | noiseBlockEnd (blocks : List (BitVec 1024))
  /-- PIN_RETRIM_DONE (R284): A restarting pin finishes its re-trim and its startup block begins at the next boundary. -/
  | pinRetrimDone (p : Nat)
  /-- DRBG_GENERATE (R288): The next DRBG in rotation produces 1,024 bytes into a region with 16 free lines. -/
  | drbgGenerate (internal : Bool)
  /-- ROOT_MATERIAL_REQUEST (R286): Root material is formed from the four master pins' outputs of one block period. -/
  | rootMaterialRequest
  /-- ENTROPY_READY_TIMEOUT (R295): The state is not READY 1 ms after RST_N release or a block reset, and source 1384 is raised. -/
  | entropyReadyTimeout
  /-- ENTROPY_WAIT_EXPIRY (R296): A waiting instruction reaches WAIT_LIMIT, or the state becomes FAILED, and ends with ENTROPY_UNAVAILABLE. -/
  | entropyWaitExpiry (slot : Nat)
  /-- RAW_CAPTURE_START (R297): At the first boundary with READY or LOW, the state becomes RAW and the capture begins. -/
  | rawCaptureStart
  /-- RAW_CAPTURE_END (R297): The raw buffer is full. RAW_DONE is set, the pin restarts and reinstantiation begins. -/
  | rawCaptureEnd
  /-- NS_RAW_DATA_READ (R300): A read of NS_RAW_DATA returns a raw word and advances WORD, if the right is held. -/
  | nsRawDataRead
  /-- KW_UNKNOWN_OPCODE (R315): An unlisted KW_CMD opcode returns BAD_ARGUMENT. -/
  | kwUnknownOpcode (opcode : Byte)
  /-- HS_UNKNOWN_OPCODE (R336): An unlisted HS_CMD opcode returns BAD_ARGUMENT. -/
  | hsUnknownOpcode (opcode : Byte)
  /-- HASP_ODD_BURN (R324): Burns the odd hasp value row by row, clears rights and sets COMMITTED. -/
  | haspOddBurn (rows : Nat)
  /-- WIPE_STEP (R322): One wipe step zeroes its target and checks it, retrying up to 3 times. -/
  | wipeStep (ok : Bool)
  /-- HASP_EVEN_BURN (R324): Burns the even value and sets TRANSITION_DONE. -/
  | haspEvenBurn (rows : Nat)
  /-- ENGINE_DRAIN_STOP (R395): A draining engine holds no started operation and stops, and section loading begins. -/
  | engineDrainStop
  /-- PATCH_DRAIN_DEADLINE (R395): The drain deadline passes, so started operations abort with ENGINE_RESET. -/
  | patchDrainDeadline
  /-- ENGINE_SELFTEST_END (R396): A patched engine's self-test ends. IN_SERVICE is set, or the pass is reverted. -/
  | engineSelftestEnd (pass : Bool)
  /-- FW_HEALTHY (R399): The new firmware sets HEALTHY. The firmware counter rises and the ticket ends DONE. -/
  | fwHealthy
  /-- FW_SWAP_WATCHDOG (R399): HEALTHY is not set within 100 ms, so the core reverts to the old bank. -/
  | fwSwapWatchdog
  /-- MGMT_WATCHDOG_EXPIRY (R405): The management core watchdog expires outside a swap and the core restarts. -/
  | mgmtWatchdogExpiry
  /-- MRAM_SCRUB_GROUP (R378): Every 100 us the scrub reads one group, rewriting or relocating lines as needed. -/
  | mramScrubGroup (result : EccResult) (line : Nat) (rewriteFails : Bool)
  /-- WARD_KEY_SWITCH (R338): At a pattern period boundary, the driver and receiver switch to the new key. -/
  | wardKeySwitch
  /-- MI_UNKNOWN_OPCODE (R400): An unlisted MI_CMD opcode returns BAD_ARGUMENT. -/
  | miUnknownOpcode (opcode : Byte)
  /-- ACTIVITY_START (R402): When an activity ends or the stage changes, the queue is scanned and each queued request that can start does so. -/
  | activityStart
  /-- ACTIVITY_END (R402): A maintenance activity finishes. Its ticket is marked finished and vector 2 is sent. -/
  | activityEnd (cls : ActClass)
  /-- MICROTRACE_START (R404): A write of MC_TRACE_CTL under MICROTRACE starts a micro-PC capture. -/
  | microtraceStart (value : Word)
  /-- MICROTRACE_READ (R407): A read of MC_TRACE_DATA returns an entry and advances to the next. -/
  | microtraceRead
  /-- SLOT_RANGE_COMMIT (R246): Applies a staged key-state slot range to a leaf, or refuses it. -/
  | slotRangeCommit
  /-- SLOT_RANGE_PENDING_APPLY (R249): A pending range takes effect once its unit is empty. -/
  | slotRangePendingApply
  /-- DG_SLOT_SEL_WRITE (R255): A write of DG_SLOT_SEL loads BASE and COUNT with the leaf's current range. -/
  | dgSlotSelWrite (value : Word)
  /-- READ (R429): The calibration command loads CA_VALUE with the selected value. -/
  | caRead
  /-- SET (R429): The calibration command writes an overlay value. -/
  | caSet (verifyFails : Bool)
  /-- DROP (R429): The calibration command writes a dropped overlay record. -/
  | caDrop (verifyFails : Bool)
  /-- RESTORE_FACTORY (R431): Drops every overlay instance in order. -/
  | caRestoreFactory (fails : List Bool)
  /-- FACTORY_SET (R429): Writes a factory calibration record in Maker. -/
  | caFactorySet (verifyFails : Bool)
  /-- MON_HELP (R435): The monitor lists its commands. -/
  | monHelp
  /-- MON_VER (R435): The monitor reports identity, stepping and firmware. -/
  | monVer
  /-- MON_HASP (R435): The monitor reports the hasp value, rights and boot count. -/
  | monHasp
  /-- MON_BEATS (R435): The monitor reports BEAT, the stage and turns in flight. -/
  | monBeats
  /-- MON_FAULTS (R435): The monitor reports FC_FIRST and the set sticky bits. -/
  | monFaults
  /-- MON_FAULTS_CLEAR (R435): The monitor clears one sticky bit under MONITOR_WRITE. -/
  | monFaultsClear (src : Nat)
  /-- MON_WARD (R435): The monitor reports the ward and tamper state. -/
  | monWard
  /-- MON_NOISE (R435): The monitor reports the entropy and pin states. -/
  | monNoise
  /-- MON_CAL (R435): The monitor reports a calibration value and its source. -/
  | monCal (code : Nat) (inst : Nat)
  /-- MON_CAL_SET (R435): The monitor runs SET through the calibration engine. -/
  | monCalSet (code : Nat) (inst : Nat) (value : Bytes) (verifyFails : Bool)
  /-- MON_CAL_DROP (R435): The monitor runs DROP through the calibration engine. -/
  | monCalDrop (code : Nat) (inst : Nat) (verifyFails : Bool)
  /-- MON_CAL_RESTORE (R435): The monitor runs RESTORE_FACTORY. -/
  | monCalRestore (fails : List Bool)
  /-- MON_PATCH (R435): The monitor reports firmware and section versions. -/
  | monPatch
  /-- MON_PEEK (R436): The monitor reads one BAR0 word under MONITOR_READ. -/
  | monPeek (off : Nat)
  /-- MON_DUMP (R436): The monitor reads n BAR0 words under MONITOR_READ. -/
  | monDump (off : Nat) (n : Nat)
  /-- MON_POKE (R436): The monitor writes one BAR0 word under MONITOR_WRITE, as a hinge write would. -/
  | monPoke (off : Nat) (value : Word)
  /-- MON_OPEN (R437): The monitor takes a certificate as hex lines and checks it under R330. -/
  | monOpen (cert : Bytes)
  /-- MON_OPEN_TIMEOUT (R437): A gap of more than 10 s abandons the certificate. -/
  | monOpenTimeout
  /-- MON_DROP (R435): The monitor drops all rights. -/
  | monDrop
  /-- MON_BAUD (R438): The monitor answers at the old rate, then switches rate. -/
  | monBaud (rate : Nat)
  /-- MON_BAUD_TIMEOUT (R438): No valid line arrives for 10 s at the new rate, so the monitor reverts to 115,200 baud. -/
  | monBaudTimeout
  /-- MON_BAD_LINE (R433): An overlong or unknown line is answered with err. -/
  | monBadLine (overlong : Bool)
  /-- TAP_RESET (R454): The TAP is reset by TRST_N or by five TMS-high cycles, and IDCODE is selected. -/
  | tapReset
  /-- EXTEST (R455): Boundary scan takes over the control outputs. -/
  | extest
  /-- IDCODE (R454): Shifts out IDCODE. -/
  | idcode
  /-- SAMPLE_PRELOAD (R454): Samples or preloads the boundary register. -/
  | samplePreload (preload : Word)
  /-- HIGHZ (R455): Places the control outputs in high impedance under JTAG_PUBLIC. -/
  | highz
  /-- CLAMP (R455): Clamps the control outputs under JTAG_PUBLIC. -/
  | clamp
  /-- JTAG_OPEN (R455): Takes a certificate through the JTAG data register and shifts out the status. -/
  | jtagOpen (cert : Bytes)
  /-- JTAG_STATUS (R454): Shifts out HS_STAT and HS_RIGHTS. -/
  | jtagStatus
  /-- JTAG_SECURE_INSTRUCTION (R455): A secure scan or control-store instruction under JTAG_SECURE, or BYPASS with source 1497. -/
  | jtagSecureInstruction (opcode : Byte)
  /-- BYPASS (R454): Selects the bypass register. -/
  | bypass
  /-- TAMPER_EVENT (R341): A tamper source event is counted in its window and may trigger the response. -/
  | tamperEvent (srcs : List Nat)
  /-- TAMPER_WINDOW_EXPIRY (R341): W units pass without a trigger, so the window closes and the count resets. -/
  | tamperWindowExpiry (src : Nat)
  /-- TP_SRC_CFG_WRITE (R342): A changed TP_SRC_CFG clears the source's count and window. -/
  | tpSrcCfgWrite (src : Nat) (value : Word)
  /-- TAMPER_SETTLE_END (R342): 20 us after a threshold change, the source counts events again. -/
  | tamperSettleEnd (src : Nat)
  /-- TAMPER_POL_WRITE (R446): A write of LR_TAMPER_CFG.POL masks the changed lines and clears their windows. -/
  | tamperPolWrite (value : Word)
  /-- TAMPER_POL_MASK_END (R446): The 20 us mask ends, and a line at its active level counts one event. -/
  | tamperPolMaskEnd (lines : BitVec 4)
  /-- FAULT_RAISE (R357): Raises synchronised in one collector cycle set sticky bits and apply the union of reactions once. -/
  | faultRaise (raises : List Raise)
  /-- TRAP_DELIVERY (R353): A pending trap reaches the management core, which writes an evidence record. -/
  | trapDelivery
  /-- ALIVE_RESTART (R358): A write of FC_CTL.ALIVE_RESTART restarts ALIVE if no PIN source is sticky. -/
  | aliveRestart
  /-- FC_PARITY_SCAN (R361): Every 31 us all FC_SRC_CFG words are parity-checked, and source 1520 is raised on error. -/
  | fcParityScan (bad : List Nat)
  /-- COMMIT_START (R370): The NV controller starts the next queued journal commit within the rate budget, with copy-forward first. -/
  | commitStart (verifyFails : Bool)
  /-- COMMIT_DURABLE (R370): A commit reaches cycle 800. The SRAM value is updated and the requester is told. -/
  | commitDurable
  /-- EVIDENCE_RECORD_WRITE (R379): One evidence line is written and read back. -/
  | evidenceRecordWrite (verifyFails : Bool)
  /-- EVL_INDEX_WRITE (R381): A write of NV_EVL_INDEX loads NV_EVL_DATA with the record. -/
  | evlIndexWrite (value : Word)
  /-- UF_READ (R382): Reads a user flash line into the buffer. -/
  | ufRead (ue : Bool)
  /-- UF_WRITE (R382): Writes the buffer to a user flash line with verify. -/
  | ufWrite (verifyFails : Bool)
  /-- VCORE_STAGE_CHANGE (R411): VDD_CORE crosses a threshold for 200 ns and the sensed and applied stage change. -/
  | vcoreStageChange (mv : Nat)
  /-- THERMAL_SAMPLE (R419): The 1 ms thermal sample updates PW_TEMP and may change the thermal stage. -/
  | thermalSample (celsius : Int)
  /-- RAIL_LOSS (R409): VDD_SRAM, VDD_UCIE or VDD_IO stays below good for 1 us, and stage 4 is entered at once. -/
  | railLoss (rail : Rail)
  /-- RAILS_GOOD (R340): Every main rail is good and the PLL is locked. Rail and clock tamper sensors are armed again. -/
  | railsGood
  /-- HANDOVER_TO_VBAT (R421): VDD_IO leaves good. The island moves to VBAT and the slow clock, and the ward slows. -/
  | handoverToVbat
  /-- HANDBACK_TO_VDD_IO (R421): VDD_IO has been good for 1 ms and the island returns to it. -/
  | handbackToVddIo
  /-- RING_FRAME_RX (R449): A latch ring frame is received and is discarded, removed, forwarded or acted on. -/
  | ringFrameRx (frame : RxFrame)
  /-- RING_READ (R452): A READ to Borore's address is answered with a RESPONSE of status page words. -/
  | ringRead (frame : RxFrame)
  /-- RING_ALARM_RX (R451): An ALARM from another node sets ALARM_RX and records its sender and level. -/
  | ringAlarmRx (frame : RxFrame)
  /-- RING_FRAME_TX (R449): Borore inserts its own frame once the line is idle and nothing waits to be forwarded. -/
  | ringFrameTx
  /-- RING_ALARM_REPEAT (R450): The ALARM is repeated every 100 ms while ALIVE is low. -/
  | ringAlarmRepeat
  /-- PASS_PATH_OPEN (R453): After 16 idle bit times, the pass path opens and Borore drives LRING_OUT. -/
  | passPathOpen
  /-- DMA_WRITE_HANDED (R459): A queued posted DMA write (result, turn record, dirty-log update or blob) is handed to its link once the module is active and has credits, after which the record and MSI-X that wait behind it proceed. -/
  | dmaWriteHanded (m : Nat)
  /-- CONFIG_WRITE (R51): A PCIe configuration write to the hinge or data function, such as enabling MSI-X. -/
  | configWrite (m : Nat) (field : CfgWrite)
  /-- LF_STATUS_CLEAR (R92): A leaf writes 1 to W1C bits of LF_STATUS in its BAR2 window, clearing RECORD_LOST, RESET_DONE, Q_ERR or ACC_ERR. -/
  | lfStatusClear (m : Nat) (leaf : Nat) (value : Word)
  /-- BLOCK_RESET_RELEASE (R354): A block leaves its BLOCK reset and runs its start-up self-test, returning to service or staying out of service and being retired. -/
  | blockResetRelease (block : BlockId) (selfTestOk : Bool)
  /-- VBAT_LOW (R422): VBAT falls below 2.6 V, setting PW_AON_STAT.VBAT_LOW and clearing PW_RAILS.VBAT_OK. -/
  | vbatLow
  /-- AON_RETENTION_LOSS (R422): VBAT falls below 2.2 V while VDD_IO is absent (or VDD_IO leaves good with VBAT tied off), and all always-on state, tamper watching and the vault key share are lost. -/
  | aonRetentionLoss
  /-- CREATE (R66): The hinge creates a leaf from a creation input: it decapsulates, derives the LTK and commits the journal. -/
  | hgCreate
  /-- QCONFIG (R68): The hinge configures one queue's rings and LF_Q_CFG and resets its pointers. -/
  | hgQconfig
  /-- RESET (R73): The hinge aborts all of the leaf's turns at the next edge and resets its queue pointers, keeping the keyway and meters. -/
  | hgReset
  /-- DESTROY (R76): The hinge commits the incremented generation, does the work of RESET, clears the keyway and binding, and sets the leaf FREE. -/
  | hgDestroy
  /-- QUIESCE (R91): The hinge stops fetch for the leaf, aborts turns that dispatched no stroke, and starts a drain or an abort. -/
  | hgQuiesce
  /-- RESUME (R58): The hinge returns a QUIESCED leaf to ACTIVE and acts on its latched doorbells. -/
  | hgResume
  /-- REBIND (R54): The hinge changes a quiesced leaf's PASID and bound module. -/
  | hgRebind
  /-- DLOG_SET (R82): The hinge starts dirty-page logging into bitmap A. -/
  | hgDlogSet
  /-- DLOG_HARVEST (R84): The hinge finishes pending bitmap updates, switches to the other bitmap and sets DLOG_SWAPPED. -/
  | hgDlogHarvest
  /-- DLOG_STOP (R62): The hinge stops dirty-page logging for the leaf. -/
  | hgDlogStop
  /-- IMPORT_OPEN (R88): The hinge reserves a FREE leaf and draws a fresh 128-bit nonce. -/
  | hgImportOpen
  /-- EXPORT (R86): The hinge checks the destination certificate, seals the blob, commits the counter, writes the blob and sets the leaf EXPORTED, or rewrites a held blob. -/
  | hgExport
  /-- IMPORT (R89): The hinge reads and checks a blob, consumes the nonce, sets the counter and leaves the leaf QUIESCED. -/
  | hgImport
  /-- IDGEN (R311): Generates a new vault key share and identity keys, increments the epoch and seals them. -/
  | kwIdgen
  /-- CERT_INSTALL (R313): Checks and installs the identity certificate. -/
  | kwCertInstall
  /-- CERT_READ (R315): Writes the installed certificate to host memory. -/
  | kwCertRead
  /-- ATTEST (R314): Signs a challenge into an attestation statement. -/
  | kwAttest
  /-- OPEN (R330): Checks an opening certificate and grants its rights. -/
  | hsOpen
  /-- DROP_RIGHTS (R333): Clears all held rights. -/
  | hsDropRights
  /-- TRANSITION (R323): Checks a transition certificate and submits a LIFE activity. -/
  | hsTransition
  /-- INTKEY_INSTALL (R334): Seals and commits the integrator public keys. -/
  | hsIntkeyInstall
  /-- PATCH (R395): Starts a live patch pass over the classes in the mask, one engine at a time. -/
  | miPatch
  /-- RETIRE (R397): Retires an engine and aborts its turns. -/
  | miRetire
  /-- FW_SWAP (R399): Halts the management core and restarts it from the other firmware bank. -/
  | miFwSwap
  /-- PIN_RECAL (R400): Re-trims an ordinary pin and runs its startup block. -/
  | miPinRecal
  /-- PIN_RETIRE (R400): Retires an ordinary pin until CHIP reset. -/
  | miPinRetire
  /-- RAW_CAPTURE (R297): Requests raw sample mode on a pin. -/
  | miRawCapture
  /-- RESEED_ALL (R298): Makes every DRBG reseed before its next generate request. -/
  | miReseedAll
  /-- MRAM_SCRUB (R378): Runs an MRAM scrub pass. -/
  | miMramScrub
  /-- WEAR_RELOCATE (R400): Moves worn MRAM lines, compacting the journal first. -/
  | miWearRelocate
  /-- IMAGE_WRITE (R392): Checks a firmware or patch image and writes it to a bank. -/
  | miImageWrite
  /-- JOURNAL_COMPACT (R373): Copies every live journal record forward. -/
  | miJournalCompact
  /-- WARD_REKEY (R338): Replaces the ward key once entropy is available. -/
  | miWardRekey
  /-- TAMPER_RECAL (R430): Loads the effective tamper calibration of the masked sources. -/
  | miTamperRecal
  deriving DecidableEq, Repr

end Sys2Proof
end

