-- ==== Sys2Proof/Machine/Bits.lean ====
section
/-! DEFINITION. Fields of words, byte order, byte strings and saturating counters: the helpers every other file uses. -/

namespace Sys2Proof.Machine

/-- A value in three shares (R203). -/
structure Sh (α : Type) where
  s0 : α
  s1 : α
  s2 : α
  deriving DecidableEq, Repr

/-- A part of an output: public bytes, shared bytes, coefficients to encode in `d` bits (as b − x with `some b`), hints by plane. The
store controller's write path recombines it (R206). -/
inductive Piece where
  | pub (b : Bytes)
  | bits (x : Sh Bytes)
  | coeffs (q d : Nat) (top : Option Nat) (x : Sh (List Nat))
  | hints (omega : Nat) (h : List (Sh Nat))
  deriving DecidableEq, Repr

/-- The field of `len` bits of `w` that starts at bit `lo`. -/
def field (w lo len : Nat) : Nat := (w >>> lo) % 2 ^ len

/-- Bit `i` of `w`. -/
def bitOf (w i : Nat) : Bool := w.testBit i

/-- A Boolean as one bit. -/
def b2n (b : Bool) : Nat := if b then 1 else 0

/-- `v`, cut to `len` bits, placed at bit `lo`. -/
def at_ (v lo len : Nat) : Nat := (v % 2 ^ len) <<< lo

/-- A 32-bit register word from a number. -/
def word (n : Nat) : Word := BitVec.ofNat 32 n

/-- The little-endian value of a byte string (R16). -/
def leNat : Bytes → Nat
  | [] => 0
  | b :: r => b.toNat + 256 * leNat r

/-- `len` bytes of `n`, least significant first (R16). -/
def leBytes (n : Nat) : Nat → Bytes
  | 0 => []
  | len + 1 => BitVec.ofNat 8 n :: leBytes (n / 256) len

/-- The big-endian value of a byte string (R161). -/
def beNat (bs : Bytes) : Nat := bs.foldl (fun a b => a * 256 + b.toNat) 0

/-- `len` bytes of `n`, most significant first (R161). -/
def beBytes (n len : Nat) : Bytes := (leBytes n len).reverse

/-- `n` bytes of zero. -/
def zeros (n : Nat) : Bytes := List.replicate n 0

/-- `bs` cut or filled with zeros to exactly `n` bytes. -/
def fit (n : Nat) (bs : Bytes) : Bytes := (bs ++ zeros (n - bs.length)).take n

/-- The `len` bytes of `bs` from offset `off`. -/
def slice (bs : Bytes) (off len : Nat) : Bytes := (bs.drop off).take len

/-- Bytewise exclusive-or of two strings, as long as the shorter one. -/
def xorBytes (a b : Bytes) : Bytes := List.zipWith (· ^^^ ·) a b

/-- The 32-bit little-endian word at byte offset `off`. -/
def u32 (bs : Bytes) (off : Nat) : Nat := leNat (slice bs off 4)

/-- The 16-bit little-endian word at byte offset `off`. -/
def u16 (bs : Bytes) (off : Nat) : Nat := leNat (slice bs off 2)

/-- The 64-bit little-endian word at byte offset `off`. -/
def u64 (bs : Bytes) (off : Nat) : Nat := leNat (slice bs off 8)

/-- The byte at offset `off` as a number. -/
def u8 (bs : Bytes) (off : Nat) : Nat := leNat (slice bs off 1)

/-- `n + k`, held at the greatest value of `bits` bits (a saturating counter). -/
def satAdd (bits n k : Nat) : Nat := min (n + k) (2 ^ bits - 1)

/-- `n + k` wrapped to `bits` bits. -/
def wrapAdd (bits n k : Nat) : Nat := (n + k) % 2 ^ bits

/-- The quotient rounded up. -/
def ceilDiv (a b : Nat) : Nat := (a + b - 1) / b

/-- The exclusive-or of the low `n` bits of `w`: their parity (R361). -/
def parity (w : Nat) : Nat → Bool
  | 0 => false
  | n + 1 => xor (w.testBit n) (parity w n)

/-- How many of the low `n` bits of `w` are one. -/
def popcount (w : Nat) : Nat → Nat
  | 0 => 0
  | n + 1 => b2n (w.testBit n) + popcount w n

/-- `w` with the bits of `m` cleared (a write of `m` to W1C bits, R18). -/
def clearBits (w m : Nat) : Nat := w &&& (w ^^^ m)

/-- The entry of a list at `i`, or `d`. -/
def nth {α : Type} (l : List α) (i : Nat) (d : α) : α := l.getD i d

/-- The list with the entry at `i` replaced by its image under `f`. -/
def modifyAt {α : Type} (l : List α) (i : Nat) (f : α → α) : List α := l.modify i f

/-- Adds `x` at the end of a list without repeats. -/
def insertNew {α : Type} [DecidableEq α] (l : List α) (x : α) : List α := if x ∈ l then l else l ++ [x]

/-- A key comes before another, number by number. -/
def before : List Nat → List Nat → Bool
  | [], [] => false
  | [], _ :: _ => true
  | _ :: _, [] => false
  | a :: x, b :: y => a < b || (a == b && before x y)

/-- The first entry with the least key. -/
def leastBy {α : Type} (key : α → List Nat) : List α → Option α
  | [] => none
  | a :: r =>
    match leastBy key r with
    | none => some a
    | some b => if before (key b) (key a) then some b else some a

/-- Puts an entry into a list in order of its key, after those with an equal key. -/
def insertBy {α : Type} (key : α → List Nat) (a : α) : List α → List α
  | [] => [a]
  | b :: r => if before (key a) (key b) then a :: b :: r else b :: insertBy key a r

/-- A list in order of a key; equal keys keep their order. -/
def sortBy {α : Type} (key : α → List Nat) (l : List α) : List α := l.foldl (fun s a => insertBy key a s) []

end Sys2Proof.Machine
end

