-- ==== Sys2Proof/Machine/Aes.lean ====
section
/-! DEFINITION. AES (FIPS 197), multiplication in GF(2^128) as GCM and XTS use it (SP 800-38D, IEEE 1619), and AES-GCM sealing as R277,
R304 and R309 use it. PRESUMED: the spec names these standards (log entry 21). -/

namespace Sys2Proof.Machine

/-- Multiplication by x in GF(2^8) of AES. -/
def xtime (a : Nat) : Nat := if a < 128 then 2 * a else Nat.xor (2 * a) 0x11B

/-- Multiplication in GF(2^8), by the bits of b from bit n − 1 down. -/
def gmul (a b : Nat) : Nat → Nat
  | 0 => 0
  | n + 1 => Nat.xor (gmul a b n) (if b.testBit n then (List.range n).foldl (fun x _ => xtime x) a else 0)

/-- x^254, the inverse in GF(2^8) with 0 for 0. -/
def ginv (a : Nat) : Nat :=
  let sq x := gmul x x 8
  let r := (List.range 6).foldl (fun (p : Nat × Nat) _ => let s := sq p.1; (s, gmul p.2 s 8)) (sq a, sq a)
  r.2

/-- The S-box, entry by entry (FIPS 197, 5.1.1). -/
def sboxOf (a : Nat) : Nat :=
  let b := ginv a
  let rot n := ((b <<< n) ||| (b >>> (8 - n))) % 256
  Nat.xor (Nat.xor (Nat.xor (Nat.xor (Nat.xor b (rot 1)) (rot 2)) (rot 3)) (rot 4)) 0x63

/-- The S-box table. -/
def sbox : List Nat := (List.range 256).map sboxOf
/-- The inverse S-box table. -/
def sboxInv : List Nat := (List.range 256).map fun v => (sbox.findIdx? (· == v)).getD 0

/-- Key expansion: the words of the schedule, newest first, `n` more. -/
def keyExpand (nk : Nat) (tab : Nat → Nat) : Nat → Nat → List (List Nat) → List (List Nat)
  | 0, _, ws => ws
  | n + 1, i, ws =>
    let t := nth ws 0 []
    let sub (w : List Nat) := w.map tab
    let t := if i % nk = 0 then
        match sub (t.drop 1 ++ t.take 1) with
        | x :: r => Nat.xor x ((List.range (i / nk - 1)).foldl (fun c _ => xtime c) 1) :: r
        | [] => []
      else if 6 < nk ∧ i % nk = 4 then sub t else t
    keyExpand nk tab n (i + 1) (List.zipWith Nat.xor (nth ws (nk - 1) []) t :: ws)

/-- The round keys of a 16, 24 or 32-byte key, 16 bytes each. -/
def roundKeys (key : Bytes) : List (List Nat) :=
  let nk := key.length / 4
  let ws := (List.range nk).map fun i => (slice key (4 * i) 4).map BitVec.toNat
  let all := (keyExpand nk (fun x => nth sbox x 0) (4 * (nk + 7) - nk) nk ws.reverse).reverse
  (List.range (nk + 7)).map fun r => ((all.drop (4 * r)).take 4).foldr (· ++ ·) []

/-- A column multiplied by the circulant matrix of coefficients. -/
def mixCol (m : List Nat) (c : List Nat) : List Nat :=
  (List.range 4).map fun i => (List.range 4).foldl (fun s j => Nat.xor s (gmul (nth c j 0) (nth m ((j + 4 - i) % 4) 0) 4)) 0

/-- MixColumns or its inverse on 16 bytes. -/
def mixCols (m : List Nat) (s : List Nat) : List Nat :=
  (List.range 4).foldr (fun c r => mixCol m ((s.drop (4 * c)).take 4) ++ r) []

/-- ShiftRows: byte r + 4c comes from r + 4(c + k·r). -/
def shiftRows (k : Nat) (s : List Nat) : List Nat :=
  (List.range 16).map fun i => nth s (i % 4 + 4 * ((i / 4 + k * (i % 4)) % 4)) 0

/-- AES encryption of one block. -/
def aesEnc (key block : Bytes) : Bytes :=
  let ks := roundKeys key
  let s0 := List.zipWith Nat.xor (block.map BitVec.toNat) (nth ks 0 [])
  let mid := (ks.drop 1).dropLast
  let s := mid.foldl (fun s k => List.zipWith Nat.xor (mixCols [2, 3, 1, 1] (shiftRows 1 (s.map fun x => nth sbox x 0))) k) s0
  (List.zipWith Nat.xor (shiftRows 1 (s.map fun x => nth sbox x 0)) (ks.getLastD [])).map (BitVec.ofNat 8)

/-- AES decryption of one block. -/
def aesDec (key block : Bytes) : Bytes :=
  let ks := (roundKeys key).reverse
  let s0 := List.zipWith Nat.xor (block.map BitVec.toNat) (nth ks 0 [])
  let mid := (ks.drop 1).dropLast
  let s := mid.foldl (fun s k => mixCols [14, 11, 13, 9] (List.zipWith Nat.xor ((shiftRows 3 s).map fun x => nth sboxInv x 0) k)) s0
  (List.zipWith Nat.xor ((shiftRows 3 s).map fun x => nth sboxInv x 0) (ks.getLastD [])).map (BitVec.ofNat 8)

/-- The 16-byte blocks of a string. -/
def blocks16 (bs : Bytes) : List Bytes := (List.range (bs.length / 16)).map fun i => slice bs (16 * i) 16

/-- Each 16-byte block under a block function (R165). -/
def ecb (f : Bytes → Bytes) (bs : Bytes) : Bytes := (blocks16 bs).foldr (fun b r => f b ++ r) []

/-- Multiplication in GF(2^128) with the bit order of SP 800-38D: a 16-byte block as a big-endian number whose top bit is x^0. -/
def ghMul (x y : Nat) : Nat :=
  ((List.range 128).foldl (fun (p : Nat × Nat) i =>
    (if x.testBit (127 - i) then Nat.xor p.1 p.2 else p.1,
     if p.2.testBit 0 then Nat.xor (p.2 >>> 1) (0xE1 <<< 120) else p.2 >>> 1)) (0, y)).1

/-- Y after GHASH of whole blocks under H (R165). -/
def ghash (y h data : Bytes) : Bytes :=
  beBytes ((blocks16 data).foldl (fun y b => ghMul (Nat.xor y (beNat b)) (beNat h)) (beNat y)) 16

/-- T · α in the little-endian convention of IEEE 1619 (R165). -/
def xtsNext (t : Nat) : Nat := if t.testBit 127 then Nat.xor ((t <<< 1) % 2 ^ 128) 0x87 else t <<< 1

/-- T · α^j for j from 0 to n − 1, and T · α^n. -/
def xtsSeq : Nat → Nat → Bytes × Nat
  | 0, t => ([], t)
  | n + 1, t => let r := xtsSeq n (xtsNext t); (leBytes t 16 ++ r.1, r.2)

/-- inc32 of SP 800-38D (R141). -/
def inc32 (b : Bytes) : Bytes := b.take 12 ++ beBytes ((beNat (slice b 12 4) + 1) % 2 ^ 32) 4

/-- `n` counter blocks from a block on, and the next one (R141). -/
def ctrBlocks : Nat → Bytes → Bytes × Bytes
  | 0, b => ([], b)
  | n + 1, b => let r := ctrBlocks n (inc32 b); (b ++ r.1, r.2)

/-- The string filled with zeros to whole 16-byte blocks. -/
def pad16 (bs : Bytes) : Bytes := bs ++ zeros ((16 - bs.length % 16) % 16)

/-- AES-GCM with a 12-byte nonce: the text XOR the key stream, and the tag over associated data and ciphertext. -/
def gcmCore (key nonce aad text : Bytes) (decrypt : Bool) : Bytes × Bytes :=
  let h := aesEnc key (zeros 16)
  let j0 := nonce ++ [0, 0, 0, 1]
  let ks := ecb (aesEnc key) (ctrBlocks (ceilDiv text.length 16) (inc32 j0)).1
  let other := xorBytes text ks
  let c := if decrypt then text else other
  let s := ghash (zeros 16) h (pad16 aad ++ pad16 c ++ beBytes (8 * aad.length) 8 ++ beBytes (8 * c.length) 8)
  (other, xorBytes s (aesEnc key j0))

/-- AES-GCM sealing: ciphertext and 16-byte tag. -/
def gcmSeal (key nonce aad plain : Bytes) : Bytes × Bytes := gcmCore key nonce aad plain false

/-- AES-GCM opening: the plaintext where the tag holds. -/
def gcmOpen (key nonce aad cipher tag : Bytes) : Option Bytes :=
  let r := gcmCore key nonce aad cipher true
  if r.2 = tag then some r.1 else none

end Sys2Proof.Machine
end

