-- ==== Sys2Proof/Machine/Hash.lean ====
section
/-! DEFINITION. The hash functions of R2: SHA-2 (FIPS 180-4), Keccak and SHA-3/SHAKE (FIPS 202), HMAC (FIPS 198-1), HKDF (RFC 5869) and
the CRC of R448. PRESUMED: the spec names these standards and gives no arithmetic of its own (log entry 21). -/

namespace Sys2Proof.Machine

/-! ### SHA-2 -/

/-- The parameters of one SHA-2 word size. -/
structure Sha2 where
  bits : Nat
  rounds : Nat
  k : List Nat
  s0 : Nat × Nat × Nat
  s1 : Nat × Nat × Nat
  e0 : Nat × Nat × Nat
  e1 : Nat × Nat × Nat

/-- The first n primes, by trial. -/
def primes (n : Nat) : List Nat :=
  ((List.range 420).filter fun p => 2 ≤ p && (List.range p).all fun q => q < 2 || p % q != 0).take n

/-- The integer k-th root of n below 2^bits, by bits from the top. -/
def iroot (k n : Nat) (bits : Nat) : Nat :=
  ((List.range bits).reverse).foldl (fun r i => if (r + 2 ^ i) ^ k ≤ n then r + 2 ^ i else r) 0

/-- The first `w` fractional bits of the cube root of p. -/
def cubeFrac (p w : Nat) : Nat := iroot 3 (p * 2 ^ (3 * w)) (w + 4) % 2 ^ w

/-- The first `w` fractional bits of the square root of p. -/
def sqrtFrac (p w : Nat) : Nat := iroot 2 (p * 2 ^ (2 * w)) (w + 6) % 2 ^ w

/-- SHA-256 and SHA-224. -/
def sha256P : Sha2 := ⟨32, 64, (primes 64).map (cubeFrac · 32), (7, 18, 3), (17, 19, 10), (2, 13, 22), (6, 11, 25)⟩
/-- SHA-512 and SHA-384. -/
def sha512P : Sha2 := ⟨64, 80, (primes 80).map (cubeFrac · 64), (1, 8, 7), (19, 61, 6), (28, 34, 39), (14, 18, 41)⟩

/-- Rotation to the right of a `w`-bit word. -/
def rotr (w x n : Nat) : Nat := (x >>> n) ||| ((x <<< (w - n)) % 2 ^ w)

/-- The message schedule: words in reverse order, extended one at a time. -/
def sha2Extend (P : Sha2) : Nat → List Nat → List Nat
  | 0, ws => ws
  | n + 1, ws =>
    let f (r : Nat × Nat × Nat) (x : Nat) := Nat.xor (Nat.xor (rotr P.bits x r.1) (rotr P.bits x r.2.1)) (x >>> r.2.2)
    let w := (nth ws 15 0 + f P.s0 (nth ws 14 0) + nth ws 6 0 + f P.s1 (nth ws 1 0)) % 2 ^ P.bits
    sha2Extend P n (w :: ws)

/-- One compression of a block of 16 words into 8 chaining words. -/
def sha2Compress (P : Sha2) (h : List Nat) (block : List Nat) : List Nat :=
  let m := 2 ^ P.bits
  let ws := (sha2Extend P (P.rounds - 16) block.reverse).reverse
  let sig (r : Nat × Nat × Nat) (x : Nat) := Nat.xor (Nat.xor (rotr P.bits x r.1) (rotr P.bits x r.2.1)) (rotr P.bits x r.2.2)
  let st := (P.k.zip ws).foldl (fun (s : List Nat) (kw : Nat × Nat) =>
    match s with
    | [a, b, c, d, e, f, g, hh] =>
      let t1 := hh + sig P.e1 e + Nat.xor (e &&& f) ((m - 1 - e) &&& g) + kw.1 + kw.2
      let t2 := sig P.e0 a + Nat.xor (Nat.xor (a &&& b) (a &&& c)) (b &&& c)
      [(t1 + t2) % m, a, b, c, (d + t1) % m, e, f, g]
    | _ => s) h
  List.zipWith (fun x y => (x + y) % m) h st

/-- Bytes cut into pieces of `n`. -/
def pieces (n : Nat) (bs : Bytes) : List Bytes := (List.range (bs.length / n)).map fun i => slice bs (i * n) n

/-- Initial chaining words by algorithm code 0 to 3 (SHA-224, -256, -384, -512). -/
def sha2Init (alg : Nat) : List Nat :=
  match alg with
  | 0 => (((primes 16).drop 8).map (sqrtFrac · 64)).map (· % 2 ^ 32)
  | 1 => ((primes 8).map (sqrtFrac · 32))
  | 2 => ((primes 16).drop 8).map (sqrtFrac · 64)
  | _ => (primes 8).map (sqrtFrac · 64)

/-- The parameters of algorithm codes 0 to 3. -/
def sha2Of (alg : Nat) : Sha2 := if alg < 2 then sha256P else sha512P

/-- Chaining words after whole blocks. -/
def sha2Blocks (alg : Nat) (h : List Nat) (bs : Bytes) : List Nat :=
  let P := sha2Of alg
  let wb := P.bits / 8
  (pieces (16 * wb) bs).foldl (fun h b => sha2Compress P h ((pieces wb b).map beNat)) h

/-! ### Keccak -/

/-- Rotation to the left of a 64-bit lane. -/
def rotl64 (x n : Nat) : Nat := rotr 64 x ((64 - n % 64) % 64)

/-- The lane that lane (x, y), numbered x + 5y, moves to under π. -/
def keccakGoes (i : Nat) : Nat := i / 5 + 5 * ((2 * (i % 5) + 3 * (i / 5)) % 5)

/-- ρ and π as one walk: π carries the 24 lanes other than lane 0 round one cycle, and the t-th lane of the walk from lane 1 is rotated by
the t-th triangular number. Each step: where from, where to, by how much. -/
def keccakWalk : Nat → Nat → Nat → List (Nat × Nat × Nat)
  | 0, _, _ => []
  | k + 1, i, t => (i, keccakGoes i, (t + 1) * (t + 2) / 2 % 64) :: keccakWalk k (keccakGoes i) (t + 1)

/-- For each lane after ρ and π, the lane it comes from and its rotation. -/
def keccakFrom : List (Nat × Nat) :=
  (keccakWalk 24 1 0).foldl (fun l m => l.set m.2.1 (m.1, m.2.2)) (List.replicate 25 (0, 0))

/-- The bits of ι: a register of 8 bits that shifts left and folds back with x^6 + x^5 + x^4 + 1. -/
def keccakLfsr : Nat → Nat → List Bool
  | 0, _ => []
  | k + 1, r => bitOf r 0 :: keccakLfsr k (if bitOf r 7 then Nat.xor (2 * r % 256) 0x71 else 2 * r)

/-- The round constants of ι: bit 2^j − 1 of round i is bit 7i + j of the register's output. -/
def keccakRc : List Nat :=
  let bits := keccakLfsr 168 1
  (List.range 24).map fun i => (List.range 7).foldl (fun c j => c + b2n (nth bits (7 * i + j) false) * 2 ^ (2 ^ j - 1)) 0

/-- θ: every lane takes in the parity of the column before it and, rotated by one, of the column after it. -/
def keccakTheta (a : List Nat) : List Nat :=
  let cols := (List.range 5).map fun x => (List.range 5).foldl (fun s y => Nat.xor s (nth a (x + 5 * y) 0)) 0
  a.mapIdx fun i v => Nat.xor v (Nat.xor (nth cols ((i + 4) % 5) 0) (rotl64 (nth cols ((i + 1) % 5) 0) 1))

/-- The linear half of a round, θ then ρ and π: on masked barrels it works on each share alone (R210). -/
def keccakLinear (a : List Nat) : List Nat :=
  let t := keccakTheta a
  keccakFrom.map fun m => rotl64 (nth t m.1 0) m.2

/-- χ: every lane takes in the second next lane of its row where the next one is zero. -/
def keccakChi (a : List Nat) : List Nat :=
  a.mapIdx fun i v =>
    let row := 5 * (i / 5)
    let next := nth a (row + (i + 1) % 5) 0
    let far := nth a (row + (i + 2) % 5) 0
    Nat.xor v (Nat.xor far (next &&& far))

/-- ι: the round constant goes into lane 0. -/
def keccakIota (rc : Nat) (a : List Nat) : List Nat := modifyAt a 0 (Nat.xor rc)

/-- One round of Keccak-f[1600] on 25 lanes. -/
def keccakRound (a : List Nat) (rc : Nat) : List Nat := keccakIota rc (keccakChi (keccakLinear a))

/-- Keccak-f[1600] on the 200-byte state string of R241. -/
def keccakF (st : Bytes) : Bytes :=
  (keccakRc.foldl keccakRound ((pieces 8 (fit 200 st)).map leNat)).foldr (fun l r => leBytes l 8 ++ r) []

/-- The rate in bytes of algorithm codes 4 to 9 (R154). -/
def keccakRate (alg : Nat) : Nat := nth [144, 136, 104, 72, 168, 136] (alg - 4) 136

/-- Absorbs whole rate blocks. -/
def keccakAbsorb (rate : Nat) (st : Bytes) (bs : Bytes) : Bytes :=
  (pieces rate bs).foldl (fun s b => keccakF (xorBytes s (fit 200 b))) st

/-! ### Algorithm codes of R154 -/

/-- Block bytes of an algorithm code (R154). -/
def algBlock (alg : Nat) : Nat := if alg < 2 then 64 else if alg < 4 then 128 else keccakRate alg

/-- Digest bytes of an algorithm code (R154). -/
def algDigest (alg : Nat) : Nat := nth [28, 32, 48, 64, 28, 32, 48, 64, 32, 64] alg 32

/-- Blocks an engine-beat takes (R154). -/
def algPerBeat (alg : Nat) : Nat := if alg < 2 then 16 else if alg < 4 then 12 else 42

/-- The empty chaining value of an algorithm, as the 200 bytes of R241. -/
def algInit (alg : Nat) : Bytes :=
  if alg < 4 then fit 200 ((sha2Init alg).foldr (fun w r => beBytes w ((sha2Of alg).bits / 8) ++ r) []) else zeros 200

/-- The chaining value after whole blocks. -/
def algAbsorb (alg : Nat) (chain bs : Bytes) : Bytes :=
  if alg < 4 then
    let wb := (sha2Of alg).bits / 8
    fit 200 ((sha2Blocks alg ((pieces wb (chain.take (8 * wb))).map beNat) bs).foldr (fun w r => beBytes w wb ++ r) [])
  else keccakAbsorb (keccakRate alg) chain bs

/-- The padding of R243 after a message of `len` bytes, the bit length counting `extra` bytes before it. -/
def algPad (alg len extra : Nat) : Bytes :=
  let blk := algBlock alg
  if alg < 4 then
    let lb := if alg < 2 then 8 else 16
    let total := len + 1 + lb
    (0x80 : Byte) :: (zeros ((blk - total % blk) % blk) ++ beBytes (8 * (len + extra)) lb)
  else
    let n := blk - len % blk
    let first : Nat := if alg < 8 then 0x06 else 0x1F
    if n = 1 then [BitVec.ofNat 8 (first + 0x80)]
    else BitVec.ofNat 8 first :: (zeros (n - 2) ++ [0x80])

/-- The hash of a message. -/
def hash (alg : Nat) (msg : Bytes) : Bytes := (algAbsorb alg (algInit alg) (msg ++ algPad alg msg.length 0)).take (algDigest alg)

/-- `n` bytes of output from a Keccak state, permuting between rate blocks. -/
def squeezeFrom (rate : Nat) : Nat → Bytes → Nat → Bytes
  | 0, _, _ => []
  | k + 1, st, n => if n ≤ rate then st.take n else st.take rate ++ squeezeFrom rate k (keccakF st) (n - rate)

/-- SHAKE128 (8) or SHAKE256 (9) of a message, `n` bytes. -/
def shake (alg : Nat) (msg : Bytes) (n : Nat) : Bytes :=
  squeezeFrom (keccakRate alg) (n / keccakRate alg + 1) (algAbsorb alg (algInit alg) (msg ++ algPad alg msg.length 0)) n

/-! ### HMAC and HKDF -/

/-- The HMAC key block XOR a constant byte. -/
def hmacBlock (alg : Nat) (key : Bytes) (c : Byte) : Bytes := (fit (algBlock alg) key).map (· ^^^ c)

/-- Inner and outer key states of HMAC (R156), each the chaining value after the key block. -/
def hmacStates (alg : Nat) (key : Bytes) : Bytes × Bytes :=
  (algAbsorb alg (algInit alg) (hmacBlock alg key 0x36), algAbsorb alg (algInit alg) (hmacBlock alg key 0x5C))

/-- The outer hash over an inner digest, from the outer key state (R156). -/
def hmacFinish (alg : Nat) (outer digest : Bytes) : Bytes :=
  (algAbsorb alg outer (digest ++ algPad alg digest.length (algBlock alg))).take (algDigest alg)

/-- HMAC (FIPS 198-1). -/
def hmac (alg : Nat) (key msg : Bytes) : Bytes :=
  let k := if algBlock alg < key.length then hash alg key else key
  let (i, o) := hmacStates alg k
  hmacFinish alg o ((algAbsorb alg i (msg ++ algPad alg msg.length (algBlock alg))).take (algDigest alg))

/-- The blocks T(i) of HKDF-Expand, most recent first. -/
def hkdfBlocks (alg : Nat) (prk info : Bytes) : Nat → Nat → Bytes → List Bytes
  | 0, _, _ => []
  | n + 1, i, prev =>
    let t := hmac alg prk (prev ++ info ++ [BitVec.ofNat 8 i])
    t :: hkdfBlocks alg prk info n (i + 1) t

/-- HKDF (RFC 5869): extract with salt, expand to `n` bytes. -/
def hkdf (alg : Nat) (salt ikm info : Bytes) (n : Nat) : Bytes :=
  let prk := hmac alg (if salt = [] then zeros (algDigest alg) else salt) ikm
  ((hkdfBlocks alg prk info (ceilDiv n (algDigest alg)) 1 []).foldr (· ++ ·) []).take n

/-! ### CRC -/

/-- CRC-16/CCITT-FALSE (R448). -/
def crc16 (bs : Bytes) : Nat :=
  bs.foldl (fun c b =>
    (List.range 8).foldl (fun c _ => if c.testBit 15 then Nat.xor ((c <<< 1) % 65536) 0x1021 else (c <<< 1) % 65536)
      (Nat.xor c (b.toNat <<< 8))) 0xFFFF

end Sys2Proof.Machine
end

