-- ==== Sys2Proof/Machine/Curve.lean ====
section
/-! DEFINITION. The modular arithmetic of the bolts and the curves of R2: ECDSA and ECDH on P-256, P-384 and P-521 (FIPS 186-5), X25519
and X448 (RFC 7748), Ed25519 and Ed448 (RFC 8032), RSA primitives (RFC 8017). PRESUMED: the spec names these standards (log entry 21). -/

namespace Sys2Proof.Machine

/-! ### Modular arithmetic -/

/-- b^e mod m over the low `n` bits of e, from the top bit down. -/
def powBits (m b e : Nat) : Nat → Nat → Nat
  | 0, acc => acc
  | n + 1, acc => let s := acc * acc % m; powBits m b e n (if e.testBit n then s * b % m else s)

/-- b^e mod m. -/
def powMod (b e m : Nat) : Nat := powBits m (b % m) e (e.log2 + 1) (1 % m)

/-- Extended gcd on (r0, r1, s0, s1) with fuel: the gcd and the coefficient of the first argument modulo m. -/
def egcd (m : Nat) : Nat → Nat → Nat → Nat → Nat → Nat × Nat
  | 0, r0, _, s0, _ => (r0, s0)
  | k + 1, r0, r1, s0, s1 =>
    if r1 = 0 then (r0, s0)
    else egcd m k r1 (r0 % r1) s1 ((s0 + m * (r0 / r1) - (r0 / r1) * s1 % m) % m)

/-- The inverse of a modulo m, if there is one. -/
def invMod (a m : Nat) : Option Nat :=
  let r := egcd m (3 * m.log2 + 8) (a % m) m 1 0
  if r.1 = 1 then some (r.2 % m) else none

/-- a − b modulo m, for a and b below m. -/
def subMod (a b m : Nat) : Nat := (a + m - b) % m

/-- The inverse modulo a prime. -/
def inv (a p : Nat) : Nat := (invMod a p).getD 0

/-! ### Weierstrass curves (classes 0x1, 0x2, 0x4) -/

/-- A curve y² = x³ − 3x + b modulo p, with a base point of order n. -/
structure Curve where
  p : Nat
  b : Nat
  n : Nat
  gx : Nat
  gy : Nat

/-- P-256, P-384 or P-521 by length class (R161). -/
def curveOf (cls : Nat) : Curve :=
  match cls with
  | 1 => ⟨2 ^ 256 - 2 ^ 224 + 2 ^ 192 + 2 ^ 96 - 1,
          0x5AC635D8AA3A93E7B3EBBD55769886BC651D06B0CC53B0F63BCE3C3E27D2604B,
          0xFFFFFFFF00000000FFFFFFFFFFFFFFFFBCE6FAADA7179E84F3B9CAC2FC632551,
          0x6B17D1F2E12C4247F8BCE6E563A440F277037D812DEB33A0F4A13945D898C296,
          0x4FE342E2FE1A7F9B8EE7EB4A7C0F9E162BCE33576B315ECECBB6406837BF51F5⟩
  | 2 => ⟨2 ^ 384 - 2 ^ 128 - 2 ^ 96 + 2 ^ 32 - 1,
          0xB3312FA7E23EE7E4988E056BE3F82D19181D9C6EFE8141120314088F5013875AC656398D8A2ED19D2A85C8EDD3EC2AEF,
          0xFFFFFFFFFFFFFFFFFFFFFFFFFFFFFFFFFFFFFFFFFFFFFFFFC7634D81F4372DDF581A0DB248B0A77AECEC196ACCC52973,
          0xAA87CA22BE8B05378EB1C71EF320AD746E1D3B628BA79B9859F741E082542A385502F25DBF55296C3A545E3872760AB7,
          0x3617DE4A96262C6F5D9E98BF9292DC29F8F41DBD289A147CE9DA3113B5F0B8C00A60B1CE1D7E819D7A431D7C90EA0E5F⟩
  | _ => ⟨2 ^ 521 - 1,
          0x0051953EB9618E1C9A1F929A21A0B68540EEA2DA725B99B315F3B8B489918EF109E156193951EC7E937B1652C0BD3BB1BF073573DF883D2C34F1EF451FD46B503F00,
          2 ^ 521 - 2 ^ 264 + 0xFA51868783BF2F966B7FCC0148F709A5D03BB5C9B8899C47AEBB6FB71E91386409,
          0x00C6858E06B70404E9CD9E3ECB662395B4429C648139053FB521F828AF606B4D3DBAA14B5E77EFE75928FE1DC127A2FFA8DE3348B3C1856A429BF97E7E31C2E5BD66,
          0x011839296A789A3BC0045C8A5FB42C7D1BD998F54449579B446817AFBD17273E662C97EE72995EF42640C550B9013FAD0761353C7086A272C24088BE94769FD16650⟩

/-- Addition of points, none being the point at infinity. -/
def Curve.add (c : Curve) : Option (Nat × Nat) → Option (Nat × Nat) → Option (Nat × Nat)
  | none, q => q
  | some a, none => some a
  | some (x1, y1), some (x2, y2) =>
    if x1 = x2 ∧ (y1 + y2) % c.p = 0 then none
    else
      let l := if x1 = x2 then (3 * x1 * x1 + c.p - 3) % c.p * inv (2 * y1) c.p % c.p
               else subMod y2 y1 c.p * inv (subMod x2 x1 c.p) c.p % c.p
      let x3 := subMod (subMod (l * l % c.p) x1 c.p) x2 c.p
      some (x3, subMod (l * subMod x1 x3 c.p % c.p) y1 c.p)

/-- Scalar multiplication over the low `n` bits of k. -/
def Curve.mulBits (c : Curve) (k : Nat) (q : Option (Nat × Nat)) : Nat → Option (Nat × Nat) → Option (Nat × Nat)
  | 0, acc => acc
  | n + 1, acc =>
    let s := c.add acc acc
    c.mulBits k q n (if k.testBit n then c.add s q else s)

/-- k · Q. -/
def Curve.mul (c : Curve) (k : Nat) (q : Option (Nat × Nat)) : Option (Nat × Nat) := c.mulBits k q (k.log2 + 1) none

/-- The base point. -/
def Curve.g (c : Curve) : Option (Nat × Nat) := some (c.gx, c.gy)

/-- The point is on the curve, both coordinates below p (R265). -/
def Curve.on (c : Curve) (x y : Nat) : Bool :=
  x < c.p && y < c.p && y * y % c.p == (x * x * x + (c.p - 3) * x + c.b) % c.p

/-- The leftmost bits of a hash, up to the bit length of n (R263). -/
def Curve.hashInt (c : Curve) (h : Bytes) : Nat :=
  let nb := c.n.log2 + 1
  if 8 * h.length ≤ nb then beNat h else beNat h >>> (8 * h.length - nb)

/-- ECDSA: (r, s) with the private value d and the nonce k; zero where a step gives zero. -/
def Curve.sign (c : Curve) (d k : Nat) (h : Bytes) : Nat × Nat :=
  match c.mul k c.g with
  | none => (0, 0)
  | some (x, _) =>
    let r := x % c.n
    (r, inv k c.n * ((c.hashInt h + r * d) % c.n) % c.n)

/-- ECDSA verification. -/
def Curve.verify (c : Curve) (qx qy r s : Nat) (h : Bytes) : Bool :=
  if r = 0 ∨ c.n ≤ r ∨ s = 0 ∨ c.n ≤ s then false
  else
    let w := inv s c.n
    match c.add (c.mul (c.hashInt h * w % c.n) c.g) (c.mul (r * w % c.n) (some (qx, qy))) with
    | none => false
    | some (x, _) => x % c.n == r

/-! ### Montgomery curves (RFC 7748) -/

/-- The ladder of RFC 7748 over the low `n` bits of k: (x2, z2, x3, z3). -/
def xLadder (p a24 u k : Nat) : Nat → (Nat × Nat) × (Nat × Nat) → (Nat × Nat) × (Nat × Nat)
  | 0, st => st
  | n + 1, st =>
    let bit := k.testBit n
    let ((x2, z2), (x3, z3)) := if bit then (st.2, st.1) else st
    let a := (x2 + z2) % p
    let aa := a * a % p
    let b := subMod x2 z2 p
    let bb := b * b % p
    let e := subMod aa bb p
    let da := subMod x3 z3 p * a % p
    let cb := (x3 + z3) % p * b % p
    let s := (da + cb) % p
    let t := subMod da cb p
    let r := ((aa * bb % p, e * ((aa + a24 * e) % p) % p), (s * s % p, u * (t * t % p) % p))
    xLadder p a24 u k n (if bit then (r.2, r.1) else r)

/-- X25519 (class 0) or X448 (class 3) of RFC 7748, on byte strings. -/
def xMul (cls : Nat) (scalar u : Bytes) : Bytes :=
  if cls = 0 then
    let p := 2 ^ 255 - 19
    let k0 := leNat scalar
    let k := (k0 % 2 ^ 254 + 2 ^ 254) / 8 * 8
    let r := (xLadder p 121665 (leNat u % 2 ^ 255 % p) k 255 ((1, 0), (leNat u % 2 ^ 255 % p, 1))).1
    leBytes (r.1 * powMod r.2 (p - 2) p % p) 32
  else
    let p := 2 ^ 448 - 2 ^ 224 - 1
    let k0 := leNat scalar
    let k := (k0 % 2 ^ 447 + 2 ^ 447) / 4 * 4
    let r := (xLadder p 39081 (leNat u % p) k 448 ((1, 0), (leNat u % p, 1))).1
    leBytes (r.1 * powMod r.2 (p - 2) p % p) 56

/-- The base point's u. -/
def xBase (cls : Nat) : Bytes := if cls = 0 then leBytes 9 32 else leBytes 5 56

/-! ### Edwards curves (RFC 8032) -/

/-- A (twisted) Edwards curve: a x² + y² = 1 + d x² y² modulo p, base point of order l, encodings of `len` bytes. -/
structure EdCurve where
  p : Nat
  a : Nat
  d : Nat
  l : Nat
  len : Nat
  bx : Nat
  byy : Nat

/-- Ed25519 (class 0) or Ed448 (class 3). -/
def edOf (cls : Nat) : EdCurve :=
  if cls = 0 then
    let p := 2 ^ 255 - 19
    ⟨p, p - 1, (p - 121665) * inv 121666 p % p, 2 ^ 252 + 27742317777372353535851937790883648493, 32,
     15112221349535400772501151409588531511454012693041857206046113283949847762202,
     46316835694926478169428394003475163141307993866256225615783033603165251855960⟩
  else
    let p := 2 ^ 448 - 2 ^ 224 - 1
    ⟨p, 1, p - 39081, 2 ^ 446 - 13818066809895115352007386748515426880336692474882178609894547503885, 57,
     224580040295924300187604334099896036246789641632564134246125461686950415467406032909029192869357953282578032075146446173674602635247710,
     298819210078481492676017930443930673437544040154080242095928241372331506189835876003536878655418784733982303233503462500531545062832660⟩

/-- Addition of points of an Edwards curve. -/
def EdCurve.add (c : EdCurve) (q r : Nat × Nat) : Nat × Nat :=
  let xx := q.1 * r.1 % c.p
  let yy := q.2 * r.2 % c.p
  let t := c.d * (xx * yy % c.p) % c.p
  ((q.1 * r.2 + r.1 * q.2) % c.p * inv ((1 + t) % c.p) c.p % c.p,
   subMod yy (c.a * xx % c.p) c.p * inv (subMod 1 t c.p) c.p % c.p)

/-- Scalar multiplication over the low `n` bits. -/
def EdCurve.mulBits (c : EdCurve) (k : Nat) (q : Nat × Nat) : Nat → Nat × Nat → Nat × Nat
  | 0, acc => acc
  | n + 1, acc => let s := c.add acc acc; c.mulBits k q n (if k.testBit n then c.add s q else s)

/-- k · Q. -/
def EdCurve.mul (c : EdCurve) (k : Nat) (q : Nat × Nat) : Nat × Nat := c.mulBits k q (k.log2 + 1) (0, 1)

/-- The encoding of a point: y, and the low bit of x in the top bit. -/
def EdCurve.enc (c : EdCurve) (q : Nat × Nat) : Bytes := leBytes (q.2 + (q.1 % 2) * 2 ^ (8 * c.len - 1)) c.len

/-- A square root of u/v modulo p, if there is one. -/
def EdCurve.root (c : EdCurve) (u v : Nat) : Option Nat :=
  let t := u * inv v c.p % c.p
  let r := if c.p % 4 = 3 then powMod t ((c.p + 1) / 4) c.p
    else
      let r := powMod t ((c.p + 3) / 8) c.p
      if r * r % c.p = t then r else r * powMod 2 ((c.p - 1) / 4) c.p % c.p
  if r * r % c.p = t then some r else none

/-- The point that a string encodes (RFC 8032, 5.1.3 and 5.2.3). -/
def EdCurve.dec (c : EdCurve) (bs : Bytes) : Option (Nat × Nat) :=
  let n := leNat bs
  let y := n % 2 ^ (8 * c.len - 1)
  let sg := n / 2 ^ (8 * c.len - 1)
  if bs.length ≠ c.len ∨ c.p ≤ y then none
  else
    let yy := y * y % c.p
    match c.root (subMod 1 yy c.p) (subMod c.a (c.d * yy % c.p) c.p) with
    | none => none
    | some x =>
      if x = 0 ∧ sg = 1 then none
      else some (if x % 2 = sg then x else c.p - x, y)

/-- The hash of an EdDSA operation: SHA-512 for class 0, SHAKE256 with the Ed448 prefix string and empty context for class 3. -/
def edHash (cls : Nat) (key : Bool) (m : Bytes) : Bytes :=
  if cls = 0 then hash 3 m
  else shake 9 ((if key then [] else [0x53, 0x69, 0x67, 0x45, 0x64, 0x34, 0x34, 0x38, 0x00, 0x00]) ++ m) 114

/-- The secret scalar and the second half of the hash of a seed. -/
def edSecret (cls : Nat) (seed : Bytes) : Nat × Bytes :=
  let h := edHash cls true seed
  if cls = 0 then (((leNat (h.take 32)) % 2 ^ 254 + 2 ^ 254) / 8 * 8, h.drop 32)
  else (((leNat (h.take 56)) % 2 ^ 447 + 2 ^ 447) / 4 * 4, h.drop 57)

/-- The public encoding of a seed. -/
def edPublic (cls : Nat) (seed : Bytes) : Bytes :=
  let c := edOf cls
  c.enc (c.mul (edSecret cls seed).1 (c.bx, c.byy))

/-- EdDSA signing. -/
def edSign (cls : Nat) (seed msg : Bytes) : Bytes :=
  let c := edOf cls
  let (s, pre) := edSecret cls seed
  let r := leNat (edHash cls false (pre ++ msg)) % c.l
  let rEnc := c.enc (c.mul r (c.bx, c.byy))
  let k := leNat (edHash cls false (rEnc ++ edPublic cls seed ++ msg)) % c.l
  rEnc ++ leBytes ((r + k * s) % c.l) c.len

/-- EdDSA verification with the cofactored equation (R162): none where the public key does not decode. -/
def edVerify (cls : Nat) (pub msg sig : Bytes) : Option Bool :=
  let c := edOf cls
  match c.dec pub with
  | none => none
  | some a => some <|
    let s := leNat (sig.drop c.len)
    match c.dec (sig.take c.len) with
    | none => false
    | some r =>
      if c.l ≤ s then false
      else
        let k := leNat (edHash cls false (sig.take c.len ++ pub ++ msg)) % c.l
        let cof := if cls = 0 then 8 else 4
        c.mul cof (c.mul s (c.bx, c.byy)) == c.mul cof (c.add r (c.mul k a))

end Sys2Proof.Machine
end

