-- ==== Sys2Proof/Machine/Lattice.lean ====
section
/-! DEFINITION. The lattice schemes of the tumblers, bit for bit as their standards give them (R2, R3, R145, R211, R212): ML-KEM (FIPS 203)
and ML-DSA (FIPS 204), from given seeds and random values. The spec names the standards and does not restate them (PRESUMED, log entry 21).
A polynomial is the list of its coefficients as residues, lowest degree first; the transforms are written as the evaluations they are. -/

namespace Sys2Proof.Machine

/-! ### Polynomials -/

/-- The low `k` bits of `i` in reverse order. -/
def bitRev : Nat → Nat → Nat
  | 0, _ => 0
  | k + 1, i => i % 2 * 2 ^ k + bitRev k (i / 2)

/-- The value of a polynomial at `x` modulo `q`. -/
def evalAt (q x : Nat) (f : List Nat) : Nat := f.foldr (fun c a => (c + x * a) % q) 0

/-- The transform of 2^k coefficients: the values at the odd powers of `root`, in bit-reversed order. -/
def ntt (q root k : Nat) (f : List Nat) : List Nat :=
  (List.range (2 ^ k)).map fun i => evalAt q (powMod root (2 * bitRev k i + 1) q) f

/-- The inverse of `ntt`. -/
def intt (q root k : Nat) (v : List Nat) : List Nat :=
  let n := 2 ^ k
  let g := (List.range n).map fun r => nth v (bitRev k r) 0
  let c := powMod n (q - 2) q
  (List.range n).map fun j =>
    let y := powMod root (2 * n - j) q
    c * y % q * evalAt q (y * y % q) g % q

/-- Sum of two coefficient lists. -/
def polyAdd (q : Nat) (a b : List Nat) : List Nat := List.zipWith (fun x y => (x + y) % q) a b

/-- Difference of two coefficient lists. -/
def polySub (q : Nat) (a b : List Nat) : List Nat := List.zipWith (fun x y => (x + q - y) % q) a b

/-- The inner product of two vectors of polynomials under a product of polynomials. -/
def polyDot (q : Nat) (mul : List Nat → List Nat → List Nat) (a b : List (List Nat)) : List Nat :=
  (List.zipWith mul a b).foldl (polyAdd q) (List.replicate 256 0)

/-- Packs coefficients of `d` bits, the first in the lowest bits. -/
def packBits (d : Nat) (f : List Nat) : Bytes := leBytes (f.foldr (fun c a => a * 2 ^ d + c) 0) (d * f.length / 8)

/-- The 256 coefficients of `d` bits in a byte string. -/
def unpackBits (d : Nat) (bs : Bytes) : List Nat :=
  let v := leNat bs
  (List.range 256).map fun i => v / 2 ^ (d * i) % 2 ^ d

/-- The bits of a byte string, least significant first. -/
def bitsOf (bs : Bytes) : List Nat := bs.flatMap fun b => (List.range 8).map fun i => b2n (b.toNat.testBit i)

/-- The pieces of `n` bytes of a byte string, `k` of them. -/
def chunks (n k : Nat) (bs : Bytes) : List Bytes := (List.range k).map fun i => slice bs (n * i) n

/-- The byte strings of a list in order. -/
def joinBytes (l : List Bytes) : Bytes := l.foldr (· ++ ·) []

/-! ### ML-KEM (FIPS 203) -/

/-- The modulus of ML-KEM. -/
abbrev kemQ : Nat := 3329

/-- k, η1, du and dv of a set; η2 is 2. -/
def kemParams (s : Nat) : Nat × Nat × Nat × Nat := nth [(2, 3, 10, 4), (3, 2, 10, 4), (4, 2, 11, 5)] s (4, 2, 11, 5)

/-- The transform of ML-KEM: the even and the odd coefficients at 128 points each, interleaved. -/
def kemNtt (f : List Nat) : List Nat :=
  let part (o : Nat) : List Nat := ntt kemQ 17 7 ((List.range 128).map fun i => nth f (2 * i + o) 0)
  (List.zipWith (fun a b => [a, b]) (part 0) (part 1)).flatten

/-- The inverse transform. -/
def kemIntt (v : List Nat) : List Nat :=
  let part (o : Nat) : List Nat := intt kemQ 17 7 ((List.range 128).map fun i => nth v (2 * i + o) 0)
  (List.zipWith (fun a b => [a, b]) (part 0) (part 1)).flatten

/-- Products of pairs modulo X² − ζ^(2 BitRev7(i) + 1), from pair `i` on. -/
def kemMulFrom (i : Nat) : List Nat → List Nat → List Nat
  | a0 :: a1 :: a, b0 :: b1 :: b =>
    (a0 * b0 + a1 * b1 % kemQ * powMod 17 (2 * bitRev 7 i + 1) kemQ) % kemQ :: (a0 * b1 + a1 * b0) % kemQ :: kemMulFrom (i + 1) a b
  | _, _ => []

/-- The product of two transformed polynomials. -/
def kemMul (a b : List Nat) : List Nat := kemMulFrom 0 a b

/-- Coefficients below q in a stream of 12-bit numbers. -/
def kemReject : Bytes → List Nat
  | a :: b :: c :: r =>
    let x := a.toNat + 256 * (b.toNat % 16)
    let y := b.toNat / 16 + 16 * c.toNat
    (if x < kemQ then [x] else []) ++ (if y < kemQ then [y] else []) ++ kemReject r
  | _ => []

/-- SampleNTT, over the 280 iterations that the standard allows a bound at. -/
def kemUniform (seed : Bytes) : List Nat := (kemReject (shake 8 seed 840)).take 256

/-- The centred binomial distribution over a bit string, `n` coefficients. -/
def kemCbd (eta : Nat) : Nat → List Nat → List Nat
  | 0, _ => []
  | n + 1, l => ((l.take eta).sum + kemQ - ((l.drop eta).take eta).sum) % kemQ :: kemCbd eta n (l.drop (2 * eta))

/-- A secret or error polynomial from a seed and a counter. -/
def kemNoise (eta : Nat) (seed : Bytes) (n : Nat) : List Nat :=
  kemCbd eta 256 (bitsOf (shake 9 (seed ++ [BitVec.ofNat 8 n]) (64 * eta)))

/-- Rounds residues to `d` bits. -/
def kemCompress (d : Nat) (f : List Nat) : List Nat := f.map fun x => (2 ^ (d + 1) * x + kemQ) / (2 * kemQ) % 2 ^ d

/-- The inverse of rounding, to the nearest residue. -/
def kemDecompress (d : Nat) (f : List Nat) : List Nat := f.map fun y => (2 * kemQ * y + 2 ^ d) / 2 ^ (d + 1)

/-- The matrix Â of a public seed, row by row. -/
def kemMatrix (k : Nat) (rho : Bytes) : List (List (List Nat)) :=
  (List.range k).map fun i => (List.range k).map fun j => kemUniform (rho ++ [BitVec.ofNat 8 j, BitVec.ofNat 8 i])

/-- ML-KEM.KeyGen_internal from d‖z: (ek, dk). -/
def mlkemKeygen (s : Nat) (seed : Bytes) : Bytes × Bytes :=
  let (k, eta, _, _) := kemParams s
  let g := hash 7 (seed.take 32 ++ [BitVec.ofNat 8 k])
  let rho := g.take 32
  let sv := (List.range k).map fun i => kemNtt (kemNoise eta (g.drop 32) i)
  let ev := (List.range k).map fun i => kemNtt (kemNoise eta (g.drop 32) (k + i))
  let t := List.zipWith (fun row e => polyAdd kemQ (polyDot kemQ kemMul row sv) e) (kemMatrix k rho) ev
  let ek := joinBytes (t.map (packBits 12)) ++ rho
  (ek, joinBytes (sv.map (packBits 12)) ++ ek ++ hash 5 ek ++ slice seed 32 32)

/-- K-PKE.Encrypt with message and randomness of 32 bytes. -/
def kemEncrypt (s : Nat) (ek m r : Bytes) : Bytes :=
  let (k, eta, du, dv) := kemParams s
  let t := (chunks 384 k ek).map fun b => (unpackBits 12 b).map (· % kemQ)
  let a := kemMatrix k (slice ek (384 * k) 32)
  let y := (List.range k).map fun i => kemNtt (kemNoise eta r i)
  let u := (List.range k).map fun i =>
    polyAdd kemQ (kemIntt (polyDot kemQ kemMul (a.map fun row => nth row i []) y)) (kemNoise 2 r (k + i))
  let v := polyAdd kemQ (polyAdd kemQ (kemIntt (polyDot kemQ kemMul t y)) (kemNoise 2 r (2 * k))) (kemDecompress 1 (unpackBits 1 m))
  joinBytes (u.map fun f => packBits du (kemCompress du f)) ++ packBits dv (kemCompress dv v)

/-- K-PKE.Decrypt: the 32-byte message. -/
def kemDecrypt (s : Nat) (dk c : Bytes) : Bytes :=
  let (k, _, du, dv) := kemParams s
  let u := (chunks (32 * du) k c).map fun b => kemNtt (kemDecompress du (unpackBits du b))
  let v := kemDecompress dv (unpackBits dv (slice c (32 * du * k) (32 * dv)))
  let sv := (chunks 384 k dk).map fun b => (unpackBits 12 b).map (· % kemQ)
  packBits 1 (kemCompress 1 (polySub kemQ v (kemIntt (polyDot kemQ kemMul sv u))))

/-- ML-KEM.Encaps_internal with ek and m: ciphertext and shared key; none where the modulus check fails (R211). -/
def mlkemEncaps (s : Nat) (ek m : Bytes) : Option (Bytes × Bytes) :=
  let k := (kemParams s).1
  if (chunks 384 k ek).all fun b => (unpackBits 12 b).all (· < kemQ) then
    let g := hash 7 (m ++ hash 5 ek)
    some (kemEncrypt s ek m (g.drop 32), g.take 32)
  else none

/-- ML-KEM.Decaps with dk and ciphertext: the shared key, that of implicit rejection where the ciphertext does not encrypt again to
itself; none where the hash check fails (R207, R211). -/
def mlkemDecaps (s : Nat) (dk c : Bytes) : Option Bytes :=
  let k := (kemParams s).1
  let ek := slice dk (384 * k) (384 * k + 32)
  let h := slice dk (768 * k + 32) 32
  if hash 5 ek = h then
    let m := kemDecrypt s (dk.take (384 * k)) c
    let g := hash 7 (m ++ h)
    some (if kemEncrypt s ek m (g.drop 32) = c then g.take 32 else shake 9 (slice dk (768 * k + 64) 32 ++ c) 32)
  else none

/-! ### ML-DSA (FIPS 204) -/

/-- The modulus of ML-DSA. -/
abbrev dsaQ : Nat := 8380417

/-- The parameters of an ML-DSA set; z has coefficients below 2^gamma1Log. -/
structure DsaParams where
  k : Nat
  l : Nat
  eta : Nat
  gamma1Log : Nat
  gamma2 : Nat
  tau : Nat
  omega : Nat
  /-- bytes of c̃ -/
  cLen : Nat
  deriving DecidableEq, Repr

/-- ML-DSA-44, -65 and -87. -/
def dsaParams (s : Nat) : DsaParams :=
  nth [⟨4, 4, 2, 17, 95232, 39, 80, 32⟩, ⟨6, 5, 4, 19, 261888, 49, 55, 48⟩, ⟨8, 7, 2, 19, 261888, 60, 75, 64⟩] s ⟨8, 7, 2, 19, 261888, 60, 75, 64⟩

/-- The bound β. -/
def DsaParams.beta (p : DsaParams) : Nat := p.tau * p.eta

/-- Bits of a coefficient of s1 and s2. -/
def DsaParams.etaBits (p : DsaParams) : Nat := if p.eta = 2 then 3 else 4

/-- Bits of a coefficient of w1. -/
def DsaParams.w1Bits (p : DsaParams) : Nat := if p.gamma2 = 95232 then 6 else 4

/-- The transform of ML-DSA. -/
def dsaNtt (f : List Nat) : List Nat := ntt dsaQ 1753 8 f
/-- Its inverse. -/
def dsaIntt (v : List Nat) : List Nat := intt dsaQ 1753 8 v
/-- The product of two transformed polynomials. -/
def dsaMul (a b : List Nat) : List Nat := List.zipWith (fun x y => x * y % dsaQ) a b

/-- The size of a residue: its distance from 0. -/
def dsaNorm (x : Nat) : Nat := min x (dsaQ - x)

/-- Every coefficient is smaller than a bound. -/
def allBelow (b : Nat) (v : List (List Nat)) : Bool := v.all fun f => f.all fun x => dsaNorm x < b

/-- BitPack of coefficients from −a to b: b minus the coefficient in `d` bits. -/
def dsaPack (d b : Nat) (f : List Nat) : Bytes := packBits d (f.map fun x => (b + dsaQ - x) % dsaQ)
/-- BitUnpack. -/
def dsaUnpack (d b : Nat) (bs : Bytes) : List Nat := (unpackBits d bs).map fun x => (b + dsaQ - x) % dsaQ

/-- Coefficients below q in a stream of 23-bit numbers. -/
def dsaReject : Bytes → List Nat
  | a :: b :: c :: r =>
    let x := a.toNat + 256 * b.toNat + 65536 * (c.toNat % 128)
    (if x < dsaQ then [x] else []) ++ dsaReject r
  | _ => []

/-- RejNTTPoly, over the 298 candidates that the standard allows a bound at. -/
def dsaUniform (seed : Bytes) : List Nat := (dsaReject (shake 8 seed 894)).take 256

/-- A coefficient of s1 or s2 from four bits, if they give one. -/
def dsaSmall (eta b : Nat) : List Nat :=
  if eta = 2 then (if b < 15 then [(dsaQ + 2 - b % 5) % dsaQ] else [])
  else if b < 9 then [(dsaQ + 4 - b) % dsaQ] else []

/-- RejBoundedPoly, over the 481 bytes that the standard allows a bound at. -/
def dsaBounded (eta : Nat) (seed : Bytes) : List Nat :=
  ((shake 9 seed 481).flatMap fun b => dsaSmall eta (b.toNat % 16) ++ dsaSmall eta (b.toNat / 16)).take 256

/-- The matrix Â of a public seed, row by row. -/
def dsaMatrix (p : DsaParams) (rho : Bytes) : List (List (List Nat)) :=
  (List.range p.k).map fun r => (List.range p.l).map fun s => dsaUniform (rho ++ [BitVec.ofNat 8 s, BitVec.ofNat 8 r])

/-- The rows of a matrix times a transformed vector, transformed back. -/
def dsaApply (a : List (List (List Nat))) (v : List (List Nat)) : List (List Nat) :=
  let vh := v.map dsaNtt
  a.map fun row => dsaIntt (polyDot dsaQ dsaMul row vh)

/-- Power2Round: the high part, and the low part of 13 bits as a residue. -/
def dsaPower2 (x : Nat) : Nat × Nat :=
  let h := (x + 4095) / 8192
  (h, (x + dsaQ - h * 8192) % dsaQ)

/-- Decompose: the high bits, and the low part as a residue. -/
def dsaDecompose (g2 x : Nat) : Nat × Nat :=
  let h := (x + g2 - 1) / (2 * g2)
  if h * (2 * g2) = dsaQ - 1 then (0, (x + dsaQ - (dsaQ - 1) + dsaQ - 1) % dsaQ) else (h, (x + dsaQ - h * (2 * g2)) % dsaQ)

/-- UseHint. -/
def dsaUseHint (g2 : Nat) (h : Nat) (x : Nat) : Nat :=
  let m := (dsaQ - 1) / (2 * g2)
  let (r1, r0) := dsaDecompose g2 x
  if h = 0 then r1 else if r0 ≠ 0 ∧ r0 ≤ g2 then (r1 + 1) % m else (r1 + m - 1) % m

/-- The places of SampleInBall from position `i` on, over a byte stream: a byte above `i` is passed over. -/
def dsaBallFrom (signs : Nat) : Nat → Nat → Nat → Bytes → List Nat → List Nat
  | 0, _, _, _, c => c
  | _, _, _, [], c => c
  | n + 1, i, t, b :: r, c =>
    if i < 256 then
      if b.toNat ≤ i then
        dsaBallFrom signs n (i + 1) (t + 1) r ((c.set i (nth c b.toNat 0)).set b.toNat (if signs.testBit t then dsaQ - 1 else 1))
      else dsaBallFrom signs n i t r c
    else c

/-- SampleInBall: τ coefficients 1 or −1. -/
def dsaBall (p : DsaParams) (seed : Bytes) : List Nat :=
  let s := shake 9 seed 1024
  dsaBallFrom (leNat (s.take 8)) 1024 (256 - p.tau) 0 (s.drop 8) (List.replicate 256 0)

/-- Rising numbers. -/
def rising : List Nat → Bool
  | a :: b :: r => a < b && rising (b :: r)
  | _ => true

/-- HintBitUnpack; none where the encoding is malformed. -/
def dsaUnpackHint (p : DsaParams) (y : Bytes) : Option (List (List Nat)) :=
  let v := y.map BitVec.toNat
  let ends := v.drop p.omega
  let starts := 0 :: ends
  let rows := List.zipWith (fun a b => (v.drop a).take (b - a)) starts ends
  if (List.zipWith (fun a b => a ≤ b && b ≤ p.omega) starts ends).all id && rows.all rising &&
      ((v.take p.omega).drop (ends.getLastD 0)).all (· == 0) then
    some (rows.map fun r => r.foldl (fun f i => f.set i 1) (List.replicate 256 0))
  else none

/-- ML-DSA.KeyGen_internal from ξ: (pk, sk). -/
def mldsaKeygen (s : Nat) (xi : Bytes) : Bytes × Bytes :=
  let p := dsaParams s
  let g := shake 9 (xi ++ [BitVec.ofNat 8 p.k, BitVec.ofNat 8 p.l]) 128
  let rho := g.take 32
  let small (i : Nat) : List Nat := dsaBounded p.eta (slice g 32 64 ++ leBytes i 2)
  let s1 := (List.range p.l).map small
  let s2 := (List.range p.k).map fun i => small (p.l + i)
  let t := List.zipWith (polyAdd dsaQ) (dsaApply (dsaMatrix p rho) s1) s2
  let pk := rho ++ joinBytes (t.map fun f => packBits 10 (f.map fun x => (dsaPower2 x).1))
  (pk, rho ++ g.drop 96 ++ shake 9 pk 64 ++ joinBytes (s1.map (dsaPack p.etaBits p.eta)) ++ joinBytes (s2.map (dsaPack p.etaBits p.eta)) ++
    joinBytes (t.map fun f => dsaPack 13 4096 (f.map fun x => (dsaPower2 x).2)))

/-- The message that is signed: context and message, or with PREHASH the context and what the cell holds after it (R147, R212). -/
def signedMessage (prehash : Bool) (ctx msg : Bytes) : Bytes := [BitVec.ofNat 8 (b2n prehash), BitVec.ofNat 8 ctx.length] ++ ctx ++ msg

/-- c̃ of a commitment. -/
def dsaChallenge (p : DsaParams) (mu : Bytes) (w1 : List (List Nat)) : Bytes := shake 9 (mu ++ joinBytes (w1.map (packBits p.w1Bits))) p.cLen

/-- ML-DSA verification with pk, PREHASH, context, message and signature (R212). -/
def mldsaVerify (s : Nat) (pk : Bytes) (prehash : Bool) (ctx msg sig : Bytes) : Bool :=
  let p := dsaParams s
  let gb := p.gamma1Log + 1
  let ct := sig.take p.cLen
  let z := (chunks (32 * gb) p.l (sig.drop p.cLen)).map (dsaUnpack gb (2 ^ p.gamma1Log))
  match dsaUnpackHint p (sig.drop (p.cLen + 32 * gb * p.l)) with
  | none => false
  | some h =>
    let t1 := (chunks 320 p.k (pk.drop 32)).map fun b => (unpackBits 10 b).map (· * 8192 % dsaQ)
    let mu := shake 9 (shake 9 pk 64 ++ signedMessage prehash ctx msg) 64
    let ch := dsaNtt (dsaBall p ct)
    let zh := z.map dsaNtt
    let w := List.zipWith (fun row t => dsaIntt (polySub dsaQ (polyDot dsaQ dsaMul row zh) (dsaMul ch (dsaNtt t)))) (dsaMatrix p (pk.take 32)) t1
    let w1 := List.zipWith (List.zipWith (dsaUseHint p.gamma2)) h w
    allBelow (2 ^ p.gamma1Log - p.beta) z && dsaChallenge p mu w1 == ct

end Sys2Proof.Machine
end

