-- ==== Sys2Proof/Machine/Shares.lean ====
section
/-! DEFINITION. Second-order masking (R203, R205, R210): values in three shares, fresh randomness from a mask generator, refresh, the
multiplication and conversion gadgets, bit-sliced arithmetic on Boolean shares, and the masked barrels. The gadgets are those of the
probing model; the spec names them and gives no formulas (PRESUMED, log entry 84). Each computes on its shares what the plain operation
computes on the values, whatever the masks are. -/

namespace Sys2Proof.Machine

/-! ### Shares and fresh randomness -/

/-- Where masks come from: the generator's words by number, and the next one (R209). -/
structure MaskSource where
  word : Nat → Nat
  next : Nat

/-- A computation that draws masks. -/
abbrev Draws := StateM MaskSource

/-- One fresh word below `bound`. -/
def drawBelow (bound : Nat) : Draws Nat := fun s => (s.word s.next % bound, { s with next := s.next + 1 })

/-- Fresh words below `bound`, `n` of them. -/
def drawList (bound : Nat) : Nat → Draws (List Nat)
  | 0 => pure []
  | n + 1 => do
    let a ← drawBelow bound
    let r ← drawList bound n
    pure (a :: r)

/-- `n` fresh bytes. -/
def drawMask (n : Nat) : Draws Bytes := do pure (leBytes (← drawBelow (2 ^ (8 * n))) n)

/-- The images of a list in order. -/
def eachOf {α β : Type} (f : α → Draws β) : List α → Draws (List β)
  | [] => pure []
  | a :: r => do
    let b ← f a
    let bs ← eachOf f r
    pure (b :: bs)

/-- Each share alone: a linear operation. -/
def Sh.map {α β : Type} (f : α → β) (x : Sh α) : Sh β := ⟨f x.s0, f x.s1, f x.s2⟩

/-- Two sharings share by share. -/
def Sh.zip {α β γ : Type} (f : α → β → γ) (x : Sh α) (y : Sh β) : Sh γ := ⟨f x.s0 y.s0, f x.s1 y.s1, f x.s2 y.s2⟩

/-- The sharings of a list, as one sharing of lists. -/
def Sh.list {α : Type} (l : List (Sh α)) : Sh (List α) := ⟨l.map Sh.s0, l.map Sh.s1, l.map Sh.s2⟩

/-! ### Boolean shares of `n` bits as numbers -/

/-- The value (R203). -/
def Sh.bits (x : Sh Nat) : Nat := (x.s0.xor x.s1).xor x.s2

/-- A public value on one share (R204). -/
def Sh.ofNat (v : Nat) : Sh Nat := ⟨v, 0, 0⟩

/-- A refresh (R205): random values whose exclusive-or is zero. -/
def shRefresh (n : Nat) (x : Sh Nat) : Draws (Sh Nat) := do
  let a ← drawBelow (2 ^ n)
  let b ← drawBelow (2 ^ n)
  pure ⟨(x.s0.xor a).xor b, x.s1.xor a, x.s2.xor b⟩

/-- Exclusive-or. -/
def shXor (x y : Sh Nat) : Sh Nat := x.zip Nat.xor y

/-- Complement. -/
def shNot (n : Nat) (x : Sh Nat) : Sh Nat := { x with s0 := x.s0.xor (2 ^ n - 1) }

/-- The multiplication gadget: the product of two shared words, a fresh value for each partial product (R203). -/
def shAnd (n : Nat) (x y : Sh Nat) : Draws (Sh Nat) := do
  let r01 ← drawBelow (2 ^ n)
  let r02 ← drawBelow (2 ^ n)
  let r12 ← drawBelow (2 ^ n)
  let p (a b : Nat) : Nat := a.land b
  pure ⟨((p x.s0 y.s0).xor r01).xor r02,
        (((r01.xor (p x.s0 y.s1)).xor (p x.s1 y.s0)).xor (p x.s1 y.s1)).xor r12,
        (((r02.xor (p x.s0 y.s2)).xor (p x.s2 y.s0)).xor ((r12.xor (p x.s1 y.s2)).xor (p x.s2 y.s1))).xor (p x.s2 y.s2)⟩

/-- Disjunction. -/
def shOr (n : Nat) (x y : Sh Nat) : Draws (Sh Nat) := do pure (shNot n (← shAnd n (shNot n x) (shNot n y)))

/-- Selection: `x` where `c` is one, else `y`. -/
def shMux (n : Nat) (c x y : Sh Nat) : Draws (Sh Nat) := do pure (shXor y (← shAnd n c (shXor x y)))

/-- A shared bit repeated over `n` places. -/
def shSpread (n : Nat) (b : Sh Nat) : Sh Nat := b.map fun v => v % 2 * (2 ^ n - 1)

/-- The conjunction of `n` shared bits, by halves. -/
def shAll : Nat → Nat → Sh Nat → Draws (Sh Nat)
  | 0, _, x => pure x
  | k + 1, n, x =>
    if n ≤ 1 then pure (x.map (· % 2))
    else do
      let h := (n + 1) / 2
      let hi := x.map (· / 2 ^ h)
      let y ← shAnd h (x.map (· % 2 ^ h)) (if n % 2 = 1 then { hi with s0 := hi.s0 + 2 ^ (h - 1) } else hi)
      shAll k h y

/-! ### Bit-sliced words: plane i holds bit i of every element -/

/-- The planes of a list of numbers, `w` bits each. -/
def planesOf (w : Nat) (l : List Nat) : List Nat :=
  (List.range w).map fun i => l.foldr (fun v a => 2 * a + v / 2 ^ i % 2) 0

/-- The list of `n` numbers that planes hold. -/
def ofPlanes (n : Nat) (ps : List Nat) : List Nat :=
  (List.range n).map fun j => ps.foldr (fun p a => 2 * a + p / 2 ^ j % 2) 0

/-- The planes of public numbers. -/
def pubPlanes (w : Nat) (l : List Nat) : List (Sh Nat) := (planesOf w l).map Sh.ofNat

/-- The sum of two words of `n` elements with a carry; the carry out is dropped. -/
def shAdd (n : Nat) : Sh Nat → List (Sh Nat) → List (Sh Nat) → Draws (List (Sh Nat))
  | c, x :: xs, y :: ys => do
    let xy := shXor x y
    let g ← shAnd n x y
    let p ← shAnd n c xy
    let r ← shAdd n (shXor g p) xs ys
    pure (shXor xy c :: r)
  | _, _, _ => pure []

/-- A word minus public numbers, as wide as the word: the sum with their complement and one. -/
def shSubPub (n : Nat) (x : List (Sh Nat)) (k : List Nat) : Draws (List (Sh Nat)) :=
  shAdd n (Sh.ofNat (2 ^ n - 1)) x ((planesOf x.length k).map fun p => Sh.ofNat (p.xor (2 ^ n - 1)))

/-- Selection between words. -/
def shMuxWord (n : Nat) (c : Sh Nat) (x y : List (Sh Nat)) : Draws (List (Sh Nat)) :=
  eachOf (fun e : Sh Nat × Sh Nat => shMux n c e.1 e.2) (x.zip y)

/-- Where the words, of one bit more than their values and the numbers need, are below public numbers. -/
def shBelow (n : Nat) (x : List (Sh Nat)) (k : List Nat) : Draws (Sh Nat) := do
  let d ← shSubPub n x k
  pure (d.getLastD (Sh.ofNat 0))

/-- One step of a division: subtracts public numbers where they fit; the word and the quotient bit. -/
def shReduce (n : Nat) (x : List (Sh Nat)) (k : List Nat) : Draws (List (Sh Nat) × Sh Nat) := do
  let d ← shSubPub n x k
  let neg := d.getLastD (Sh.ofNat 0)
  let r ← shMuxWord n neg x d
  pure (r, shNot n neg)

/-- Division by public numbers: remainder and quotient bits, most significant first; the quotient is below 2^steps. -/
def shDivide (n : Nat) (k : List Nat) : Nat → List (Sh Nat) → Draws (List (Sh Nat) × List (Sh Nat))
  | 0, x => pure (x, [])
  | s + 1, x => do
    let (x', b) ← shReduce n x (k.map (· * 2 ^ s))
    let (r, q) ← shDivide n k s x'
    pure (r, b :: q)

/-! ### Arithmetic shares modulo q -/

/-- The value of a polynomial in arithmetic shares (R203). -/
def Sh.coeffs (q : Nat) (x : Sh (List Nat)) : List Nat := List.zipWith (fun a b => (a + b) % q) (List.zipWith (fun a b => (a + b) % q) x.s0 x.s1) x.s2

/-- A public polynomial on one share (R204). -/
def Sh.ofPoly (f : List Nat) : Sh (List Nat) := ⟨f, List.replicate f.length 0, List.replicate f.length 0⟩

/-- Shares of plain coefficients with fresh randomness (R205). -/
def polySplit (q : Nat) (f : List Nat) : Draws (Sh (List Nat)) := do
  let a ← drawList q f.length
  let b ← drawList q f.length
  pure ⟨List.zipWith (fun x r => (x + 2 * q - r) % q) f (List.zipWith (· + ·) a b), a, b⟩

/-- A refresh of arithmetic shares (R205): random values whose sum is zero. -/
def polyRefresh (q : Nat) (x : Sh (List Nat)) : Draws (Sh (List Nat)) := do
  let a ← drawList q x.s0.length
  let b ← drawList q x.s0.length
  let add := List.zipWith fun x y => (x + y) % q
  pure ⟨List.zipWith (fun x r => (x + 2 * q - r) % q) x.s0 (List.zipWith (· + ·) a b), add x.s1 a, add x.s2 b⟩

/-- The multiplication gadget modulo q, coefficient by coefficient (R203). -/
def polyTimes (q : Nat) (x y : Sh (List Nat)) : Draws (Sh (List Nat)) := do
  let n := x.s0.length
  let r01 ← drawList q n
  let r02 ← drawList q n
  let r12 ← drawList q n
  let mul := List.zipWith fun a b => a * b % q
  let add := List.zipWith fun a b => (a + b) % q
  let sub := List.zipWith fun a b => (a + q - b) % q
  pure ⟨add (add (mul x.s0 y.s0) r01) r02,
        add (sub (add (add (mul x.s0 y.s1) (mul x.s1 y.s0)) (mul x.s1 y.s1)) r01) r12,
        sub (sub (add (add (add (mul x.s0 y.s2) (mul x.s2 y.s0)) (add (mul x.s1 y.s2) (mul x.s2 y.s1))) (mul x.s2 y.s2)) r02) r12⟩

/-- The sum of sharings modulo q. -/
def polyPlus (q : Nat) (x y : Sh (List Nat)) : Sh (List Nat) := x.zip (List.zipWith fun a b => (a + b) % q) y

/-- The difference of sharings modulo q. -/
def polyMinus (q : Nat) (x y : Sh (List Nat)) : Sh (List Nat) := x.zip (List.zipWith fun a b => (a + q - b) % q) y

/-- A sharing times a public number. -/
def polyScale (q c : Nat) (x : Sh (List Nat)) : Sh (List Nat) := x.map (List.map fun a => a * c % q)

/-- The public number `c` added to every coefficient. -/
def polyShift (q c : Nat) (x : Sh (List Nat)) : Sh (List Nat) := { x with s0 := x.s0.map fun a => (a + c) % q }

/-! ### Conversions (R203) -/

/-- Boolean to arithmetic, one bit an element: a ⊕ b = a + b − 2ab, twice. -/
def bitToArith (q n : Nat) (x : Sh Nat) : Draws (Sh (List Nat)) := do
  let z := List.replicate n 0
  let l (v : Nat) : List Nat := (List.range n).map fun j => v / 2 ^ j % 2
  let xor (a b : Sh (List Nat)) : Draws (Sh (List Nat)) := do
    let p ← polyTimes q a b
    pure (polyMinus q (polyPlus q a b) (polyScale q 2 p))
  let ab ← xor ⟨l x.s0, z, z⟩ ⟨z, l x.s1, z⟩
  xor ab ⟨z, z, l x.s2⟩

/-- Boolean to arithmetic, planes of a word. -/
def boolToArith (q n : Nat) (ps : List (Sh Nat)) : Draws (Sh (List Nat)) := do
  let bits ← eachOf (bitToArith q n) ps
  pure (bits.foldr (fun b a => polyPlus q (polyScale q 2 a) b) (Sh.ofPoly (List.replicate n 0)))

/-- The sum of two words below q, modulo q; both have one bit more than q. -/
def shAddMod (q n : Nat) (x y : List (Sh Nat)) : Draws (List (Sh Nat)) := do
  let s ← shAdd n (Sh.ofNat 0) x y
  let (r, _) ← shReduce n s (List.replicate n q)
  pure r

/-- Arithmetic to Boolean: the planes of the value, of one bit more than q. -/
def arithToBool (q : Nat) (x : Sh (List Nat)) : Draws (List (Sh Nat)) := do
  let n := x.s0.length
  let w := q.log2 + 2
  let a ← eachOf (shRefresh n) (pubPlanes w x.s0)
  let b ← eachOf (shRefresh n) (pubPlanes w x.s1)
  let c ← eachOf (shRefresh n) (pubPlanes w x.s2)
  shAddMod q n (← shAddMod q n a b) c

/-! ### Byte strings -/

/-- The value of a byte string in Boolean shares (R203). -/
def Sh.bytes (x : Sh Bytes) : Bytes := xorBytes (xorBytes x.s0 x.s1) x.s2

/-- A public byte string on one share (R204). -/
def Sh.ofBytes (b : Bytes) : Sh Bytes := ⟨b, zeros b.length, zeros b.length⟩

/-- Shares of plain bytes with fresh randomness (R205). -/
def bytesSplit (b : Bytes) : Draws (Sh Bytes) := do
  let r ← drawMask b.length
  let t ← drawMask b.length
  pure ⟨xorBytes (xorBytes b r) t, r, t⟩

/-- A refresh (R205). -/
def bytesRefresh (x : Sh Bytes) : Draws (Sh Bytes) := do
  let r ← drawMask x.s0.length
  let t ← drawMask x.s0.length
  pure ⟨xorBytes (xorBytes x.s0 r) t, xorBytes x.s1 r, xorBytes x.s2 t⟩

/-- One string after another. -/
def Sh.append (x y : Sh Bytes) : Sh Bytes := x.zip (· ++ ·) y

/-- The bytes from an offset. -/
def Sh.slice (x : Sh Bytes) (off len : Nat) : Sh Bytes := x.map fun b => Machine.slice b off len

/-- The whole string as one number of Boolean shares. -/
def Sh.number (x : Sh Bytes) : Sh Nat := x.map leNat

/-- Every `stride`-th bit from bit `off` on, `n` of them: one plane. -/
def Sh.plane (x : Sh Bytes) (n stride off : Nat) : Sh Nat :=
  x.map fun b => let v := leNat b; (List.range n).foldr (fun j a => 2 * a + v / 2 ^ (stride * j + off) % 2) 0

/-- One bit of a shared number. -/
def Sh.bit (x : Sh Nat) (i : Nat) : Sh Nat := x.map fun v => v / 2 ^ i % 2

/-- The planes of `n` packed numbers of `d` bits. -/
def Sh.planes (x : Sh Bytes) (n d : Nat) : List (Sh Nat) := (List.range d).map (x.plane n d)

/-- Numbers of `d` planes packed, `n` of them. -/
def packPlanes (n : Nat) (ps : List (Sh Nat)) : Sh Bytes :=
  (Sh.list ps).map fun l => leBytes ((ofPlanes n l).foldr (fun c a => a * 2 ^ ps.length + c) 0) (ps.length * n / 8)

/-! ### Masked barrels (R210) -/

/-- χ on three shares: masked products with fresh randomness in every round. -/
def chiShares (x : Sh (List Nat)) : Draws (Sh (List Nat)) := do
  let lane (i : Nat) : Sh Nat := x.map fun a => nth a i 0
  let out ← eachOf (fun i => do
    let row := 5 * (i / 5)
    let far := lane (row + (i + 2) % 5)
    let p ← shAnd 64 (lane (row + (i + 1) % 5)) far
    pure (shXor (lane i) (shXor far p))) (List.range 25)
  pure (Sh.list out)

/-- The rounds of Keccak-f[1600] on three shares: θ, ρ and π on each, χ masked, ι on one. -/
def keccakShares : List Nat → Sh (List Nat) → Draws (Sh (List Nat))
  | [], a => pure a
  | rc :: r, a => do
    let b ← chiShares (a.map keccakLinear)
    keccakShares r { b with s0 := keccakIota rc b.s0 }

/-- One permutation of a shared state of 200 bytes. -/
def permuteShares (st : Sh Bytes) : Draws (Sh Bytes) := do
  let a ← keccakShares keccakRc (st.map fun b => (pieces 8 (fit 200 b)).map leNat)
  pure (a.map fun l => l.foldr (fun v r => leBytes v 8 ++ r) [])

/-- Absorbs `k` rate blocks. -/
def absorbShares (rate : Nat) : Nat → Sh Bytes → Sh Bytes → Draws (Sh Bytes)
  | 0, st, _ => pure st
  | k + 1, st, m => do
    let s ← permuteShares (st.zip (fun a b => xorBytes a (fit 200 (b.take rate))) m)
    absorbShares rate k s (m.map (List.drop rate))

/-- Squeezes `n` bytes over at most `k` blocks more. -/
def squeezeShares (rate : Nat) : Nat → Sh Bytes → Nat → Draws (Sh Bytes)
  | 0, st, n => pure (st.slice 0 (min rate n))
  | k + 1, st, n =>
    if n ≤ rate then pure (st.slice 0 n)
    else do
      let s ← permuteShares st
      let r ← squeezeShares rate k s (n - rate)
      pure ((st.slice 0 rate).append r)

/-- A Keccak hash of a shared message, `n` bytes of output, by algorithm code 4 to 9. -/
def hashShares (alg : Nat) (m : Sh Bytes) (n : Nat) : Draws (Sh Bytes) := do
  let rate := keccakRate alg
  let p := m.append (Sh.ofBytes (algPad alg m.s0.length 0))
  let st ← absorbShares rate (p.s0.length / rate) (Sh.ofBytes (zeros 200)) p
  squeezeShares rate (n / rate) st n

end Sys2Proof.Machine
end

