-- ==== Sys2Proof/Machine/Goppa.lean ====
section
/-! DEFINITION. Classic McEliece, the five sets of R230 with the round-4 encodings (R2, R3, R230, R231, R234): key generation attempt by
attempt from a seed, encoding, decoding. The spec names the specification and does not restate it (PRESUMED, log entry 6). A bit string is
a number, its first bit lowest; a polynomial over the field is the list of its coefficients, lowest degree first. -/

namespace Sys2Proof.Machine

/-! ### The field GF(2^m) -/

/-- m, n, t and the terms below y^t of F(y), as exponent and coefficient (R230). -/
def mceParams (s : Nat) : Nat × Nat × Nat × List (Nat × Nat) :=
  nth [(12, 3488, 64, [(3, 1), (1, 1), (0, 2)]), (13, 4608, 96, [(10, 1), (9, 1), (6, 1), (0, 1)]),
       (13, 6688, 128, [(7, 1), (2, 1), (1, 1), (0, 1)]), (13, 6960, 119, [(8, 1), (0, 1)]),
       (13, 8192, 128, [(7, 1), (2, 1), (1, 1), (0, 1)])] s (13, 8192, 128, [(7, 1), (2, 1), (1, 1), (0, 1)])

/-- The reduction polynomial of GF(2^m): z^12 + z^3 + 1, z^13 + z^4 + z^3 + z + 1 (R221), x^8 + x^4 + x^3 + x^2 + 1 (R220). -/
def gfPoly (m : Nat) : Nat := if m = 12 then 0x1009 else if m = 8 then 0x11D else 0x201B

/-- The product in GF(2^m). -/
def gfMul (m a b : Nat) : Nat :=
  let f := gfPoly m
  (List.range m).foldl (fun acc i =>
    let x := if (2 * acc).testBit m then (2 * acc).xor f else 2 * acc
    if b.testBit (m - 1 - i) then x.xor a else x) 0

/-- The inverse in GF(2^m), a^(2^m − 2): 0 for 0. -/
def gfInv (m a : Nat) : Nat := (List.range (m - 1)).foldl (fun (p : Nat × Nat) _ => let s := gfMul m p.1 p.1; (s, gfMul m p.2 s)) (a, 1) |>.2

/-- The value of a polynomial. -/
def gfEval (m x : Nat) (f : List Nat) : Nat := f.foldr (fun c a => c.xor (gfMul m x a)) 0

/-- A row plus `c` times another. -/
def gfAddMul (m c : Nat) (a b : List Nat) : List Nat := List.zipWith (fun x y => x.xor (gfMul m c y)) a b

/-- One column of an elimination over the field: none where no pivot is left. -/
def gfPivot (m : Nat) (rows : List (List Nat)) (c : Nat) : Option (List (List Nat)) :=
  ((rows.drop c).findIdx? fun r => nth r c 0 != 0).map fun k =>
    let p := nth rows (c + k) []
    let p := p.map (gfMul m (gfInv m (nth p c 0)))
    ((rows.set (c + k) (nth rows c [])).zipIdx).map fun e => if e.2 = c then p else gfAddMul m (nth e.1 c 0) e.1 p

/-- The product of two elements of GF(2^m)[y] / F(y). -/
def extMul (m t : Nat) (tail : List (Nat × Nat)) (a b : List Nat) : List Nat :=
  a.foldr (fun c acc =>
    let top := nth acc (t - 1) 0
    let sh := 0 :: acc.take (t - 1)
    let red := tail.foldl (fun l e => l.set e.1 ((nth l e.1 0).xor (gfMul m top e.2))) sh
    gfAddMul m c red b) (List.replicate t 0)

/-- The minimal polynomial of an element of the extension, without its leading 1; none where its degree is below t. -/
def minPoly (m t : Nat) (tail : List (Nat × Nat)) (beta : List Nat) : Option (List Nat) :=
  let one := 1 :: List.replicate (t - 1) 0
  let powers := (List.range t).foldl (fun l _ => l ++ [extMul m t tail (l.getLastD one) beta]) [one]
  let rows := (List.range t).map fun r => powers.map fun p => nth p r 0
  ((List.range t).foldlM (gfPivot m) rows).map fun rs => rs.map fun r => nth r t 0

/-! ### Control bits of a permutation -/

/-- The second components in the order of the first (keys are distinct). -/
def composeInv (c pi : List Nat) : List Nat :=
  let a := (pi.zip c).foldl (fun (a : Array Nat) e => a.set! e.1 e.2) (Array.replicate pi.length 0)
  a.toList

/-- The control bits of a permutation of 2^m points for a Beneš network, in the order of its layers. -/
def controlBits : Nat → List Nat → List Nat
  | 0, _ => []
  | 1, pi => [nth pi 0 0]
  | m + 2, pi =>
    let n := pi.length
    let arr := pi.toArray
    let p0 := (List.range n).map fun x => arr.getD (x.xor 1) 0
    let q0 := pi.map fun x => x.xor 1
    let piInv := composeInv (List.range n) pi
    let p1 := composeInv p0 q0
    let q1 := composeInv q0 p0
    let c0 := p1.zipIdx.map fun e => min e.2 e.1
    let st := (List.range m).foldl (fun (s : List Nat × List Nat × List Nat) _ =>
        let (c, p, q) := s
        (List.zipWith min c (composeInv c q), composeInv p q, composeInv q p)) (c0, composeInv p1 q1, composeInv q1 p1)
    let evens (l : List Nat) : List Nat := (l.zipIdx.filter fun e => e.2 % 2 = 0).map Prod.fst
    let odds (l : List Nat) : List Nat := (l.zipIdx.filter fun e => e.2 % 2 = 1).map Prod.fst
    let f := (evens st.1).map (· % 2)
    let flip (l : List Nat) : List Nat := let a := l.toArray; (List.range n).map fun x => x.xor (a.getD (x / 2) 0)
    let fpi := composeInv (flip f) piInv
    let l := (evens fpi).map (· % 2)
    let mm := composeInv fpi (flip l)
    let z0 := controlBits (m + 1) ((evens mm).map (· / 2))
    let z1 := controlBits (m + 1) ((odds mm).map (· / 2))
    f ++ (List.zipWith (fun a b => [a, b]) z0 z1).flatten ++ l

/-- One layer of a Beneš network over 2^m values: swaps at distance `gap` under the bits of the layer. -/
def benesLayer (gap : Nat) (bits : List Nat) (v : Array Nat) : Array Nat :=
  bits.zipIdx.foldl (fun v e =>
    let i := e.2 % gap + 2 * gap * (e.2 / gap)
    if e.1 = 1 then v.swapIfInBounds i (i + gap) else v) v

/-- The support that control bits give: the field elements in their order. -/
def mceSupport (m : Nat) (bits : List Nat) : List Nat :=
  let h := 2 ^ (m - 1)
  ((List.range (2 * m - 1)).foldl (fun v i => benesLayer (2 ^ min i (2 * m - 2 - i)) ((bits.drop (h * i)).take h) v)
    ((List.range (2 ^ m)).map (bitRev m)).toArray).toList

/-! ### Key generation (R234) -/

/-- One column of the elimination of the parity-check matrix: none where the left block is singular. -/
def rowPivot (rows : List Nat) (c : Nat) : Option (List Nat) :=
  ((rows.drop c).findIdx? fun r => r.testBit c).map fun k =>
    let p := nth rows (c + k) 0
    ((rows.set (c + k) (nth rows c 0)).zipIdx).map fun e => if e.2 = c then p else if e.1.testBit c then e.1.xor p else e.1

/-- The rows of the parity-check matrix of g over a support, bit by bit. -/
def mceMatrix (m t : Nat) (g support : List Nat) : List Nat :=
  let cols := support.map fun a =>
    let d := gfInv m (gfEval m a (g ++ [1]))
    ((List.range (t - 1)).foldl (fun (l : List Nat) _ => gfMul m a (l.headD 0) :: l) [d]).reverse
  ((List.range t).map fun i => (List.range m).map fun b =>
    cols.foldr (fun col r => 2 * r + b2n ((nth col i 0).testBit b)) 0).flatten

/-- A hash over a secret: on the masked barrels, its input split and its output recombined (R225). -/
def secretHash (msg : Bytes) (n : Nat) : Draws Bytes := do pure (← hashShares 9 (← bytesSplit msg) n).bytes

/-- The random string of an attempt, and the seed of the next one in its last 32 bytes. -/
def mceExpand (s : Nat) (seed : Bytes) : Draws Bytes :=
  let (m, n, t, _) := mceParams s
  secretHash (64 :: seed) (n / 8 + 4 * 2 ^ m + 2 * t + 32)

/-- The order of 2^m numbers: their indices sorted by value; none where two are equal. -/
def mceOrder (v : List Nat) : Option (List Nat) :=
  let l := (v.zipIdx).mergeSort fun a b => a.1 ≤ b.1
  if (List.zipWith (fun (a b : Nat × Nat) => a.1 == b.1) l l.tail).any id then none else some (l.map Prod.snd)

/-- One attempt of key generation from its random string: (pk, sk), or none where it is rejected (R234). -/
def mceAttempt (s : Nat) (delta e : Bytes) : Option (Bytes × Bytes) :=
  let (m, n, t, tail) := mceParams s
  let order := slice e (n / 8) (4 * 2 ^ m)
  let beta := slice e (n / 8 + 4 * 2 ^ m) (2 * t)
  match mceOrder ((chunks 4 (2 ^ m) order).map leNat), minPoly m t tail ((chunks 2 t beta).map fun b => leNat b % 2 ^ m) with
  | some pi, some g =>
    let rows := mceMatrix m t g ((pi.take n).map (bitRev m))
    ((List.range (m * t)).foldlM rowPivot rows).map fun rs =>
      (joinBytes (rs.map fun r => leBytes (r / 2 ^ (m * t)) (ceilDiv (n - m * t) 8)),
       delta ++ leBytes (2 ^ 32 - 1) 8 ++ joinBytes (g.map fun c => leBytes c 2) ++ packBits 1 (controlBits m pi) ++ e.take (n / 8))
  | _, _ => none

/-- Key generation from a seed, attempt by attempt, at most `n` of them, each from the seed that the one before leaves (R234): the attempts
run and the key pair. -/
def mceKeygen (s : Nat) : Nat → Nat → Bytes → Draws (Nat × Option (Bytes × Bytes))
  | 0, k, _ => pure (k, none)
  | n + 1, k, delta => do
    let e ← mceExpand s delta
    match mceAttempt s delta e with
    | some r => pure (k + 1, some r)
    | none => mceKeygen s n (k + 1) (e.drop (e.length - 32))

/-! ### Encapsulation and decapsulation -/

/-- The syndrome of an error vector under the systematic public key. -/
def mceEncode (s : Nat) (pk : Bytes) (e : Nat) : Nat :=
  let (m, n, t, _) := mceParams s
  let w := ceilDiv (n - m * t) 8
  let hi := e / 2 ^ (m * t)
  (e % 2 ^ (m * t)).xor ((chunks w (m * t) pk).foldr (fun b c => 2 * c + b2n (parity ((leNat b).land hi) (n - m * t))) 0)

/-- The error vector of weight t from a string of random bytes, the sampler of the specification: of 16 bits each, the low m are a position;
the first t positions below n are taken, and the next bytes are tried where there are fewer or one repeats. -/
def mceWeight (n m t tau : Nat) : Nat → Bytes → Nat
  | 0, _ => 0
  | k + 1, bs =>
    let a := (((chunks 2 tau bs).map fun b => leNat b % 2 ^ m).filter (· < n)).take t
    let e := a.foldl (fun e i => e.lor (2 ^ i)) 0
    if popcount e n = t then e else mceWeight n m t tau k (bs.drop (2 * tau))

/-- The error vector of MCE.ENCAPS from 32 random bytes, expanded as a key generation seed is, 128 tries at most (PRESUMED, log entry 6). -/
def mceError (s : Nat) (rnd : Bytes) : Draws Nat := do
  let (m, n, t, _) := mceParams s
  let tau := if n = 2 ^ m then t else 2 * t
  pure (mceWeight n m t tau 128 (← secretHash (64 :: rnd) (2 * tau * 128)))

/-- Encapsulation with the public key and 32 random bytes: ciphertext and shared key (R225, R232). -/
def mceEncaps (s : Nat) (pk rnd : Bytes) : Draws (Bytes × Bytes) := do
  let (m, n, t, _) := mceParams s
  let e ← mceError s rnd
  let c := leBytes (mceEncode s pk e) (ceilDiv (m * t) 8)
  pure (c, ← secretHash (1 :: (leBytes e (n / 8) ++ c)) 32)

/-- The power sums of a word over the support, for the square of g: 2t syndromes. -/
def mceSyndromes (m t : Nat) (g support : List Nat) (v : Nat) : List Nat :=
  let terms := (support.zipIdx.filter fun e => v.testBit e.2).map fun e =>
    let d := gfInv m (gfEval m e.1 (g ++ [1]))
    (e.1, gfMul m d d)
  ((List.range (2 * t)).foldl (fun (st : List Nat × List (Nat × Nat)) _ =>
    (st.1 ++ [st.2.foldl (fun a e => a.xor e.2) 0], st.2.map fun e => (e.1, gfMul m e.1 e.2))) ([], terms)).1

/-- The state of Berlekamp and Massey's algorithm: connection polynomial, the last one, its discrepancy, length, shift. -/
structure BerlekampMassey where
  c : List Nat := [1]
  b : List Nat := [1]
  d : Nat := 1
  len : Nat := 0
  shift : Nat := 1
  deriving DecidableEq, Repr

/-- One step over syndrome number `i`. -/
def BerlekampMassey.step (m : Nat) (syn : Array Nat) (x : BerlekampMassey) (i : Nat) : BerlekampMassey :=
  let disc := x.c.zipIdx.foldl (fun a e => if e.2 ≤ x.len ∧ e.2 ≤ i then a.xor (gfMul m e.1 (syn.getD (i - e.2) 0)) else a) 0
  if disc = 0 then { x with shift := x.shift + 1 }
  else
    let q := gfMul m disc (gfInv m x.d)
    let sb := List.replicate x.shift 0 ++ x.b
    let k := max x.c.length sb.length
    let pad (l : List Nat) : List Nat := l ++ List.replicate (k - l.length) 0
    let c := gfAddMul m q (pad x.c) (pad sb)
    if 2 * x.len ≤ i then { c := c, b := x.c, d := disc, len := i + 1 - x.len, shift := 1 } else { x with c := c, shift := x.shift + 1 }

/-- The error vector of weight t of a ciphertext; none where there is none (R231). -/
def mceDecode (s : Nat) (g support : List Nat) (c : Nat) : Option Nat :=
  let (m, _, t, _) := mceParams s
  let syn := mceSyndromes m t g support c
  let bm := (List.range (2 * t)).foldl (BerlekampMassey.step m syn.toArray) {}
  let loc := ((bm.c ++ List.replicate (t + 1 - bm.c.length) 0).take (t + 1)).reverse
  let bits := support.map fun a => gfEval m a loc == 0
  let e := bits.foldr (fun b r => 2 * r + b2n b) 0
  if (bits.filter id).length = t ∧ mceSyndromes m t g support e = syn then some e else none

/-- Decapsulation with sk and ciphertext: the shared key, or that of implicit rejection (R225, R226, R231). -/
def mceDecaps (s : Nat) (sk ct : Bytes) : Draws Bytes :=
  let (m, n, t, _) := mceParams s
  let g := (chunks 2 t (sk.drop 40)).map fun b => leNat b % 2 ^ m
  let nc := (2 * m - 1) * 2 ^ (m - 4)
  let support := (mceSupport m (bitsOf (slice sk (40 + 2 * t) nc))).take n
  let c := leNat ct
  match (if c < 2 ^ (m * t) then mceDecode s g support c else none) with
  | some e => secretHash (1 :: (leBytes e (n / 8) ++ ct)) 32
  | none => secretHash (0 :: (slice sk (40 + 2 * t + nc) (n / 8) ++ ct)) 32

end Sys2Proof.Machine
end

