-- ==== Sys2Proof/Machine/HashSig.lean ====
section
/-! DEFINITION. SLH-DSA bit for bit as FIPS 205 gives it (R2, R3, R158): the SHA2 and SHAKE sets of R158 by number, key generation, pure
signing and verification. The spec names the standard and does not restate it (PRESUMED, log entry 21). -/

namespace Sys2Proof.Machine

/-! ### Parameters -/

/-- The parameters of an SLH-DSA set. -/
structure SlhParams where
  n : Nat
  /-- layers -/
  d : Nat
  /-- height of one tree -/
  hp : Nat
  /-- height of a FORS tree -/
  a : Nat
  /-- FORS trees -/
  k : Nat
  /-- bytes of the message digest -/
  m : Nat
  deriving DecidableEq, Repr

/-- The parameters by size: 128s, 128f, 192s, 192f, 256s, 256f. -/
def slhParams (set4 : Nat) : SlhParams :=
  nth [⟨16, 7, 9, 12, 14, 30⟩, ⟨16, 22, 3, 6, 33, 34⟩, ⟨24, 7, 9, 14, 17, 39⟩, ⟨24, 22, 3, 8, 33, 42⟩, ⟨32, 8, 8, 14, 22, 47⟩,
       ⟨32, 17, 4, 9, 35, 49⟩] (set4 / 2) ⟨32, 17, 4, 9, 35, 49⟩

/-- The address of a hash call: layer, tree, type, and the three words of the type. -/
structure SlhAddr where
  layer : Nat := 0
  tree : Nat := 0
  type : Nat := 0
  keypair : Nat := 0
  /-- chain, or tree height -/
  chain : Nat := 0
  /-- hash, or tree index -/
  index : Nat := 0
  deriving DecidableEq, Repr

/-- The 32 bytes of an address. -/
def SlhAddr.bytes (x : SlhAddr) : Bytes :=
  beBytes x.layer 4 ++ beBytes x.tree 12 ++ beBytes x.type 4 ++ beBytes x.keypair 4 ++ beBytes x.chain 4 ++ beBytes x.index 4

/-- The compressed address of the SHA2 sets, 22 bytes. -/
def SlhAddr.short (x : SlhAddr) : Bytes :=
  beBytes x.layer 1 ++ beBytes x.tree 8 ++ beBytes x.type 1 ++ beBytes x.keypair 4 ++ beBytes x.chain 4 ++ beBytes x.index 4

/-! ### Hash functions -/

/-- A SHAKE set. -/
def slhShake (set4 : Nat) : Bool := set4 % 2 = 1

/-- The tweakable hash of a message under a public seed and an address; `long` for H and T, which the larger SHA2 sets run on SHA-512. -/
def slhThash (set4 : Nat) (long : Bool) (seed : Bytes) (x : SlhAddr) (msg : Bytes) : Bytes :=
  let n := (slhParams set4).n
  if slhShake set4 then shake 9 (seed ++ x.bytes ++ msg) n
  else if long ∧ n ≠ 16 then (hash 3 (seed ++ zeros (128 - n) ++ x.short ++ msg)).take n
  else (hash 1 (seed ++ zeros (64 - n) ++ x.short ++ msg)).take n

/-- The hash that the message functions of a SHA2 set use. -/
def slhBig (set4 : Nat) : Nat := if (slhParams set4).n = 16 then 1 else 3

/-- The randomiser R of a message. -/
def slhPrfMsg (set4 : Nat) (prf opt msg : Bytes) : Bytes :=
  let n := (slhParams set4).n
  if slhShake set4 then shake 9 (prf ++ opt ++ msg) n else (hmac (slhBig set4) prf (opt ++ msg)).take n

/-- MGF1 (RFC 8017). -/
def mgf1 (alg : Nat) (seed : Bytes) (n : Nat) : Bytes :=
  (joinBytes ((List.range (n / algDigest alg + 1)).map fun i => hash alg (seed ++ beBytes i 4))).take n

/-- The digest of a message. -/
def slhHmsg (set4 : Nat) (r seed root msg : Bytes) : Bytes :=
  let m := (slhParams set4).m
  if slhShake set4 then shake 9 (r ++ seed ++ root ++ msg) m
  else mgf1 (slhBig set4) (r ++ seed ++ hash (slhBig set4) (r ++ seed ++ root ++ msg)) m

/-! ### WOTS+ -/

/-- `s` steps of a chain from step `i`. -/
def slhChain (set4 : Nat) (seed : Bytes) (x : SlhAddr) : Nat → Nat → Bytes → Bytes
  | 0, _, v => v
  | s + 1, i, v => slhChain set4 seed x s (i + 1) (slhThash set4 false seed { x with index := i } v)

/-- The base-2^b digits of a byte string, most significant first. -/
def digitsOf (b n : Nat) (bs : Bytes) : List Nat :=
  let v := beNat bs
  let w := 8 * bs.length
  (List.range n).map fun i => v / 2 ^ (w - b * (i + 1)) % 2 ^ b

/-- The chain lengths of a message: its 4-bit digits, then those of the checksum. -/
def slhDigits (n : Nat) (msg : Bytes) : List Nat :=
  let l := digitsOf 4 (2 * n) msg
  l ++ digitsOf 4 3 (beBytes ((l.foldl (fun c x => c + (15 - x)) 0) * 16) 2)

/-- The secret of a chain. -/
def slhSecret (set4 : Nat) (sk seed : Bytes) (x : SlhAddr) (i : Nat) : Bytes :=
  slhThash set4 false seed { x with type := 5, chain := i, index := 0 } sk

/-- The public key of a WOTS+ key pair: `x` names the layer, tree and key pair. -/
def slhWotsPk (set4 : Nat) (sk seed : Bytes) (x : SlhAddr) : Bytes :=
  let n := (slhParams set4).n
  slhThash set4 true seed { x with type := 1, chain := 0, index := 0 }
    (joinBytes ((List.range (2 * n + 3)).map fun i => slhChain set4 seed { x with chain := i } 15 0 (slhSecret set4 sk seed x i)))

/-- A WOTS+ signature. -/
def slhWotsSign (set4 : Nat) (sk seed : Bytes) (x : SlhAddr) (msg : Bytes) : Bytes :=
  joinBytes ((slhDigits (slhParams set4).n msg).zipIdx.map fun e =>
    slhChain set4 seed { x with chain := e.2 } e.1 0 (slhSecret set4 sk seed x e.2))

/-- The public key that a WOTS+ signature gives. -/
def slhWotsRoot (set4 : Nat) (seed : Bytes) (x : SlhAddr) (msg sig : Bytes) : Bytes :=
  let n := (slhParams set4).n
  slhThash set4 true seed { x with type := 1, chain := 0, index := 0 }
    (joinBytes ((slhDigits n msg).zipIdx.map fun e => slhChain set4 seed { x with chain := e.2 } (15 - e.1) e.1 (slice sig (n * e.2) n)))

/-! ### Trees -/

/-- A node of a binary hash tree whose leaves a function gives: index and height. `x` is the address of the tree's nodes. -/
def slhNode (set4 : Nat) (seed : Bytes) (x : SlhAddr) (leaf : Nat → Bytes) : Nat → Nat → Bytes
  | 0, i => leaf i
  | z + 1, i =>
    slhThash set4 true seed { x with chain := z + 1, index := i } (slhNode set4 seed x leaf z (2 * i) ++ slhNode set4 seed x leaf z (2 * i + 1))

/-- The authentication path of leaf `i` up to height `z`. -/
def slhAuth (set4 : Nat) (seed : Bytes) (x : SlhAddr) (leaf : Nat → Bytes) (z i : Nat) : Bytes :=
  joinBytes ((List.range z).map fun j => slhNode set4 seed x leaf j ((i / 2 ^ j).xor 1))

/-- The root that leaf `i`, its value and its authentication path give, from height `j` on. -/
def slhClimb (set4 : Nat) (seed : Bytes) (x : SlhAddr) (i : Nat) (auth : Bytes) : Nat → Nat → Bytes → Bytes
  | 0, _, v => v
  | z + 1, j, v =>
    let s := slice auth ((slhParams set4).n * j) (slhParams set4).n
    slhClimb set4 seed x i auth z (j + 1)
      (slhThash set4 true seed { x with chain := j + 1, index := i / 2 ^ (j + 1) } (if i / 2 ^ j % 2 = 0 then v ++ s else s ++ v))

/-- A leaf of a tree of key pairs. -/
def slhLeaf (set4 : Nat) (sk seed : Bytes) (layer tree i : Nat) : Bytes := slhWotsPk set4 sk seed { layer := layer, tree := tree, keypair := i }

/-- The root of the top tree. -/
def slhRoot (set4 : Nat) (sk seed : Bytes) : Bytes :=
  let p := slhParams set4
  slhNode set4 seed { layer := p.d - 1, type := 2 } (slhLeaf set4 sk seed (p.d - 1) 0) p.hp 0

/-- The signature of a tree over a value, with key pair `i`. -/
def slhTreeSign (set4 : Nat) (sk seed : Bytes) (layer tree i : Nat) (msg : Bytes) : Bytes :=
  let p := slhParams set4
  slhWotsSign set4 sk seed { layer := layer, tree := tree, keypair := i } msg ++
    slhAuth set4 seed { layer := layer, tree := tree, type := 2 } (slhLeaf set4 sk seed layer tree) p.hp i

/-- The root of a tree that a signature of it gives. -/
def slhTreeRoot (set4 : Nat) (seed : Bytes) (layer tree i : Nat) (msg sig : Bytes) : Bytes :=
  let p := slhParams set4
  let w := p.n * (2 * p.n + 3)
  slhClimb set4 seed { layer := layer, tree := tree, type := 2 } i (sig.drop w) p.hp 0
    (slhWotsRoot set4 seed { layer := layer, tree := tree, keypair := i } msg (sig.take w))

/-- Bytes of one tree's signature. -/
def SlhParams.treeBytes (p : SlhParams) : Nat := p.n * (2 * p.n + 3 + p.hp)

/-- The hypertree signature of a value, from layer `layer` up. -/
def slhHyperSign (set4 : Nat) (sk seed : Bytes) : Nat → Nat → Nat → Nat → Bytes → Bytes
  | 0, _, _, _, _ => []
  | r + 1, layer, tree, i, msg =>
    let p := slhParams set4
    let sig := slhTreeSign set4 sk seed layer tree i msg
    sig ++ slhHyperSign set4 sk seed r (layer + 1) (tree / 2 ^ p.hp) (tree % 2 ^ p.hp)
      (if r = 0 then [] else slhTreeRoot set4 seed layer tree i msg sig)

/-- The root that a hypertree signature gives. -/
def slhHyperRoot (set4 : Nat) (seed : Bytes) : Nat → Nat → Nat → Nat → Bytes → Bytes → Bytes
  | 0, _, _, _, msg, _ => msg
  | r + 1, layer, tree, i, msg, sig =>
    let p := slhParams set4
    slhHyperRoot set4 seed r (layer + 1) (tree / 2 ^ p.hp) (tree % 2 ^ p.hp)
      (slhTreeRoot set4 seed layer tree i msg (sig.take p.treeBytes)) (sig.drop p.treeBytes)

/-! ### FORS -/

/-- The secret of a FORS leaf. -/
def slhForsSecret (set4 : Nat) (sk seed : Bytes) (x : SlhAddr) (i : Nat) : Bytes :=
  slhThash set4 false seed { x with type := 6, chain := 0, index := i } sk

/-- A FORS leaf. -/
def slhForsLeaf (set4 : Nat) (sk seed : Bytes) (x : SlhAddr) (i : Nat) : Bytes :=
  slhThash set4 false seed { x with type := 3, chain := 0, index := i } (slhForsSecret set4 sk seed x i)

/-- A FORS signature of the message digest. -/
def slhForsSign (set4 : Nat) (sk seed : Bytes) (x : SlhAddr) (md : Bytes) : Bytes :=
  let p := slhParams set4
  joinBytes ((digitsOf p.a p.k md).zipIdx.map fun e =>
    let i := e.2 * 2 ^ p.a + e.1
    slhForsSecret set4 sk seed x i ++ slhAuth set4 seed { x with type := 3 } (slhForsLeaf set4 sk seed x) p.a i)

/-- The FORS public key that a signature gives. -/
def slhForsRoot (set4 : Nat) (seed : Bytes) (x : SlhAddr) (md sig : Bytes) : Bytes :=
  let p := slhParams set4
  let w := p.n * (p.a + 1)
  slhThash set4 true seed { x with type := 4, chain := 0, index := 0 } (joinBytes ((digitsOf p.a p.k md).zipIdx.map fun e =>
    let i := e.2 * 2 ^ p.a + e.1
    let s := slice sig (w * e.2) w
    slhClimb set4 seed { x with type := 3 } i (s.drop p.n) p.a 0 (slhThash set4 false seed { x with type := 3, chain := 0, index := i } (s.take p.n))))

/-! ### SLH-DSA -/

/-- The parts of a message digest: the FORS digest, the tree and the key pair. -/
def slhSplit (p : SlhParams) (digest : Bytes) : Bytes × Nat × Nat :=
  let a := ceilDiv (p.k * p.a) 8
  let b := ceilDiv (p.hp * (p.d - 1)) 8
  (digest.take a, beNat (slice digest a b) % 2 ^ (p.hp * (p.d - 1)), beNat (slice digest (a + b) (ceilDiv p.hp 8)) % 2 ^ p.hp)

/-- SLH-DSA key generation from SK.seed, SK.prf and PK.seed: (sk, pk). -/
def slhKeygen (set4 : Nat) (seeds : Bytes) : Bytes × Bytes :=
  let n := (slhParams set4).n
  let pk := slice seeds (2 * n) n ++ slhRoot set4 (seeds.take n) (slice seeds (2 * n) n)
  (seeds.take (2 * n) ++ pk, pk)

/-- SLH-DSA signing with sk, context, message and opt_rand. -/
def slhSign (set4 : Nat) (sk ctx msg opt : Bytes) : Bytes :=
  let p := slhParams set4
  let seed := slice sk (2 * p.n) p.n
  let m := signedMessage false ctx msg
  let r := slhPrfMsg set4 (slice sk p.n p.n) opt m
  let (md, tree, i) := slhSplit p (slhHmsg set4 r seed (slice sk (3 * p.n) p.n) m)
  let x : SlhAddr := { tree := tree, keypair := i }
  let fors := slhForsSign set4 (sk.take p.n) seed x md
  r ++ fors ++ slhHyperSign set4 (sk.take p.n) seed p.d 0 tree i (slhForsRoot set4 seed x md fors)

/-- SLH-DSA verification with pk, context, message and signature. -/
def slhVerify (set4 : Nat) (pk ctx msg sig : Bytes) : Bool :=
  let p := slhParams set4
  let seed := pk.take p.n
  let m := signedMessage false ctx msg
  let (md, tree, i) := slhSplit p (slhHmsg set4 (sig.take p.n) seed (slice pk p.n p.n) m)
  let w := p.n * (1 + p.k * (p.a + 1))
  slhHyperRoot set4 seed p.d 0 tree i (slhForsRoot set4 seed { tree := tree, keypair := i } md (slice sig p.n (w - p.n))) (sig.drop w) ==
    slice pk p.n p.n

end Sys2Proof.Machine
end

