-- ==== Sys2Proof/Config.lean ====
section
/-! DEFINITION. What a part or an implementation fixes and the spec leaves open: constants and functions with no body, so that no
proof can lean on a value of one. -/

namespace Sys2Proof.Config

/-- The 64-bit device serial in fuses (R31; log entry 11). -/
opaque serial : Nat

/-- The fused device secret of R310 (log entry 11). -/
opaque deviceSecret : Bytes

/-- The n-th free byte: what the noise, the DRBGs and every value that the spec leaves undefined supply (log entry 3). -/
opaque freeByte : Nat → Byte

/-- The `n`-th word of the counter mode of a mask or blinding generator with a seed, as a number (R209). -/
opaque maskWord (seed n : Nat) : Nat

/-- The ROM address at which the sequencer enters an instruction with a major opcode (R183, R385; log entry 85). -/
opaque entryPc (opcode : Nat) : Nat

/-- The factory calibration value of an item and instance, where no record has replaced it: up to 32 bytes (R425; log entry 13). -/
opaque calFactory (code inst : Nat) : Bytes

/-- What MI_TKT_STAT.OPCODE shows for a transition, to which R400 gives no opcode. -/
opaque transitionOpcode : Nat

/-- The place in the table of R122 of the status that the ticket of a stopped transition shows (R322, R324 name none). -/
opaque stoppedTransition : Nat

/-- The vendor root in the fuses: an ML-DSA-87 public key followed by a P-384 public key (R313, R329, R391; log entry 11). -/
opaque vendorKeys : Bytes

/-- The 256-bit patch key in the fuses (R391; log entry 11). -/
opaque patchKey : Bytes

/-- The identity seeds made from root material (R311; log entry 7). -/
opaque identitySeeds : Bytes → Bytes

end Sys2Proof.Config
end

