-- ==== Sys2Proof/Machine/Map.lean ====
section
/-! DEFINITION. Sparse tables by number (leaves, turn slots, vector tables) and byte memories (user flash, vault memory), each a
list in one canonical form: keys strictly rising; in a memory, no byte equal to what an unlisted address reads. -/

namespace Sys2Proof.Machine

/-- A table by number: entries in strictly rising order of their key. -/
abbrev Map (α : Type) := List (Nat × α)

/-- The entry at a key. -/
def Map.get? {α : Type} : Map α → Nat → Option α
  | [], _ => none
  | (k', v) :: r, k => if k' = k then some v else Map.get? r k

/-- The entry at a key, or `d`. -/
def Map.getD {α : Type} (m : Map α) (k : Nat) (d : α) : α := (Map.get? m k).getD d

/-- The table with the entry at a key set. -/
def Map.set {α : Type} : Map α → Nat → α → Map α
  | [], k, v => [(k, v)]
  | (k', v') :: r, k, v =>
    if k < k' then (k, v) :: (k', v') :: r else if k = k' then (k, v) :: r else (k', v') :: Map.set r k v

/-- The table with the entry at a key removed. -/
def Map.erase {α : Type} : Map α → Nat → Map α
  | [], _ => []
  | (k', v') :: r, k => if k' = k then r else (k', v') :: Map.erase r k

/-- The table with a present entry replaced by its image. -/
def Map.modify {α : Type} (m : Map α) (k : Nat) (f : α → α) : Map α :=
  m.map fun e => if e.1 = k then (e.1, f e.2) else e

/-- Every entry replaced by its image. -/
def Map.mapVals {α : Type} (m : Map α) (f : Nat → α → α) : Map α := m.map fun e => (e.1, f e.1 e.2)

/-- The keys of a table. -/
def Map.keys {α : Type} (m : Map α) : List Nat := m.map Prod.fst

/-- The keys strictly rise. -/
def Map.sorted {α : Type} : Map α → Bool
  | [] => true
  | [_] => true
  | (k, _) :: (k', v) :: r => decide (k < k') && Map.sorted ((k', v) :: r)

/-- A byte memory: (address, byte) pairs; an address that is not listed reads as 0 (DESIGN CHOICE: R364 and R79 give no power-on
contents; log entries 17, 18). -/
abbrev Mem := List Host.Cell

/-- One byte of a memory. -/
def Mem.read : Mem → Nat → Byte
  | [], _ => 0
  | (k, b) :: r, a => if k = a then b else Mem.read r a

/-- The memory with one byte written, in canonical form. -/
def Mem.write : Mem → Nat → Byte → Mem
  | [], a, b => if b = 0 then [] else [(a, b)]
  | (k, v) :: r, a, b =>
    if a < k then (if b = 0 then (k, v) :: r else (a, b) :: (k, v) :: r)
    else if a = k then (if b = 0 then r else (a, b) :: r)
    else (k, v) :: Mem.write r a b

/-- `n` bytes from an address. -/
def Mem.readN (m : Mem) (a n : Nat) : Bytes := (List.range n).map fun i => Mem.read m (a + i)

/-- The memory with a byte string written from an address on. -/
def Mem.writeN (m : Mem) (a : Nat) : Bytes → Mem
  | [] => m
  | b :: r => Mem.writeN (Mem.write m a b) (a + 1) r

/-- The memory with `n` bytes from an address on zero. -/
def Mem.clear (m : Mem) (a n : Nat) : Mem := m.filter fun e => !(a ≤ e.1 && e.1 < a + n)

/-- The canonical form: every address above `lo`, strictly rising, no listed byte 0. -/
def Mem.wfFrom : Nat → Mem → Bool
  | _, [] => true
  | lo, (k, b) :: r => decide (lo ≤ k) && decide (b ≠ 0) && Mem.wfFrom (k + 1) r

/-- The canonical form of a byte memory. -/
def Mem.wf (m : Mem) : Bool := Mem.wfFrom 0 m

end Sys2Proof.Machine
end

