-- ==== Sys2Proof/Machine/Zaxus.lean ====
section
/-! DEFINITION. Zaxus instruction words (R99 to R102, R123 to R166): the opcode map, the roles of the cell fields, the ranges of the
immediate, an encoder and a decoder of words, the turn header (R94, R95) and the checks that decode makes of a program (R98). -/

namespace Sys2Proof.Machine

/-- The Zaxus instructions, as the rows of the opcode table split them (a variant of its own where the table names one). -/
inductive ZKind where
  | nop | fin | fence | wait | skipIf | loop
  | alloc | free | load | store | storeStream | copyWhole | copySlice | copyAppend | copyCtr | zero | xor | randFill
  | keywCut | keywGen | keywClear | keywWrap | keywUnwrap | keywDerive
  | mlkemKeygen | mlkemEncaps | mlkemDecaps | mldsaKeygen | mldsaSign | mldsaVerify
  | hqcKeygen | hqcEncaps | hqcDecaps | mceKeygen | mceEncaps | mceDecaps
  | digestInit | digestAbsorb | digestStream | digestFinal | xofSqueeze | macKeystate | macInit | macFinal | cmpCt
  | slhKeygen | slhSign | slhVerify
  | bnSetmod | bnAdd | bnSub | bnMul | bnExp | bnInv
  | ecKeygen | ecSign | ecVerify | ecDh | ecxKeygen | ecxMul | edKeygen | edSign | edVerify | rsaPub | rsaPriv | rsaCrt
  | blkEnc | blkDec | ghash | xtsSeq | ctxSaveVault | ctxSaveWrapped | ctxRestoreVault | ctxRestoreWrapped
  deriving DecidableEq, Repr

/-- A decoded word: the instruction and the fields of R99. -/
structure ZInstr where
  kind : ZKind
  var : Nat
  dst : Nat
  a : Nat
  b : Nat
  imm : Nat
  deriving DecidableEq, Repr

/-- The major opcode of each instruction (R123). -/
def ZKind.op : ZKind → Nat
  | .nop => 0x00 | .fin => 0x01 | .fence => 0x02 | .wait => 0x03 | .skipIf => 0x04 | .loop => 0x05
  | .alloc => 0x10 | .free => 0x11 | .load => 0x12 | .store => 0x13 | .storeStream => 0x13 | .copyWhole => 0x14
  | .copySlice => 0x14 | .copyAppend => 0x14 | .copyCtr => 0x14 | .zero => 0x15 | .xor => 0x16 | .randFill => 0x18
  | .keywCut => 0x20 | .keywGen => 0x21 | .keywClear => 0x22 | .keywWrap => 0x23 | .keywUnwrap => 0x24 | .keywDerive => 0x25
  | .mlkemKeygen => 0x30 | .mlkemEncaps => 0x31 | .mlkemDecaps => 0x32 | .mldsaKeygen => 0x34 | .mldsaSign => 0x35
  | .mldsaVerify => 0x36 | .hqcKeygen => 0x40 | .hqcEncaps => 0x41 | .hqcDecaps => 0x42 | .mceKeygen => 0x44
  | .mceEncaps => 0x45 | .mceDecaps => 0x46 | .digestInit => 0x50 | .digestAbsorb => 0x51 | .digestStream => 0x52
  | .digestFinal => 0x53 | .xofSqueeze => 0x54 | .macKeystate => 0x58 | .macInit => 0x59 | .macFinal => 0x5A | .cmpCt => 0x5C
  | .slhKeygen => 0x5D | .slhSign => 0x5E | .slhVerify => 0x5F | .bnSetmod => 0x60 | .bnAdd => 0x61 | .bnSub => 0x62
  | .bnMul => 0x63 | .bnExp => 0x64 | .bnInv => 0x65 | .ecKeygen => 0x68 | .ecSign => 0x69 | .ecVerify => 0x6A
  | .ecDh => 0x6B | .ecxKeygen => 0x6C | .ecxMul => 0x6D | .edKeygen => 0x70 | .edSign => 0x71 | .edVerify => 0x72
  | .rsaPub => 0x74 | .rsaPriv => 0x75 | .rsaCrt => 0x76 | .blkEnc => 0x80 | .blkDec => 0x81 | .ghash => 0x82
  | .xtsSeq => 0x82 | .ctxSaveVault => 0x90 | .ctxSaveWrapped => 0x90 | .ctxRestoreVault => 0x91 | .ctxRestoreWrapped => 0x91

/-- What the opcode map says of an (OP, VAR) pair (R123, R124): not defined, defined but unsupported (R2), or an instruction. -/
inductive Verdict where
  | undefined
  | unsupported
  | ok (k : ZKind)
  deriving DecidableEq, Repr

/-- An instruction where a condition holds; undefined otherwise. -/
def okIf (c : Bool) (k : ZKind) : Verdict := if c then .ok k else .undefined

/-- A defined variant is unsupported where `bad` holds (R2). -/
def okBut (defined bad : Bool) (k : ZKind) : Verdict :=
  if defined then (if bad then .unsupported else .ok k) else .undefined

/-- VAR of an instruction with a parameter set in the bits below `lim` and the flags `flags` above them. -/
def varIn (v setBits lim flags : Nat) : Bool := field v 0 setBits < lim && (v - field v 0 setBits) &&& flags == v - field v 0 setBits

/-- VAR of a bolt instruction: the length class [3:0] of R161 and, where R262 defines it, SEEDED [7]. -/
def boltVar (v : Nat) (seeded : Bool) (classes : List Nat) (k : ZKind) : Verdict :=
  okBut (field v 0 4 ≤ 8 && field v 4 3 == 0 && (seeded || !bitOf v 7)) (!(classes.contains (field v 0 4))) k

/-- The pairs of ALG and ATTR that R302 defines. -/
def algAttrOk (alg attr : Nat) : Bool :=
  ([1, 2, 3].contains alg && [1, 2].contains attr) || (alg == 0x10 && attr == 3) ||
  ([0x20, 0x21, 0x22].contains alg && attr == 4) || (0x30 ≤ alg && alg ≤ 0x37 && attr == 4)

/-- Steps 3 and 4 of R98 for one word: the variants that R134 to R166 list, and those that R2 leaves unsupported. -/
def classify (op v imm : Nat) : Verdict :=
  match op with
  | 0x00 => okIf (v == 0) .nop
  | 0x01 => okIf (v == 0) .fin
  | 0x02 => okIf (v == 0) .fence
  | 0x03 => okIf (v == 0) .wait
  | 0x04 => okIf (v ≤ 1) .skipIf
  | 0x05 => okIf (v == 0) .loop
  | 0x10 => okIf (v == 0) .alloc
  | 0x11 => okIf (v == 0) .free
  | 0x12 => okIf (v ≤ 1) .load
  | 0x13 => if v ≤ 1 then .ok .store else okIf (v ≤ 3) .storeStream
  | 0x14 => match v with
    | 0 => .ok .copyWhole
    | 1 => .ok .copySlice
    | 2 => .ok .copyAppend
    | 3 => .ok .copyCtr
    | _ => .undefined
  | 0x15 => okIf (v == 0) .zero
  | 0x16 => okIf (v == 0) .xor
  | 0x18 => okIf (v == 0) .randFill
  | 0x20 => okIf (v == 0) .keywCut
  | 0x21 => okBut (field v 4 4 == 0 && 1 ≤ field v 0 3 && field v 0 3 ≤ 4) (!(algAttrOk (field imm 0 8) (field v 0 3))) .keywGen
  | 0x22 => okIf (v == 0) .keywClear
  | 0x23 => okIf (v == 0) .keywWrap
  | 0x24 => okIf (v == 0) .keywUnwrap
  | 0x25 => okIf (v ≤ 2) .keywDerive
  | 0x30 => okIf (varIn v 2 3 0x80) .mlkemKeygen
  | 0x31 => okIf (varIn v 2 3 0x80) .mlkemEncaps
  | 0x32 => okIf (varIn v 2 3 0) .mlkemDecaps
  | 0x34 => okIf (varIn v 2 3 0x80) .mldsaKeygen
  | 0x35 => okBut (varIn v 2 3 0xF0 && !(bitOf v 4 && bitOf v 7)) (bitOf v 6) .mldsaSign
  | 0x36 => okIf (varIn v 2 3 0x20) .mldsaVerify
  | 0x40 => okIf (varIn v 2 3 0x80) .hqcKeygen
  | 0x41 => okIf (varIn v 2 3 0x80) .hqcEncaps
  | 0x42 => okIf (varIn v 2 3 0) .hqcDecaps
  | 0x44 => okBut (varIn v 4 13 0x80 && field v 0 3 ≤ 4) (bitOf v 3) .mceKeygen
  | 0x45 => okBut (varIn v 4 13 0x80 && field v 0 3 ≤ 4) (bitOf v 3) .mceEncaps
  | 0x46 => okBut (varIn v 4 13 0 && field v 0 3 ≤ 4) (bitOf v 3) .mceDecaps
  | 0x50 => okBut (v ≤ 11) (10 ≤ v) .digestInit
  | 0x51 => okIf (v == 0) .digestAbsorb
  | 0x52 => okIf (v == 0) .digestStream
  | 0x53 => okIf (v == 0) .digestFinal
  | 0x54 => okIf (v == 0) .xofSqueeze
  | 0x58 => okIf (varIn v 4 8 0x80) .macKeystate
  | 0x59 => okIf (v == 0) .macInit
  | 0x5A => okIf (v == 0) .macFinal
  | 0x5C => okIf (v == 0) .cmpCt
  | 0x5D => okIf (varIn v 4 12 0x80) .slhKeygen
  | 0x5E => okIf (varIn v 4 12 0x90 && !(bitOf v 4 && bitOf v 7)) .slhSign
  | 0x5F => okIf (varIn v 4 12 0) .slhVerify
  | 0x60 => boltVar v false [0, 1, 2, 3, 4, 5, 6, 7, 8] .bnSetmod
  | 0x61 => boltVar v false [0, 1, 2, 3, 4, 5, 6, 7, 8] .bnAdd
  | 0x62 => boltVar v false [0, 1, 2, 3, 4, 5, 6, 7, 8] .bnSub
  | 0x63 => boltVar v false [0, 1, 2, 3, 4, 5, 6, 7, 8] .bnMul
  | 0x64 => boltVar v false [0, 1, 2, 3, 4, 5, 6, 7, 8] .bnExp
  | 0x65 => boltVar v false [0, 1, 2, 3, 4, 5, 6, 7, 8] .bnInv
  | 0x68 => boltVar v true [1, 2, 4] .ecKeygen
  | 0x69 => boltVar v true [1, 2, 4] .ecSign
  | 0x6A => boltVar v false [1, 2, 4] .ecVerify
  | 0x6B => boltVar v false [1, 2, 4] .ecDh
  | 0x6C => boltVar v true [0, 3] .ecxKeygen
  | 0x6D => boltVar v false [0, 3] .ecxMul
  | 0x70 => boltVar v true [0, 3] .edKeygen
  | 0x71 => boltVar v false [0, 3] .edSign
  | 0x72 => boltVar v false [0, 3] .edVerify
  | 0x74 => boltVar v false [5, 6, 7, 8] .rsaPub
  | 0x75 => boltVar v false [5, 6, 7, 8] .rsaPriv
  | 0x76 => boltVar v false [5, 6, 7, 8] .rsaCrt
  | 0x80 => okIf (varIn v 2 3 0x80) .blkEnc
  | 0x81 => okIf (varIn v 2 3 0x80) .blkDec
  | 0x82 => if v = 0 then .ok .ghash else okIf (v == 1) .xtsSeq
  | 0x90 => if v = 0 then .ok .ctxSaveVault else okIf (v == 1) .ctxSaveWrapped
  | 0x91 => if v = 0 then .ok .ctxRestoreVault else okIf (v == 1) .ctxRestoreWrapped
  | _ => .undefined

/-- The role of a cell field (R100): unused, read, written, both, or (END's SRCA) either a cell or 0xFF. -/
inductive Role where
  | none | inp | out | io | opt
  deriving DecidableEq, Repr

/-- The roles of DST, SRCA and SRCB in the decoded variant (the tables of R134 to R164, R262). -/
def ZInstr.roles (z : ZInstr) : Role × Role × Role :=
  let seeded := bitOf z.var 7
  match z.kind with
  | .nop | .fence | .wait | .skipIf | .loop | .keywGen | .keywClear => (.none, .none, .none)
  | .fin => (.none, .opt, .none)
  | .alloc | .load | .zero | .randFill | .digestInit | .ctxRestoreVault => (.out, .none, .none)
  | .free | .digestStream => (.io, .none, .none)
  | .store | .storeStream | .keywCut | .bnSetmod | .ctxSaveVault => (.none, .inp, .none)
  | .copyWhole | .copySlice | .keywWrap | .keywUnwrap | .keywDerive | .macInit | .bnInv | .ctxSaveWrapped
  | .ctxRestoreWrapped => (.out, .inp, .none)
  | .copyAppend | .digestAbsorb => (.io, .inp, .none)
  | .copyCtr | .digestFinal | .xofSqueeze | .macFinal | .xtsSeq => (.out, .io, .none)
  | .xor | .mlkemDecaps | .mldsaSign | .hqcDecaps | .mceDecaps | .slhSign | .bnAdd | .bnSub | .bnMul | .bnExp | .ecSign
  | .ecDh | .ecxMul | .edSign | .rsaPub | .rsaPriv | .rsaCrt => (.out, .inp, .inp)
  | .mlkemKeygen | .mldsaKeygen | .hqcKeygen | .slhKeygen | .mceEncaps => (.out, .out, if seeded then .inp else .none)
  | .mlkemEncaps | .hqcEncaps => (.out, .out, .inp)
  | .mldsaVerify | .slhVerify | .ecVerify | .edVerify => (.inp, .inp, .inp)
  | .mceKeygen => (.out, .none, if seeded then .inp else .none)
  | .macKeystate => (.none, if seeded then .none else .inp, .none)
  | .cmpCt => (.none, .inp, .inp)
  | .ecKeygen | .ecxKeygen | .edKeygen => (.out, if seeded then .io else .out, .none)
  | .blkEnc | .blkDec => (.out, .inp, if seeded then .none else .inp)
  | .ghash => (.io, .inp, .inp)

/-- A cell field is valid for its role (R100). -/
def Role.fits (r : Role) (f : Nat) : Bool :=
  match r with
  | .none => f == 0xFF
  | .opt => f == 0xFF || f < 32
  | _ => f < 32

/-- The field is written. -/
def Role.writes : Role → Bool
  | .out | .io => true
  | _ => false

/-- The byte counts of the twelve SLH-DSA sets by VAR [3:0] (R159): 128s, 128f, 192s, 192f, 256s, 256f. -/
def slhSigBytes (set : Nat) : Nat := nth [7856, 17088, 16224, 35664, 29792, 49856] (set / 2) 0

/-- The number of cells of a signature run (R159). -/
def slhRun (set : Nat) : Nat := ceilDiv (slhSigBytes set) 16384

/-- The cells that a word writes or reads through DST: one, or a signature run (R159). -/
def ZInstr.dstCells (z : ZInstr) : List Nat :=
  match z.kind with
  | .slhSign | .slhVerify => (List.range (slhRun (field z.var 0 4))).map (z.dst + ·)
  | _ => [z.dst]

/-- Step 5 of R98: every cell field valid (R100), a signature run inside c31 (R159), no written cell in another field (R126; the
cells of a written run count with DST, DEDUCED, log entry 20). -/
def ZInstr.cellsOk (z : ZInstr) : Bool :=
  let (rd, ra, rb) := z.roles
  let exempt := [ZKind.xor, .blkEnc, .blkDec, .ghash].contains z.kind
  let d := z.dstCells
  rd.fits z.dst && ra.fits z.a && rb.fits z.b && d.all (fun c => c < 32 || c == 0xFF) &&
  (exempt ||
    ((!rd.writes || ((ra == .none || !d.contains z.a) && (rb == .none || !d.contains z.b))) &&
     (!ra.writes || ((rd == .none || !d.contains z.a) && (rb == .none || z.a != z.b)))))

/-- Output bytes of the hash of KEYW.DERIVE by VAR (R142). -/
def hkdfHashLen (v : Nat) : Nat := nth [32, 48, 64] v 0

/-- The immediate is in the range that the instruction's table gives (R124). -/
def ZInstr.immOk (z : ZInstr) : Bool :=
  let i := z.imm
  match z.kind with
  | .wait | .digestInit | .macInit => 1 ≤ i
  | .skipIf => 1 ≤ i && i ≤ 4095
  | .loop => 1 ≤ field i 12 12 && field i 12 12 ≤ 4094 && 1 ≤ field i 0 12
  | .alloc | .randFill | .xofSqueeze => 1 ≤ i && i ≤ 16384
  | .load | .store | .storeStream | .zero | .mceKeygen | .mceEncaps | .digestStream => true
  | .copySlice => i < 16384
  | .copyCtr | .xtsSeq => 1 ≤ i && i ≤ 1024
  | .keywGen => i < 256
  | .keywDerive => 1 ≤ i && i ≤ 255 * hkdfHashLen z.var
  | .mldsaSign => 1 ≤ i && i ≤ 4095
  | .macKeystate => i < 65536 && (field z.var 0 4 < 4 || i % 4 == 0)
  | .ctxSaveVault => i < 8
  | .ctxRestoreVault => field i 3 13 == 0
  | .ctxRestoreWrapped => field i 0 16 == 0
  | _ => i == 0

/-- The word of an instruction, its fields placed as R99 says. -/
def ZInstr.encode (z : ZInstr) : DWord :=
  BitVec.ofNat 64 (at_ z.kind.op 56 8 + at_ z.var 48 8 + at_ z.dst 40 8 + at_ z.a 32 8 + at_ z.b 24 8 + at_ z.imm 0 24)

/-- Steps 3 to 5 of R98 on one word: BAD_OPCODE, UNSUPPORTED or BAD_CELL, or the instruction. -/
def decodeWord (w : DWord) : Except Status ZInstr :=
  let n := w.toNat
  let op := field n 56 8
  let var := field n 48 8
  let imm := field n 0 24
  match classify op var imm with
  | .undefined => .error 0x1002
  | .unsupported => .error 0x1003
  | .ok k =>
    let z : ZInstr := ⟨k, var, field n 40 8, field n 32 8, field n 24 8, imm⟩
    if z.cellsOk then .ok z else .error 0x1020

/-- An instruction every field of which holds a value its word can hold and decode accepts. -/
def ZInstr.wf (z : ZInstr) : Bool :=
  z.var < 256 && z.dst < 256 && z.a < 256 && z.b < 256 && z.imm < 2 ^ 24 && z.cellsOk &&
  (classify z.kind.op z.var z.imm == .ok z.kind)

/-- The header of a turn entry (R94). -/
structure Header where
  len : Nat
  ptr : Bool
  fence : Bool
  prio : Nat
  cap : Nat
  cookie : Nat
  notBefore : Nat
  dataBase : Nat
  /-- the program address where PTR is 1 -/
  progAddr : Nat
  deriving DecidableEq, Repr

/-- The header fields of a 128-byte entry (R94). -/
def readHeader (e : Bytes) : Header :=
  let w0 := u64 e 0
  { len := field w0 0 13, ptr := bitOf w0 16, fence := bitOf w0 17, prio := field w0 20 4, cap := field w0 32 32,
    cookie := u64 e 8, notBefore := field (u64 e 16) 0 48, dataBase := u64 e 24, progAddr := u64 e 32 }

/-- The header checks of R95: reserved fields, LEN, CAP and the alignments. -/
def headerOk (e : Bytes) : Bool :=
  let w0 := u64 e 0
  let h := readHeader e
  field w0 13 3 == 0 && field w0 18 2 == 0 && field w0 24 8 == 0 && field (u64 e 16) 48 16 == 0 &&
  1 ≤ h.len && (if h.ptr then h.len ≤ 4096 && h.progAddr % 8 == 0 else h.len ≤ 12) && h.cap != 0 && h.dataBase % 64 == 0

/-- The words of a program held as bytes. -/
def readWords (bs : Bytes) (n : Nat) : List DWord := (List.range n).map fun i => BitVec.ofNat 64 (u64 bs (8 * i))

/-- Steps 3 to 5 of R98 over the words in order: the first failing word and its status, or the instructions. -/
def decodeWords : Nat → List DWord → Except (Nat × Status) (List ZInstr)
  | _, [] => .ok []
  | pc, w :: r =>
    match decodeWord w with
    | .error e => .error (pc, e)
    | .ok z =>
      match decodeWords (pc + 1) r with
      | .error e => .error e
      | .ok zs => .ok (z :: zs)

/-- The REPEAT words of a program: (index, body words, count) (R134). -/
def loops (p : List ZInstr) : List (Nat × Nat × Nat) :=
  (List.range p.length).filterMap fun i => match p[i]? with
    | some z => if z.kind == .loop then some (i, field z.imm 12 12, field z.imm 0 12) else none
    | none => none

/-- Word `i` lies in the body of a REPEAT (R101). -/
def inBody (i : Nat) (l : Nat × Nat × Nat) : Bool := l.1 < i && i ≤ l.1 + l.2.1

/-- How often word `i` is executed at most (R102): the product of the counts of the REPEATs that enclose it. -/
def multiplicity (ls : List (Nat × Nat × Nat)) (i : Nat) : Nat :=
  (ls.filter (inBody i)).foldl (fun m l => m * l.2.2) 1

/-- The words at fault in step 6 of R98: immediates, SKIP.IF targets, REPEAT bodies and nesting, and the last word (R101, R124). -/
def wordFaults (p : List ZInstr) : List Nat :=
  let ls := loops p
  (List.range p.length).filter fun i => match p[i]? with
    | none => false
    | some z =>
      !z.immOk || (z.kind == .skipIf && p.length ≤ i + 1 + z.imm) || (i + 1 == p.length && z.kind != .fin) ||
      (z.kind == .loop &&
        (p.length ≤ i + field z.imm 12 12 || 5 ≤ (ls.filter (inBody i)).length + 1 ||
         ls.any (fun l => inBody i l && l.1 + l.2.1 < i + field z.imm 12 12) ||
         (List.range p.length).any (fun j => inBody j (i, field z.imm 12 12, 0) && match p[j]? with
           | some y => [ZKind.alloc, .free, .fin].contains y.kind
           | none => false)))

/-- The greatest size that any ALLOC of the program gives a cell (R140). -/
def maxAlloc (p : List ZInstr) (c : Nat) : Nat :=
  p.foldl (fun m z => if z.kind == .alloc && z.dst == c then max m z.imm else m) 0

/-- Store space is taken in steps of 64 bytes (R103). -/
def round64 (n : Nat) : Nat := ceilDiv n 64 * 64

/-- The whole-program limits of step 6 of R98: the executed words of R102 and the deferred STOREs of R112. -/
def limitsOk (p : List ZInstr) : Bool :=
  let ls := loops p
  let idx := (List.range p.length).zip p
  let words := idx.foldl (fun n e => n + multiplicity ls e.1) 0
  let stores := idx.filter fun e => e.2.kind == .store
  let count := stores.foldl (fun n e => n + multiplicity ls e.1) 0
  let bytes := stores.foldl (fun n e => n + multiplicity ls e.1 * maxAlloc p e.2.a) 0
  words ≤ 1048576 && count ≤ 16 && bytes ≤ 65536

/-- The cell budget of R105: the rounded sizes of all ALLOC words. -/
def cellBudget (p : List ZInstr) : Nat := p.foldl (fun n z => if z.kind == .alloc then n + round64 z.imm else n) 0

/-- The home of a turn is a bolt store (R104): a big-number instruction and no lattice or code-based one. -/
def homeIsBolt (p : List ZInstr) : Bool :=
  p.any (fun z => 0x60 ≤ z.kind.op && z.kind.op ≤ 0x76) && !p.any (fun z => 0x30 ≤ z.kind.op && z.kind.op ≤ 0x46)

/-- Steps 3 to 7 of R98 on the words of a program: the status and PC of a refusal, or the decoded program. -/
def decodeProgram (ws : List DWord) : Except (Nat × Status) (List ZInstr) :=
  match decodeWords 0 ws with
  | .error e => .error e
  | .ok p =>
    match wordFaults p with
    | pc :: _ => .error (pc, 0x1001)
    | [] =>
      if !limitsOk p then .error (0x1FFF, 0x1001)
      else if (if homeIsBolt p then 32768 else 131072) < cellBudget p then .error (0x1FFF, 0x2020)
      else .ok p

end Sys2Proof.Machine
end

