-- ==== Sys2Proof/Machine/State.lean ====
section
/-! DEFINITION. The state of the block as plain data: the queue of commands, the permanent memories (fuses and user flash) and the
device, one structure per block of BAR0 and per agent, with the values after reset. INVENTORY.md lists every field with its rule. -/

namespace Sys2Proof.Machine

/-- Why a command stops. -/
inductive Fault where
  /-- Raised by a meaning whose command names an event that the state rules out: no such turn, no such read outstanding, a
  level that the pin already has. Safe: the device has no such event. -/
  | cannotOccur
  deriving DecidableEq, Repr

/-- Why a command has no meaning. -/
inductive Refusal where
  /-- Raised by an arm of `exec` that has no meaning yet. Safe. -/
  | notModelled (mnemonic : String)
  deriving DecidableEq, Repr

/-! ### What leaves the die -/

/-- Everything the block sends: the log that a reader of the model sees (the model's own, log entry 2). -/
inductive Out where
  /-- completion of a register or window read -/
  | readData (value : Nat)
  /-- an access completed with Unsupported Request, or a write dropped, because nothing serves it -/
  | notServed
  /-- an access that stalls at its link while the module retrains (R43) -/
  | stalled
  /-- a configuration read answered with Retry Status (R40) -/
  | retryStatus
  /-- a configuration read answered -/
  | configData (value : Word)
  /-- a DMA read request (R47) -/
  | dmaRead (m tag : Nat) (pasid : Option Nat) (addr len : Nat)
  /-- a DMA write handed to the link (R47, R459) -/
  | dmaWrite (m : Nat) (pasid : Option Nat) (addr : Nat) (data : Bytes)
  /-- an MSI-X message (R51, R52) -/
  | msix (m : Nat) (vector addr data : Nat)
  /-- a latch ring frame (R448) -/
  | ring (frame : Bytes)
  /-- a line of the Klozor monitor (R433) -/
  | monitor (text : String) (values : List Nat)
  /-- bits shifted out of TDO (R454) -/
  | tdo (value : Nat) (len : Nat)
  deriving DecidableEq, Repr

/-! ### Turns (R94 to R120, R174) -/

/-- A cell (R103): its size, its valid bytes, and whether it is a state cell (R153). -/
structure Cell where
  size : Nat
  data : Bytes := []
  state : Bool := false
  deriving DecidableEq, Repr

/-- A REPEAT under way (R136): first word, body words, count, index. -/
structure Rep where
  first : Nat
  len : Nat
  count : Nat
  i : Nat
  deriving DecidableEq, Repr

/-- A write held until END (R111, R151), with the spill units that hold a public key's data until then (R235). -/
structure Deferred where
  addr : Nat
  data : Bytes
  units : List Nat := []
  deriving DecidableEq, Repr

/-- A change of the keyway waiting for its commit and edge (R307). -/
inductive KwChange where
  | load (key : Bytes) (attr alg : Nat) (exportable : Bool)
  | rebind (attr : Nat) (exportable : Bool)
  | clear
  deriving DecidableEq, Repr

/-- What an instruction does besides its cells, once its last stroke ends (R171). -/
inductive Eff where
  /-- MAC.KEYSTATE: algorithm code and the two key states (R156, R248) -/
  | keyState (slot alg : Nat) (inner outer : Bytes)
  /-- CTX.SAVE VAULT: algorithm code or 0xFF and the bytes (R276) -/
  | ctxVault (slot code : Nat) (data : Bytes)
  /-- a keyway change to commit (R143) -/
  | keyway (c : KwChange)
  /-- a public key to write at END (R151) -/
  | deferPub (addr : Nat) (data : Bytes)
  /-- BN.SETMOD (R162) -/
  | modulus (cls n : Nat)
  /-- an invariant failed on bolt `n` (R266) -/
  | invariant (n : Nat)
  /-- an engine refusal of class 1 counted on bolt `n` (R270) -/
  | refusal (n : Nat)
  deriving DecidableEq, Repr

/-- The outcome of an instruction: its status, the cells it writes (number, bytes, state cell), and its other effects. -/
structure Result where
  status : Status := 0
  outs : List (Nat × Bytes × Bool) := []
  effs : List Eff := []
  deriving DecidableEq, Repr

/-- How an operation takes engines (R178): one engine a stroke, all at one edge, or as many as are free. -/
inductive Shape where
  | single
  | gang (k : Nat)
  | elastic
  deriving DecidableEq, Repr

/-- The micro-state that a sequencer carries from one stroke to the next (R171, R386, R387, R389): bits [12:0] of the micro-PC and its space
bit [13], flags and the four loop counters. -/
structure MicroState where
  pc : Nat := 0
  patch : Bool := false
  flags : Nat := 0
  ctr : List Nat := [0, 0, 0, 0]
  deriving DecidableEq, Repr

/-- A section that a sequencer runs (R386, R391): its version, its enabled hooks as ROM address and patch address, and the words of the patch
store from address 0 on. The empty section is ROM only. -/
structure Section where
  version : Nat := 0
  hooks : List (Nat × Nat) := []
  words : List (BitVec 192) := []
  deriving DecidableEq, Repr

/-- A masked value in a working frame (R203): Boolean shares of a byte string, or arithmetic shares of coefficients modulo q. A public value
lies on the first share, the other two zero (R204). -/
inductive Secret where
  | bits (x : Sh Bytes)
  | coeffs (q : Nat) (x : Sh (List Nat))
  deriving DecidableEq, Repr

/-- An operation on engines: strokes still to dispatch, padding, frames, engines held, micro-state, and the outcome. -/
structure Op where
  z : ZInstr
  cls : Nat
  shape : Shape
  /-- strokes of one attempt (R148, R152) -/
  per : Nat
  /-- real strokes not yet dispatched, and those of the whole operation, both fixed at the first stroke -/
  left : Nat := 0
  total : Nat := 0
  /-- padding strokes that follow each attempt, fixed at the first stroke (R189, R190) -/
  pad : Nat := 0
  /-- padding strokes still to dispatch for the attempt that has ended -/
  padLeft : Nat := 0
  started : Bool := false
  /-- engines held (R180) -/
  engines : List EngineId := []
  /-- a stroke was dispatched at the last edge -/
  active : Bool := false
  /-- the tumbler or bolt whose working frames it holds, from its first stroke to its end (R197, R222, R258) -/
  unit : Option EngineId := none
  /-- its trap frame lies in this piece of 128 bytes of the shared part of vault memory (R183, R249) -/
  frame : Option Nat := none
  /-- its trapped micro-state stays in the idle bank of this engine, for want of a frame piece (R249) -/
  bank : Option EngineId := none
  /-- the engine micro-state of its sequencer (R389) -/
  micro : MicroState := {}
  /-- blocks that a hashing instruction feeds in all, fixed when it is issued (R244) -/
  blocks : Nat := 0
  /-- a fault has been injected into a stroke's result: whether it was the last stroke (R266, R267, R270) -/
  hit : Option Bool := none
  /-- the random bytes served for it, until its first stroke takes them (R132) -/
  rnd : Bytes := []
  /-- what its working frame holds: the shares of its secrets, by number (R196, R203, R208) -/
  frameData : Map Secret := []
  /-- attempts begun (R148) -/
  attempt : Nat := 0
  /-- the outcome, once fixed; of a masked operation only what its record reveals (R206, R208) -/
  result : Result := {}
  /-- the outputs of a masked operation that still lie in its frame as shares, by cell (R206) -/
  outShares : List (Nat × List Piece) := []
  deriving DecidableEq, Repr

/-- Where a turn stands. -/
inductive Phase where
  /-- its entry is being read (R173) -/
  | fetching
  /-- its program is being read (R96) -/
  | progRead
  /-- decode has passed; FENCE or NOT_BEFORE is not met (R97, R115) -/
  | blocked
  /-- ready, without a home (R105) -/
  | needHome
  /-- the word at PC runs next -/
  | exec
  /-- an operation is issued or trapped and waits for engines -/
  | ready
  /-- an operation holds engines -/
  | running
  /-- LOAD, or the stream of an operation, waits for data (R48) -/
  | waitDma
  /-- waits for random output since this many instants (R132, R296) -/
  | waitEntropy
  /-- a keyway change waits for its commit (R143) -/
  | waitCommit
  /-- its commit is durable and the change applies at the next edge (R307) -/
  | waitEdge
  /-- WAIT until this BEAT (R137) -/
  | waitDelay (wake : Nat)
  /-- FENCE, the instruction (R137) -/
  | waitFence
  /-- waits for spill units (R235) -/
  | waitSpill
  /-- waits for a public-key slice (R233) -/
  | waitSlice
  /-- ended; its writes and then its record are under way (R113) -/
  | closing
  deriving DecidableEq, Repr

/-- A turn in its turn slot (R174), with its cells. -/
structure Turn where
  leaf : Nat
  queue : Nat
  sqSlot : Nat
  /-- order of the fetch among all fetches (R115) -/
  fetchNo : Nat
  hdr : Header
  prio : Nat := 0
  prog : List ZInstr := []
  pc : Nat := 0
  reps : List Rep := []
  last : Status := 0
  /-- the first class-3 status and its PC (R109, R110) -/
  firstBad : Option (Status × Nat) := none
  beats : Nat := 0
  stored : Nat := 0
  lastLen : Nat := 0
  stamp : Option Nat := none
  bolt : Bool := false
  budget : Nat := 0
  home : Option Nat := none
  cells : Map Cell := []
  stores : List Deferred := []
  modulus : Option (Nat × Nat) := none
  op : Option Op := none
  phase : Phase := .fetching
  /-- an end due at the next edge (R49, R117, R201, R217) -/
  due : Option Status := none
  /-- a stroke has dispatched (R91) -/
  ran : Bool := false
  /-- DMA reads still awaited and the parts that have come, by offset -/
  awaiting : Nat := 0
  parts : Map Bytes := []
  /-- result writes and dirty-log updates not yet visible (R50) -/
  pendingW : Nat := 0
  /-- the status and PC that the record will carry, once the turn has ended -/
  ending : Option (Status × Nat) := none
  /-- a record is to be written (R116); false once RESET has aborted it (R73) -/
  wantsRecord : Bool := true
  /-- a RESET of its leaf aborts it at the next edge, unless it completes under R74 -/
  resetDue : Bool := false
  /-- the vault context slot that it has read in this beat (R276) -/
  vaultRead : Option Nat := none
  /-- the record, once its completion slot is assigned (R70, R119) -/
  record : Option Deferred := none
  /-- the record is in the write queue -/
  recordQueued : Bool := false
  /-- the beat in which its last stroke so far ended (R118) -/
  strokeBeat : Option Nat := none
  /-- it was ready at the last freeze point, or left its delay list there, and may stand in the dispatch set of the edge (R179, R185) -/
  woken : Bool := false
  /-- the END that ran waits for nothing but its writes: END was reached (R74) -/
  reachedEnd : Bool := false
  /-- WAIT_LIMIT instants spent waiting for entropy (R296) -/
  entropyWait : Nat := 0
  deriving DecidableEq, Repr

/-! ### DMA (R47 to R50, R459) -/

/-- The command blocks that run one job at a time. -/
inductive JobId where
  | hinge | keyway | hasp | interlock
  deriving DecidableEq, Repr

/-- What a DMA read is for. -/
inductive ReadWhy where
  /-- up to four submission entries of one queue, into these turn slots -/
  | entries (slots : List Nat)
  | prog (slot off : Nat)
  | load (slot off : Nat)
  | stream (slot off : Nat)
  | slice (slot off : Nat)
  | job (j : JobId) (off : Nat)
  | dlog (leaf : Nat)
  /-- its requester has ended; the data is discarded -/
  | dropped
  deriving DecidableEq, Repr

/-- A DMA read (R49): issued on the link now, and whether its timeout has begun to run. -/
structure DmaRead where
  tag : Nat
  pasid : Option Nat
  addr : Nat
  len : Nat
  why : ReadWhy
  issued : Bool := false
  timed : Bool := false
  deriving DecidableEq, Repr

/-- What a DMA write is for. -/
inductive WriteWhy where
  | result (slot : Nat)
  | record (slot : Nat)
  | dlog (leaf : Nat)
  | job (j : JobId)
  deriving DecidableEq, Repr

/-- A posted DMA write in its queue (R459). -/
structure DmaWrite where
  pasid : Option Nat
  addr : Nat
  data : Bytes
  why : WriteWhy
  deriving DecidableEq, Repr

/-- DMA engine m (R57): UL_DMA_CTL, UL_DMA_EVT, UL_DMA_ERRCNT, the reads and the queue of writes. -/
structure Dma where
  cto : Nat := 2
  evt : Nat := 0
  errcnt : Nat := 0
  nextTag : Nat := 0
  reads : List DmaRead := []
  writes : List DmaWrite := []
  deriving DecidableEq, Repr

/-- The link states of R57. -/
inductive LinkState where
  | reset | training | active | retrain | downRepair | downNoPartner | disabled
  deriving DecidableEq, Repr

/-- The code of UL_MOD_STAT.STATE (R57). -/
def LinkState.code : LinkState → Nat
  | .reset => 0 | .training => 1 | .active => 2 | .retrain => 3 | .downRepair => 4 | .downNoPartner => 5 | .disabled => 6

/-- UCIe module m (R57) and its PCIe function (R51). -/
structure Link where
  state : LinkState := .reset
  enable : Bool := true
  maxRate : Nat := 0
  repairEn : Bool := true
  rate : Nat := 0
  sparesTx : Nat := 0
  sparesRx : Nat := 0
  evt : Nat := 0
  retrains : Nat := 0
  /-- the partner's sideband is active -/
  partner : Bool := false
  /-- it has been ACTIVE since the reset -/
  wasUp : Bool := false
  /-- MSI-X enabled in configuration space (R51) -/
  msixEn : Bool := false
  /-- Max_Payload_Size (R47) -/
  mps : Nat := 512
  /-- other configuration registers that the host wrote, by number (PCI Express Base) -/
  cfg : Map Nat := []
  deriving DecidableEq, Repr

/-- One MSI-X entry: message address, data, mask and pending bit (R51, R52). -/
structure Vec where
  addr : Nat := 0
  data : Nat := 0
  mask : Bool := true
  pend : Bool := false
  /-- a message waits for its link (R459) -/
  wait : Bool := false
  deriving DecidableEq, Repr

/-- The UCIe and DMA block's shared part (R57): the staging registers of the leaf vector table, the table, and the hinge's. -/
structure Ul where
  index : Nat := 0
  addrLo : Nat := 0
  addrHi : Nat := 0
  data : Nat := 0
  /-- the leaf vector table by leaf × 4 + vector; unlisted entries are masked and zero (log entry 15) -/
  lvt : Map Vec := []
  /-- the hinge's MSI-X table by vector (R51); unlisted entries masked and zero (PRESUMED PCIe, log entry 14) -/
  msix : Map Vec := []
  deriving DecidableEq, Repr

/-! ### Leaves (R58 to R93) -/

/-- The leaf states of R58. -/
inductive LeafState where
  | free | active | quiescing | quiesced | exported | reserved
  deriving DecidableEq, Repr

/-- The code of a leaf state (R58). -/
def LeafState.code : LeafState → Nat
  | .free => 0 | .active => 1 | .quiescing => 2 | .quiesced => 3 | .exported => 4 | .reserved => 5

/-- One queue of a leaf (R68 to R70, R92, R120). -/
structure Queue where
  sqBase : Nat := 0
  cqBase : Nat := 0
  en : Bool := false
  floor : Nat := 0
  vector : Nat := 0
  sqLog : Nat := 0
  cqLog : Nat := 0
  sqHead : Nat := 0
  sqTail : Nat := 0
  cqHead : Nat := 0
  cqTail : Nat := 0
  /-- PHASE of the next record (R120) -/
  phase : Bool := true
  stopped : Bool := false
  deriving DecidableEq, Repr

/-- The keyway of a leaf (R301, R307). -/
structure Keyway where
  key : Bytes := []
  attr : Nat := 0
  alg : Nat := 0
  exportable : Bool := false
  loaded : Bool := false
  gen : Nat := 0
  deriving DecidableEq, Repr

/-- A keyway change under way (R307): the change (none once its turn was aborted, R308), the counter value it commits, the turn, and
whether the commit is durable. -/
structure KwPending where
  change : Option KwChange
  value : Nat
  slot : Nat
  durable : Bool := false
  /-- the counter before the change, shown until it takes effect -/
  was : Nat := 0
  deriving DecidableEq, Repr

/-- One pending update of a dirty-page bitmap (R83, R84): word address, bits, and the turn that waits for it. -/
structure DirtyUpd where
  addr : Nat
  mask : Nat
  slot : Option Nat
  deriving DecidableEq, Repr

/-- Dirty-page logging of a leaf (R82 to R84, R92). -/
structure Dlog where
  en : Bool := false
  bufB : Bool := false
  ovf : Bool := false
  harvest : Bool := false
  a : Nat := 0
  b : Nat := 0
  base : Nat := 0
  pages : Nat := 0
  /-- updates in order; the first is under way -/
  upd : List DirtyUpd := []
  /-- updates that the harvest under way still waits for (R84) -/
  harvestLeft : Nat := 0
  deriving DecidableEq, Repr

/-- A leaf that is not FREE, or whose meters are still readable (R76). -/
structure Leaf where
  state : LeafState := .free
  pasid : Nat := 0
  module : Nat := 0
  statusVec : Nat := 0
  /-- queues by number; unlisted ones hold the values of QCONFIG's reset -/
  queues : Map Queue := []
  /-- doorbells latched while the leaf is quiesced or cold, by queue (R58, R172) -/
  latched : Map Nat := []
  /-- meters of the five engine classes (R80) -/
  meters : List Nat := [0, 0, 0, 0, 0]
  /-- LF_STATUS bits 0, 1, 2 and 4 (R92) -/
  status : Nat := 0
  recLostQ : Nat := 0
  kw : Keyway := {}
  ltk : Bytes := []
  /-- H_L of R309 -/
  handle : Bytes := []
  dlog : Dlog := {}
  /-- the 8 vault context slots (R276): code and bytes -/
  ctx : Map (Nat × Bytes) := []
  /-- the BEAT and age stamp of the last write of each vault context slot (R276) -/
  ctxAt : Map (Nat × Nat) := []
  nonce : Bytes := []
  /-- HG_LEAF_CAUSE (R93) -/
  causes : Nat := 0
  /-- BEAT of the quiesce deadline (R91) -/
  deadline : Option Nat := none
  /-- RESET is under way: RESET_DONE is still to come (R73) -/
  resetting : Bool := false
  /-- DESTROY has committed and waits for the leaf's turns (R76) -/
  destroying : Bool := false
  /-- the keyway change under way (R307) -/
  change : Option KwPending := none
  /-- first slot and count of the key-state range (R246), and a range that waits for a unit (R249) -/
  slotBase : Nat := 0
  slotCount : Nat := 0
  hot : Bool := false
  /-- beat of the last dispatch (R78) -/
  lastDispatch : Nat := 0
  deriving DecidableEq, Repr

/-! ### Jobs of the command blocks (R61, R315, R336, R406) -/

/-- A run of hinge work on one engine (R65): engine class, strokes still to run, their number after padding on a blank group (R189), whether it needs
the mask or blinding generator (R209, R260), and the lane mode or length class that it works in (R194, R270). -/
structure Seg where
  cls : Nat
  n : Nat
  pad : Nat := 0
  masked : Bool := true
  mode : Nat := 0
  deriving DecidableEq, Repr

/-- Where a job stands. -/
inductive JobPhase where
  /-- its DMA reads are under way -/
  | reading
  /-- hinge work still to run, in order (R65) -/
  | working (work : List Seg)
  /-- a journal commit is under way -/
  | committing
  /-- its DMA writes are under way -/
  | writing
  /-- it waits for turns, dirty-log updates or an activity -/
  | waiting
  deriving DecidableEq, Repr

/-- A command that is running (BUSY is 1). -/
structure Job where
  op : Nat
  leaf : Nat := 0
  args : List Nat := []
  nonce : Bytes := []
  phase : JobPhase := .waiting
  awaiting : Nat := 0
  parts : Map Bytes := []
  /-- bytes the job has built (a blob, a statement) -/
  out : Bytes := []
  /-- the engine that holds a stroke of hinge work in this beat -/
  inStroke : Option EngineId := none
  /-- the engine that the segment under way keeps, with its working frame (R180, R197); trapped, the work waits for it (R188) -/
  unit : Option EngineId := none
  /-- the tumbler that its lattice work ran on, whose masks it takes (R209) -/
  tumbler : Nat := 0
  /-- the last strokes of the segment under way that are padding (R189) -/
  pads : Nat := 0
  /-- the micro-state of its sequencer (R389) -/
  micro : MicroState := {}
  /-- the whole work, for a restart (R65) -/
  plan : List Seg := []
  failed : Bool := false
  deriving DecidableEq, Repr

/-- The command registers that HG_, KW_, HS_, MI_ and CA_ share: STATUS, OVERRUN, the job. -/
structure CmdUnit where
  status : Nat := 0
  overrun : Bool := false
  job : Option Job := none
  args : List Nat := []
  res : Nat := 0
  deriving DecidableEq, Repr

/-- The hinge (R31, R93): identity registers that are written, leaf management, export buffers. -/
structure Hinge where
  vaultPage : Nat := 0
  scratch : Nat := 0
  selAny : Bool := false
  sel : Nat := 0
  mtrClass : Nat := 0
  nonce : List Nat := [0, 0, 0, 0]
  cmd : CmdUnit := { args := [0, 0, 0, 0, 0, 0, 0, 0] }
  /-- export buffers that hold a blob, by leaf (R87) -/
  blobs : Map Bytes := []
  deriving DecidableEq, Repr

/-! ### Scheduler (R167 to R192) -/

/-- The point of a beat that the device has reached (R171, R179). -/
inductive Tick where
  | begun | frozen | ended
  deriving DecidableEq, Repr

/-- Who takes engines at the next edge: a turn, or hinge work. -/
inductive Who where
  | turn (slot : Nat)
  | job (j : JobId)
  deriving DecidableEq, Repr

/-- One entry of the dispatch set fixed at the freeze point (R179): who, on which engines, and the engines taken from running turns for
it (R181, R182). -/
structure Plan where
  who : Who
  engines : List EngineId
  victims : List (Nat × EngineId) := []
  deriving DecidableEq, Repr

/-- The scheduler block (R192) and the timebase (R167, R169). -/
structure Sched where
  beat : Nat := 0
  beatB : Nat := 0
  tick : Tick := .ended
  lock : Bool := false
  gap : Nat := 1
  blank : Nat := 0
  limit : Nat := 16
  evt : Nat := 0
  busy : List Nat := [0, 0, 0, 0, 0]
  blanks : Nat := 0
  pads : Nat := 0
  preempts : Nat := 0
  nextStamp : Nat := 0
  nextFetch : Nat := 0
  /-- (leaf, queue) in order (R172) -/
  fetchList : List (Nat × Nat) := []
  /-- cold leaves that have become active, with the edges seen and the leaf to evict (R78) -/
  entering : List (Nat × Nat × Option Nat) := []
  plan : List Plan := []
  /-- the engines that started operations and hinge work kept at the last freeze point (R179) -/
  kept : List EngineId := []
  /-- the applied stage at the last freeze point, for the next edge (R414, R415) -/
  stage : Nat := 0
  /-- the stage in force since the last edge -/
  stageNow : Nat := 0
  /-- engines that held a stroke in the last beat (BB_BUSY, BK_BUSY) -/
  held : List EngineId := []
  deriving DecidableEq, Repr

/-! ### Engines -/

/-- The seed state of a mask or blinding generator (R209, R252, R260). -/
structure MaskGen where
  seeded : Bool := false
  /-- the 256-bit seed and the counter of its counter mode -/
  seed : Bytes := []
  ctr : Nat := 0
  starved : Bool := false
  due : Nat := 0
  reseeds : Nat := 0
  deriving DecidableEq, Repr

/-- A tumbler or a bolt (R219, R238, R270). -/
structure Engine where
  inService : Bool := false
  retired : Bool := false
  parked : Bool := false
  /-- out of service after a failed self-test (R188) -/
  failed : Bool := false
  /-- working frames released since the last freeze point, which no operation takes at the next edge (R197) -/
  dirtyFrames : Nat := 0
  /-- bytes of the cell pool released since the last edge, not yet zeroised (R106) -/
  dirtyBytes : Nat := 0
  /-- drained for a live patch, or stopped by stage 3 -/
  stopped : Bool := false
  /-- held in BLOCK reset (R27) -/
  inReset : Bool := false
  injectKind : Nat := 0
  /-- an injection armed for the next store write or stroke (R219, R270) -/
  armed : Option Nat := none
  scrubEn : Bool := true
  scrubPos : Nat := 0
  scrubPasses : Nat := 0
  ce : Nat := 0
  rs : Nat := 0
  ue : Nat := 0
  evt : Nat := 0
  mask : MaskGen := {}
  strokes : Nat := 0
  kgAttempts : Nat := 0
  slices : Nat := 0
  /-- the mode of the stroke that runs: the lane mode of a tumbler, the length class of a bolt (R194, R219, R270) -/
  mode : Nat := 0
  /-- the lane or limb registers and the barrel states: zero between strokes (R171), in a stroke free contents from this number on -/
  lanes : Option Nat := none
  /-- the blank area of a tumbler: random data, free contents from this number on; zero after a BLOCK reset (R196, R198) -/
  blankData : Option Nat := none
  /-- the idle micro-state bank of its sequencer (R183, R385) -/
  idle : MicroState := {}
  /-- the bank whose section is loaded: none for ROM only, true for bank B (R393, R395) -/
  sect : Option Bool := none
  refusals : Nat := 0
  invariants : Nat := 0
  deriving DecidableEq, Repr

/-- A shared array of engines: the bank, the block array or the digest cores (R255, R280). -/
structure Array' where
  injectKind : Nat := 0
  armed : Option Nat := none
  evt : Nat := 0
  count : Nat := 0
  count2 : Nat := 0
  mask : MaskGen := {}
  /-- node buffers released since the last freeze point and not yet zeroised (R251) -/
  dirty : Nat := 0
  /-- the idle micro-state bank of the sequencer (R183, R385) -/
  idle : MicroState := {}
  /-- the bank whose section is loaded: none for ROM only, true for bank B (R393, R395) -/
  sect : Option Bool := none
  inReset : Bool := false
  /-- stopped for a live patch (R395) -/
  stopped : Bool := false
  /-- engines out of service, by number -/
  outA : List Nat := []
  outB : List Nat := []
  deriving DecidableEq, Repr

/-- One key-state slot (R247): empty, the first slot of a key state, or a continuation. -/
inductive KSlot where
  | first (alg : Nat) (inner outer : Bytes)
  | cont
  deriving DecidableEq, Repr

/-- Key-state slots and shared units (R246 to R249, R255). -/
structure Slots where
  sel : Nat := 0
  base : Nat := 0
  count : Nat := 0
  refused : Bool := false
  /-- the range that waits for a unit: leaf, base, count -/
  pend : Option (Nat × Nat × Nat) := none
  slots : Map KSlot := []
  stamps : Map Nat := []
  nextStamp : Nat := 0
  /-- units held as spill units, by turn slot -/
  spill : Map (List Nat) := []
  /-- released spill units with the BEAT by which they are zeroised (R235) -/
  zeroising : Map Nat := []
  deriving DecidableEq, Repr

/-! ### Entropy (R281 to R300) -/

/-- The states of a noise pin, in the order of their codes (R300). -/
inductive PinState where
  | off | active | standby | restarting | held | retired | raw
  deriving DecidableEq, Repr

/-- The code of NS_PIN_STAT.STATE (R300). -/
def PinState.code : PinState → Nat
  | .off => 0 | .active => 1 | .standby => 2 | .restarting => 3 | .held => 4 | .retired => 5 | .raw => 6

/-- A noise pin (R283 to R285, R300). -/
structure Pin where
  state : PinState := .off
  consec : Nat := 0
  fails : Nat := 0
  lastTest : Nat := 0
  /-- its re-trim has ended and its startup block begins at the next boundary (R284) -/
  trimmed : Bool := false
  /-- the block under way is its startup block -/
  startup : Bool := false
  /-- the run of identical bits at the end of its last block (R283) -/
  run : Nat := 0
  lastBit : Bool := false
  deriving DecidableEq, Repr

/-- A noise channel (R281, R284, R300): online, the active pin (false: first), switches. -/
structure Chan where
  online : Bool := false
  sel : Bool := false
  switches : Nat := 0
  deriving DecidableEq, Repr

/-- A DRBG (R288). -/
structure Drbg where
  inst : Bool := false
  /-- the channel whose output is its entropy input, and that output, while it waits for its nonce -/
  input : Option (Nat × Bytes) := none
  /-- the Key and V of CTR_DRBG (SP 800-90A) -/
  key : Bytes := []
  v : Bytes := []
  requests : Nat := 0
  stopped : Bool := false
  reseedAll : Bool := false
  /-- the channel of its last reseed -/
  last : Option Nat := none
  deriving DecidableEq, Repr

/-- The output states in the order of their codes (R292). -/
inductive NsState where
  | starting | ready | low | stopped | reinst | raw | failed
  deriving DecidableEq, Repr

/-- The code of NS_STAT.STATE (R292). -/
def NsState.code : NsState → Nat
  | .starting => 0 | .ready => 1 | .low => 2 | .stopped => 3 | .reinst => 4 | .raw => 5 | .failed => 6

/-- The entropy block (R300). -/
structure Entropy where
  state : NsState := .starting
  waitLimit : Nat := 0x40
  lock : Bool := false
  /-- the cutoffs in force, as NS_TEST shows them: T 96, C 813 and C 61 but where a calibration record says otherwise (R283, R425) -/
  test : Nat := 0x60CB7D00
  evt : Nat := 0
  pins : List Pin := List.replicate 32 {}
  chans : List Chan := List.replicate 14 {}
  drbgs : List Drbg := List.replicate 64 {}
  /-- the next DRBG of each region's rotation (R288) -/
  rotWindow : Nat := 0
  rotInternal : Nat := 48
  /-- the channel from which the next conditioned output is taken (R288) -/
  chanRot : Nat := 0
  /-- 64-byte lines that wait in the window region and in the internal region (R289) -/
  window : List Bytes := []
  internal : List Bytes := []
  /-- the prefetch registers of modules 0 and 1, each the next window line (R290) -/
  pre0 : Option Bytes := none
  pre1 : Option Bytes := none
  lines : Nat := 0
  reseeds : Nat := 0
  /-- random-window reads held: module, leaf, bytes; 0 bytes where it completes with zeros (R291) -/
  held : List (Nat × Nat × Nat) := []
  /-- the conditioned outputs of the master pins whose block of the last period passed, by pin (R286, R287) -/
  masters : Map Bytes := []
  /-- a master pin has reached 4 failures: root key generation is blocked (R285) -/
  rootBlocked : Bool := false
  /-- root material is asked for, and its value once formed (R286) -/
  rootWanted : Bool := false
  root : Option Bytes := none
  /-- a raw capture that waits for its boundary: the pin (R297) -/
  rawWait : Option Nat := none
  rawPin : Nat := 0
  rawActive : Bool := false
  rawDone : Bool := false
  rawAddr : Nat := 0
  /-- the raw buffer: the blocks of the captured pin, first first (R297) -/
  raw : List (BitVec 1024) := []
  /-- the state of the captured pin before its capture (R285, R400) -/
  rawPrev : PinState := .off
  /-- READY has been entered since the reset (R293) -/
  wasReady : Bool := false
  /-- the 1 ms of R295 has passed -/
  timedOut : Bool := false
  /-- the known-answer tests of the conditioners and AES cores have failed (R295) -/
  katBad : Bool := false
  deriving DecidableEq, Repr

/-! ### Keys, life cycle, tamper, collector -/

/-- Keyway admin and identity (R308 to R315). -/
structure KwAdmin where
  cmd : CmdUnit := { args := [0, 0, 0, 0] }
  epoch : Nat := 0
  valid : Bool := false
  cert : Bytes := []
  /-- the sealed root blobs in MRAM: AES-256-GCM under the root key; empty before the first IDGEN (R310) -/
  blob : Bytes := []
  /-- the root key, in SRAM since boot (R310) -/
  root : Bytes := []
  /-- an uncorrectable line was found among the sealed root blobs: they fail their tag at the next boot (R312, R378) -/
  blobBad : Bool := false
  digest : Bytes := []
  pubs : Bytes := []
  /-- the working copy in SRAM of what the sealed blobs hold: the seeds of the identity key pairs (R310) -/
  seeds : Bytes := []
  cuts : Nat := 0
  stale : Nat := 0
  integrity : Nat := 0
  evt : Nat := 0
  deriving DecidableEq, Repr

/-- A transition under way (R322 to R326): target value, and the step it has reached. -/
structure Trans where
  target : Nat
  ticket : Nat
  /-- 0: odd burn due; 1 to 8: wipe steps; 9: even burn due -/
  step : Nat
  tries : Nat := 0
  deriving DecidableEq, Repr

/-- Hasp and debug opening (R317 to R336). -/
structure Hasp where
  rights : Nat := 0
  cmd : CmdUnit := { args := [0, 0, 0, 0] }
  boot : Nat := 0
  evt : Nat := 0
  intkeys : Bytes := []
  trans : Option Trans := none
  wipeTarget : Nat := 0
  wipeStep : Nat := 0
  disagree : Nat := 0
  deriving DecidableEq, Repr

/-- One tamper source (R337 to R342). -/
structure TSrc where
  cfg : Nat := 0
  count : Nat := 0
  openW : Bool := false
  /-- the tick at which the window opened -/
  opened : Nat := 0
  /-- a threshold change has settled (R342) -/
  settling : Bool := false
  armed : Bool := true
  deriving DecidableEq, Repr

/-- A word of TP_SRC_CFG (R349). -/
def srcCfgWord (en : Bool) (resp n w : Nat) : Nat := b2n en * 2 ^ 31 + resp * 2 ^ 29 + n * 2 ^ 16 + w

/-- The sources at always-on power-up (R347); the rail and clock sensors are not armed yet (R340). -/
def tamperDefaults : List TSrc :=
  (List.range 32).map fun s =>
    if s < 8 then { cfg := srcCfgWord true 0 2 1 }
    else if s < 18 then { cfg := srcCfgWord true 0 4 1, armed := false }
    else if s < 20 then { cfg := srcCfgWord true 0 8 32 }
    else if s < 28 then { cfg := srcCfgWord true 0 1 1 }
    else { cfg := srcCfgWord false 0 1 1 }

/-- Ward and tamper (R349), held in the always-on island but for LOCK, EVT and the ward state. -/
structure Tamper where
  lock : Bool := false
  rekeys : Nat := 0
  rekeyWanted : Bool := false
  sticky : Nat := 0
  bktrig : Nat := 0
  pendInt : Bool := false
  pendShackle : Bool := false
  bkFirst : Nat := 0
  bkFirstSrc : Nat := 0
  bkLast : Nat := 0
  bkLastSrc : Nat := 0
  bkCount : Nat := 0
  evt : Nat := 0
  wardLast : Nat := 0
  srcs : List TSrc := tamperDefaults
  /-- the 128-bit ward key; none: the fixed key held in the ward driver (R338) -/
  wardKey : Option Bytes := none
  /-- POL changed: lines masked (R446) -/
  polMask : Nat := 0
  deriving DecidableEq, Repr

/-- Fault collector (R350 to R363). -/
structure Collector where
  sticky : BitVec 1536 := 0
  cfg : Map Nat := []
  lock : Bool := false
  /-- raises in their domains, not yet synchronised (R353) -/
  incoming : List Raise := []
  firstValid : Bool := false
  first : Nat := 0
  count : Nat := 0
  cause : Nat := 0
  causeSrc : Nat := 0
  shackled : Bool := false
  shValid : Bool := false
  shSrc : Nat := 0
  evt : Nat := 0
  /-- traps waiting for the management core (R353) -/
  traps : List Nat := []
  alive : Bool := false
  aliveStopped : Bool := false
  /-- blocks held in a BLOCK reset (R354) -/
  resets : List BlockId := []
  deriving DecidableEq, Repr

/-! ### Non-volatile state -/

/-- Who asked for a journal commit. -/
inductive CommitWhy where
  | keyway (leaf : Nat)
  | job (j : JobId)
  | none
  deriving DecidableEq, Repr

/-- The value that a commit changes (R368, R370). -/
inductive CommitVal where
  | cut (leaf value : Nat)
  | leafGen (leaf gen : Nat) (live : Bool) (cutVal : Nat)
  | bootCount (n : Nat)
  | fwVersion (n : Nat)
  | patchVersion (cls n : Nat)
  | epoch (n : Nat)
  | intkeys (bs : Bytes)
  | skipMarker
  | clear
  deriving DecidableEq, Repr

/-- A commit in the queue of the NV controller. -/
structure Commit where
  val : CommitVal
  why : CommitWhy := .none
  deriving DecidableEq, Repr

/-- An evidence record (R379): TYPE, PINNED, BACKUP, the collector source, BEAT, boot count, tick and DATA words. -/
structure Evidence where
  kind : Nat
  src : Nat := 0xFFFF
  beat : Nat := 0
  boot : Nat := 0
  rtc : Nat := 0
  data : List Nat := []
  seq : Nat := 0
  pinned : Bool := false
  backup : Bool := false
  deriving DecidableEq, Repr

/-- A journal record (R368, R369): SEQ, TYPE, FLAGS, INDEX, VALUE, GEN, LIVE and HWM. -/
structure JRec where
  seq : Nat := 0
  kind : Nat
  copy : Bool := false
  second : Bool := false
  index : Nat := 0
  value : Nat := 0
  gen : Nat := 0
  live : Bool := false
  hwm : Nat := 0
  deriving DecidableEq, Repr

/-- NV controller (R364 to R384). -/
structure Nv where
  ready : Bool := false
  inhibit : Bool := false
  rate : Nat := 7
  /-- the budget of R372 in units of 1/32 commit, and the tick at which it was last refilled -/
  bucket : Nat := 2097152
  bucketAt : Nat := 0
  lock : Bool := false
  queue : List Commit := []
  current : Option Commit := none
  seq : Nat := 0
  /-- the SEQ of the latest record of each counter (R368, R373): leaf l at l, the boot count at 4,096, the duplex counters above it -/
  jidx : Map Nat := []
  /-- the records of the journal by ring line (R369, R373), and the highest cut counter committed -/
  journal : Map JRec := []
  hwm : Nat := 0
  /-- cut counter and generation by leaf number, and live flags: the SRAM copy of the journal (R368) -/
  cuts : Map Nat := []
  gens : Map Nat := []
  lives : List Nat := []
  fwVer : Nat := 0
  patchVer : List Nat := [0, 0, 0, 0]
  ce : Nat := 0
  rs : Nat := 0
  ue : Nat := 0
  relocs : Nat := 0
  skips : Nat := 0
  skipped : Bool := false
  evt : Nat := 0
  scrubActive : Bool := false
  scrubPasses : Nat := 0
  scrubLine : Nat := 0
  /-- the tail line was cut while its body was written (R374): the next boot scan discards it -/
  tailCut : Bool := false
  /-- evidence lines written, by slot, and those waiting to be written -/
  evl : Map Evidence := []
  evq : List Evidence := []
  evHead : Nat := 0
  evSeq : Nat := 0
  evWraps : Nat := 0
  evPinned : Nat := 0
  evIndex : Nat := 0
  evData : List Nat := List.replicate 16 0
  ufLine : Nat := 0
  ufBuf : List Nat := List.replicate 16 0
  ufBusy : Nat := 0
  ufUe : Bool := false
  deriving DecidableEq, Repr

/-! ### Maintenance -/

/-- A maintenance request (R400 to R402). -/
structure Req where
  op : Nat
  cls : ActClass
  ticket : Nat
  args : List Nat := []
  /-- a transition's target (R323) -/
  target : Nat := 0
  /-- its end, once its work has ended -/
  ended : Option Nat := none
  deriving DecidableEq, Repr

/-- A ticket (R402, R406): 1 waiting, 2 running, 3 finished. -/
structure Ticket where
  state : Nat
  op : Nat
  status : Nat := 0
  deriving DecidableEq, Repr

/-- A live patch pass (R395, R396). -/
structure Pass where
  ticket : Nat
  classes : List Nat
  cls : Nat
  engine : Nat
  toB : Bool
  drain : Bool
  deadline : Nat
  /-- 0: draining; 1: loading and self-test -/
  step : Nat
  /-- engines switched so far, as class × 64 + engine -/
  done : List Nat := []
  /-- the pass has failed and is being reverted (R396) -/
  revert : Bool := false
  /-- the aborts of the drain deadline have been made -/
  late : Bool := false
  deriving DecidableEq, Repr

/-- Maintenance interlock (R406). -/
structure Inter where
  cmd : CmdUnit := { args := [0, 0, 0, 0] }
  queue : List Req := []
  running : List Req := []
  tickets : Map Ticket := []
  lastTicket : Nat := 0
  sel : Nat := 0
  evt : Nat := 0
  done : Nat := 0
  deriving DecidableEq, Repr

/-- A control-store class of the microcode block (R407). -/
structure McClass where
  bank : Nat := 0
  held : Bool := false
  run : Nat := 0
  verA : Option Nat := none
  verB : Option Nat := none
  /-- the staging copies of both banks' sections (R392) -/
  secA : Section := {}
  secB : Section := {}
  deriving DecidableEq, Repr

/-- Microcode and firmware (R407). -/
structure Micro where
  bank : Nat := 0
  healthy : Bool := false
  swapping : Option Nat := none
  halted : Bool := false
  /-- the boot ROM found no firmware that it may run and serves in its place (R393) -/
  romOnly : Bool := false
  verA : Option Nat := some 0
  verB : Option Nat := none
  classes : List McClass := List.replicate 4 {}
  pass : Option Pass := none
  traceEn : Bool := false
  traceSeq : Nat := 0
  /-- entries captured: BEAT [13:0] and the micro-PC of an executed word (R404) -/
  trace : List (Nat × Nat) := []
  tracePos : Nat := 0
  evt : Nat := 0
  deriving DecidableEq, Repr

/-! ### Power, calibration, monitor, pins -/

/-- Power and shedding (R424), with the rails, the clocks and the boot phase. -/
structure Power where
  /-- VDD_CORE is below its power-on-reset level (R410) -/
  off : Bool := false
  core : Bool := true
  sram : Bool := true
  ucie : Bool := true
  io : Bool := true
  vbatOk : Bool := true
  /-- VBAT is above 2.2 V -/
  vbat : Bool := true
  mv : Nat := 750
  sensed : Nat := 0
  thermal : Nat := 0
  applied : Nat := 0
  lifeHold : Bool := false
  tempNow : Int := 0
  tempMax : Int := 0
  warn : Nat := 0x6A
  crit : Nat := 0x70
  lock : Bool := false
  stageCnt : List Nat := [0, 0, 0]
  evt : Nat := 0
  hkPll : Bool := false
  engPll : Bool := false
  rstN : Bool := false
  /-- 0: in reset; 1: released; 2: boot ROM done; 3: firmware start done; 4: finished (R40) -/
  boot : Nat := 0
  deriving DecidableEq, Repr

/-- The always-on island's own registers (R420 to R424). -/
structure Aon where
  por : Bool := true
  vbatLow : Bool := false
  backupSeen : Bool := false
  onBackup : Bool := false
  /-- neither VDD_IO nor VBAT feeds the island (R420) -/
  dead : Bool := false
  /-- sources that boot firmware raises from always-on records at the next boot (R420, R422, R423) -/
  owed : List Nat := [1435]
  rtc : Nat := 0
  /-- the vault key share, 256 bits; empty while there is none (R310) -/
  share : Bytes := []
  pol : Nat := 0
  tamperIn : Nat := 0
  deriving DecidableEq, Repr

/-- A calibration write command that waits or runs (R429): opcode, item, value, what its line writes meet in order (R367), and whether
the monitor gave it. -/
structure CalJob where
  op : Nat
  code : Nat := 0
  inst : Nat := 0
  value : Bytes := []
  fails : List Bool := []
  monitor : Bool := false
  deriving DecidableEq, Repr

/-- A calibration record in force (R426): its value. -/
structure CalRec where
  value : Bytes
  deriving DecidableEq, Repr

/-- A line of a calibration region (R426): SEQ, FLAGS.VALID and the value. -/
structure CalLine where
  seq : Nat
  valid : Bool
  value : Bytes
  deriving DecidableEq, Repr

/-- Calibration (R425 to R439). Keys are code × 64 + instance number. -/
structure Cal where
  cmd : CmdUnit := {}
  which : Nat := 0
  code : Nat := 0
  inst : Nat := 0
  value : List Nat := List.replicate 8 0
  factory : Map CalRec := []
  overlay : Map CalRec := []
  /-- the lines written to the two regions, by line number, those of the overlay region from 4,096 on (R364, R426) -/
  lines : Map CalLine := []
  /-- instances whose stored value is not yet in use (R430) -/
  pend : List Nat := []
  factoryBad : Bool := false
  /-- the factory calibration region has been erased (R322, step 6) -/
  erased : Bool := false
  overlayBad : Bool := false
  /-- instances whose factory record is unreadable (R427) -/
  lost : List Nat := []
  /-- write commands of the hinge and the monitor in order of arrival (R429) -/
  jobs : List CalJob := []
  evt : Nat := 0
  monLock : Bool := false
  monEn : Bool := true
  baud : Nat := 0
  /-- the rate in force before a MON_BAUD that no valid line has confirmed (R438) -/
  baudTrial : Bool := false
  deriving DecidableEq, Repr

/-- Latch ring and pins (R447 to R458). -/
structure Ring where
  lock : Bool := false
  tokenEn : Bool := true
  mgmtEn : Bool := true
  addr : Nat := 0x10
  alarmActive : Bool := false
  alarmSrc : Nat := 0
  alarmLevel : Nat := 0
  evt : Nat := 0
  crcErrs : Nat := 0
  drops : Nat := 0
  rx : Nat := 0
  /-- own frames waiting, a frame to forward -/
  own : List Bytes := []
  fwd : Option Bytes := none
  passOpen : Bool := false
  /-- an own frame is being sent, until the next idle step (R449; log entry 4) -/
  sending : Bool := false
  deriving DecidableEq, Repr

/-- The instructions of the TAP (R454, R455). -/
inductive TapIr where
  | idcode | extest | sample | highz | clamp | jtagOpen | jtagStatus | bypass
  | secure (opcode : Nat)
  deriving DecidableEq, Repr

/-- JTAG (R454, R455): instruction register, boundary register. -/
structure Tap where
  ir : TapIr := .idcode
  boundary : Nat := 0
  deriving DecidableEq, Repr

/-- The staged and shadowed halves of register pairs (R21, R23): shadow by (port, offset). -/
structure Pairs where
  shadow : Map Nat := []
  staged : Map Nat := []
  deriving DecidableEq, Repr

/-- The memories that only a burn or a user flash write changes: the three fuse rows of the hasp (R317), one bit a position, and the
user flash (R382) by byte address. -/
structure Perm where
  row0 : BitVec 8 := 0
  row1 : BitVec 8 := 0
  row2 : BitVec 8 := 0
  /-- every fuse of the device secret is burned (R322, step 5) -/
  secretBurned : Bool := false
  flash : Mem := []
  deriving DecidableEq, Repr

/-- The device: everything but the queue of commands. -/
structure Device where
  perm : Perm := {}
  power : Power := {}
  link0 : Link := {}
  link1 : Link := {}
  dma0 : Dma := {}
  dma1 : Dma := {}
  ul : Ul := {}
  hg : Hinge := {}
  leaves : Map Leaf := []
  sc : Sched := {}
  turns : Map Turn := []
  tu : List Engine := List.replicate 32 {}
  bo : List Engine := List.replicate 16 {}
  bb : Array' := {}
  bk : Array' := {}
  dg : Array' := {}
  slots : Slots := {}
  ns : Entropy := {}
  kw : KwAdmin := {}
  hs : Hasp := {}
  tp : Tamper := {}
  fc : Collector := {}
  nv : Nv := {}
  vault : Mem := []
  mi : Inter := {}
  mc : Micro := {}
  ca : Cal := {}
  lr : Ring := {}
  jt : Tap := {}
  aon : Aon := {}
  pairs : Pairs := {}
  out : List Out := []
  /-- the MODEL's own counter of free values drawn (log entry 3) -/
  fresh : Nat := 0
  deriving DecidableEq, Repr

/-- The whole state: the commands that wait, first in first out, and the device. -/
structure State where
  pending : List Instr := []
  dev : Device := {}
  deriving DecidableEq, Repr

/-- The block right after reset: the rails are good, RST_N is low (R443), and every field holds the value its structure gives: the
reset column of its register table, or the value that a log entry names (entries 9 to 19). The queue is empty. -/
def State.reset : State := {}

end Sys2Proof.Machine
end

