-- ==== Sys2Proof/Machine/Ops.lean ====
section
/-! DEFINITION. The named operations over the device that every meaning uses: raising a source, sending a message, drawing free
bytes, reading and changing links, leaves, turns and engines, and how a meaning answers. -/

namespace Sys2Proof.Machine

/-! ### How a meaning answers -/

/-- The outcome of a command whose effect is `d`: the next state, or `cannotOccur` where the state rules the event out. What only a
burn or a flash write may change (the fuses, the user flash) is kept by construction. -/
def run (s : State) (can : Bool) (d : Device) : Host.Outcome State Fault Refusal :=
  if can then .next { s with dev := { d with perm := s.dev.perm } } else .fault .cannotOccur

/-- As `run`, for the few commands that burn fuses or write the user flash. -/
def runPerm (s : State) (can : Bool) (d : Device) : Host.Outcome State Fault Refusal :=
  if can then .next { s with dev := d } else .fault .cannotOccur

/-- Applies a change where a condition holds. -/
def Device.when (d : Device) (c : Bool) (f : Device → Device) : Device := if c then f d else d

/-! ### Leaving the die, raising, drawing -/

/-- Sends something off the die. -/
def Device.emit (d : Device) (o : Out) : Device := { d with out := d.out ++ [o] }

/-- A source is raised in its own domain (R350); FAULT_RAISE synchronises it (R353, R357). -/
def Device.raiseSrc (d : Device) (n : Nat) : Device := { d with fc := { d.fc with incoming := d.fc.incoming ++ [{ source := n }] } }

/-- A source is raised while a stroke of the turn in `slot` runs (R217). -/
def Device.raiseIn (d : Device) (n slot : Nat) : Device :=
  { d with fc := { d.fc with incoming := d.fc.incoming ++ [{ source := n, slot := some slot }] } }

/-- `n` free bytes, and the counter advanced past them (log entry 3). -/
def Device.draw (d : Device) (n : Nat) : Bytes × Device :=
  ((List.range n).map fun i => Config.freeByte (d.fresh + i), { d with fresh := d.fresh + n })

/-! ### Links and DMA engines -/

/-- UCIe module m. -/
def Device.link (d : Device) (m : Nat) : Link := if m = 0 then d.link0 else d.link1

/-- The device with a module's state changed. -/
def Device.onLink (d : Device) (m : Nat) (f : Link → Link) : Device :=
  if m = 0 then { d with link0 := f d.link0 } else { d with link1 := f d.link1 }

/-- DMA engine m. -/
def Device.dma (d : Device) (m : Nat) : Dma := if m = 0 then d.dma0 else d.dma1

/-- The device with a DMA engine changed. -/
def Device.onDma (d : Device) (m : Nat) (f : Dma → Dma) : Device :=
  if m = 0 then { d with dma0 := f d.dma0 } else { d with dma1 := f d.dma1 }

/-- The module is in ACTIVE. -/
def Device.linkUp (d : Device) (m : Nat) : Bool := (d.link m).state == .active

/-! ### Interrupt messages (R51 to R53) -/

/-- Sends hinge vector `v` (R51): pending while masked, waiting while module 0 is not up, nothing while MSI-X is disabled (PRESUMED
PCIe, log entry 14). -/
def Device.hingeMsi (d : Device) (v : Nat) : Device :=
  let e : Vec := Map.getD d.ul.msix v {}
  if !d.link0.msixEn then d
  else if e.mask then { d with ul := { d.ul with msix := Map.set d.ul.msix v { e with pend := true } } }
  else if d.linkUp 0 then d.emit (.msix 0 v e.addr e.data)
  else { d with ul := { d.ul with msix := Map.set d.ul.msix v { e with wait := true } } }

/-- Sends a message of leaf vector `v` of leaf `l`, bound to module `m` (R52, R53): pending while masked, one waiting while the
module is not up (R459). -/
def Device.leafMsi (d : Device) (l m v : Nat) : Device :=
  let i := l * 4 + v
  let e : Vec := Map.getD d.ul.lvt i {}
  if e.mask then { d with ul := { d.ul with lvt := Map.set d.ul.lvt i { e with pend := true } } }
  else if d.linkUp m then d.emit (.msix m i e.addr e.data)
  else { d with ul := { d.ul with lvt := Map.set d.ul.lvt i { e with wait := true } } }

/-- Some bit of `bits` is 0 in `old` (R51: a message only for a bit that goes from 0 to 1). -/
def rises (old bits : Nat) : Bool := (old ||| bits) != old

/-- Sets bits of UL_MOD_EVT and sends hinge vector 3 (R51, R57). -/
def Device.modEvt (d : Device) (m bits : Nat) : Device :=
  let old := (d.link m).evt
  (d.onLink m fun k => { k with evt := k.evt ||| bits }).when (rises old bits) (·.hingeMsi 3)

/-- Sets bits of UL_DMA_EVT and sends hinge vector 3 (R51, R57). -/
def Device.dmaEvt (d : Device) (m bits : Nat) : Device :=
  let old := (d.dma m).evt
  (d.onDma m fun k => { k with evt := k.evt ||| bits }).when (rises old bits) (·.hingeMsi 3)

/-- Sets bits of NS_EVT and sends hinge vector 5 (R51, R300). -/
def Device.nsEvt (d : Device) (bits : Nat) : Device :=
  let old := d.ns.evt
  ({ d with ns := { d.ns with evt := d.ns.evt ||| bits } } : Device).when (rises old bits) (·.hingeMsi 5)

/-- Sets bits of NV_EVT and sends hinge vector 6 (R51, R384). -/
def Device.nvEvt (d : Device) (bits : Nat) : Device :=
  let old := d.nv.evt
  ({ d with nv := { d.nv with evt := d.nv.evt ||| bits } } : Device).when (rises old bits) (·.hingeMsi 6)

/-- Sets bits of HS_EVT and sends hinge vector 7 (R51, R336). -/
def Device.hsEvt (d : Device) (bits : Nat) : Device :=
  let old := d.hs.evt
  ({ d with hs := { d.hs with evt := d.hs.evt ||| bits } } : Device).when (rises old bits) (·.hingeMsi 7)

/-- Sets bits of MC_EVT and sends hinge vector 2 (R51, R407). -/
def Device.mcEvt (d : Device) (bits : Nat) : Device :=
  let old := d.mc.evt
  ({ d with mc := { d.mc with evt := old ||| bits } } : Device).when (rises old bits) (·.hingeMsi 2)

/-- Sets bits of PW_EVT and sends hinge vector 4 (R51, R424). -/
def Device.powerEvt (d : Device) (bits : Nat) : Device :=
  let old := d.power.evt
  ({ d with power := { d.power with evt := old ||| bits } } : Device).when (rises old bits) (·.hingeMsi 4)

/-! ### Leaves -/

/-- Leaf l; an unlisted leaf is FREE with zero meters. -/
def Device.leaf (d : Device) (l : Nat) : Leaf := Map.getD d.leaves l {}

/-- The device with a leaf set. -/
def Device.setLeaf (d : Device) (l : Nat) (v : Leaf) : Device := { d with leaves := Map.set d.leaves l v }

/-- The device with a leaf changed. -/
def Device.onLeaf (d : Device) (l : Nat) (f : Leaf → Leaf) : Device := d.setLeaf l (f (d.leaf l))

/-- A queue of a leaf; an unlisted queue is as QCONFIG leaves none (R92 resets). -/
def Leaf.queue (l : Leaf) (q : Nat) : Queue := Map.getD l.queues q {}

/-- The leaf with a queue changed. -/
def Leaf.onQueue (l : Leaf) (q : Nat) (f : Queue → Queue) : Leaf := { l with queues := Map.set l.queues q (f (l.queue q)) }

/-- Sets causes of a leaf and sends the leaf's hinge vector 64 + (l mod 1,984) (R51, R93). -/
def Device.leafCause (d : Device) (l bits : Nat) : Device :=
  let old := (d.leaf l).causes
  (d.onLeaf l fun x => { x with causes := x.causes ||| bits }).when (rises old bits) (·.hingeMsi (64 + l % 1984))

/-- Sets bits of LF_STATUS and sends the leaf's status vector (R52, R92). -/
def Device.leafStatus (d : Device) (l bits : Nat) : Device :=
  let x := d.leaf l
  (d.onLeaf l fun x => { x with status := x.status ||| bits }).when (rises x.status bits) (·.leafMsi l x.module x.statusVec)

/-- The journalled cut counter of a leaf number (R59). -/
def Device.cut (d : Device) (l : Nat) : Nat := Map.getD d.nv.cuts l 0

/-- The journalled generation of a leaf number (R59). -/
def Device.gen (d : Device) (l : Nat) : Nat := Map.getD d.nv.gens l 0

/-- The leaf accepts window accesses: it exists (R58: ACTIVE, QUIESCING or QUIESCED). -/
def Leaf.serves (x : Leaf) : Bool := x.state == .active || x.state == .quiescing || x.state == .quiesced

/-! ### Turns -/

/-- The device with a turn changed. -/
def Device.onTurn (d : Device) (slot : Nat) (f : Turn → Turn) : Device := { d with turns := Map.modify d.turns slot f }

/-- The slots of the turns of a leaf. -/
def Device.turnsOf (d : Device) (l : Nat) : List Nat := (d.turns.filter fun e => e.2.leaf == l).map Prod.fst

/-- The turns in flight of a queue (R70, R174). -/
def Device.queueTurns (d : Device) (l q : Nat) : List (Nat × Turn) := d.turns.filter fun e => e.2.leaf == l && e.2.queue == q

/-- The lowest turn slot from `n` on that holds no turn. -/
def Device.freeSlot (d : Device) : Nat :=
  ((List.range 8192).find? fun i => (Map.get? d.turns i).isNone).getD 8192

/-! ### Engines -/

/-- Tumbler n. -/
def Device.tumbler (d : Device) (n : Nat) : Engine := nth d.tu n {}

/-- Bolt n. -/
def Device.bolt (d : Device) (n : Nat) : Engine := nth d.bo n {}

/-- The device with a tumbler changed. -/
def Device.onTu (d : Device) (n : Nat) (f : Engine → Engine) : Device := { d with tu := modifyAt d.tu n f }

/-- The device with a bolt changed. -/
def Device.onBo (d : Device) (n : Nat) (f : Engine → Engine) : Device := { d with bo := modifyAt d.bo n f }

/-- The engine class of a meter (R92): 0 tumbler, 1 bolt, 2 bank, 3 block array, 4 digest. -/
def EngineId.cls : EngineId → Nat
  | .tumbler _ => 0 | .bolt _ => 1 | .plainBarrel _ => 2 | .maskedBarrel _ => 2 | .aes _ => 3 | .mult _ => 3 | .sha256 _ => 4
  | .sha512 _ => 4

/-- The number of an engine among those of its kind. -/
def EngineId.num : EngineId → Nat
  | .tumbler n | .bolt n | .plainBarrel n | .maskedBarrel n | .aes n | .mult n | .sha256 n | .sha512 n => n

/-! ### Rights and life cycle (R317, R333) -/

/-- A hasp position reads as burned when two of its three rows are burned (R317). -/
def Perm.burned (p : Perm) (i : Nat) : Bool :=
  2 ≤ b2n (p.row0.getLsbD i) + b2n (p.row1.getLsbD i) + b2n (p.row2.getLsbD i)

/-- The hasp value: 1 plus the highest burned position, 0 if none (R317). -/
def Perm.hasp (p : Perm) : Nat := (List.range 8).foldl (fun v i => if p.burned i then i + 1 else v) 0

/-- The hasp value of the device (R317). -/
def Device.hasp (d : Device) : Nat := d.perm.hasp

/-- A right is held (R333). The bits are those of HS_RIGHTS (R332). -/
def Device.right (d : Device) (bit : Nat) : Bool := d.hs.rights.testBit bit

/-! ### Evidence (R379) -/

/-- Queues an evidence record for EVIDENCE_RECORD_WRITE (R379, R380). -/
def Device.evidence (d : Device) (kind src : Nat) (data : List Nat) : Device :=
  { d with nv := { d.nv with evq := d.nv.evq ++ [{ kind := kind, src := src, beat := d.sc.beat, boot := d.hs.boot, rtc := d.aon.rtc, data := data }] } }

/-! ### Commits (R370) -/

/-- Queues a journal commit. -/
def Device.commit (d : Device) (v : CommitVal) (w : CommitWhy) : Device :=
  { d with nv := { d.nv with queue := d.nv.queue ++ [{ val := v, why := w }] } }

end Sys2Proof.Machine
end

