-- ==== Sys2Proof/Machine/Status.lean ====
section
/-! DEFINITION. The status words of R122, by name. -/

namespace Sys2Proof.Machine.St

/-- DONE (R122): Finished. All results are written -/
abbrev done : Status := 0x0000
/-- QUEUED (R122): Maintenance request accepted behind a conflicting activity. A ticket is returned. *Microcode, Patches and Live Maintenance* -/
abbrev queued : Status := 0x00A0
/-- BAD_HEADER (R122): Turn header invalid (R95) -/
abbrev badHeader : Status := 0x1000
/-- BAD_PROGRAM (R122): Control structure or static limit broken (R101, R102, R112) -/
abbrev badProgram : Status := 0x1001
/-- BAD_OPCODE (R122): Major opcode or variant not defined -/
abbrev badOpcode : Status := 0x1002
/-- UNSUPPORTED (R122): Algorithm or parameter set not supported (R2) -/
abbrev unsupported : Status := 0x1003
/-- KEY_CHECK (R122): Key fails the input check that its standard requires. Engine chapters -/
abbrev keyCheck : Status := 0x1004
/-- BAD_ARGUMENT (R122): Hinge argument invalid (R62) -/
abbrev badArgument : Status := 0x1010
/-- BAD_CELL (R122): Cell field invalid, cell not allocated, or allocated twice (R100, R103) -/
abbrev badCell : Status := 0x1020
/-- BAD_LENGTH (R122): Cell length not accepted, or destination too small (R103) -/
abbrev badLength : Status := 0x1021
/-- LENGTH_MISMATCH (R122): Arriving stream differs from the declared length. *Barrel Bank, Digests and MACs* -/
abbrev lengthMismatch : Status := 0x1060
/-- REFUSED_ZERO (R122): Operand is zero. *Bolts: Big Numbers and Classical Public Key* -/
abbrev refusedZero : Status := 0x1070
/-- REFUSED_ONE (R122): Operand is one. Same chapter -/
abbrev refusedOne : Status := 0x1071
/-- REFUSED_RANGE (R122): Operand equal to or above the modulus or group order. Same chapter -/
abbrev refusedRange : Status := 0x1072
/-- REFUSED_OFF_CURVE (R122): Point not on the curve. Same chapter -/
abbrev refusedOffCurve : Status := 0x1073
/-- REFUSED_LOW_ORDER (R122): X25519 or X448 result is all zero. Same chapter -/
abbrev refusedLowOrder : Status := 0x1074
/-- REFUSED_MODULUS (R122): Modulus even or outside its length class. Same chapter -/
abbrev refusedModulus : Status := 0x1075
/-- CONTEXT_MISMATCH (R122): Saved context restored to the wrong engine class or algorithm. *Block Cipher Array* -/
abbrev contextMismatch : Status := 0x1080
/-- NO_LEAF (R122): No leaf number available (R63, R60) -/
abbrev noLeaf : Status := 0x2010
/-- EXPORT_BUFFERS_FULL (R122): All 16 export buffers hold blobs whose writes failed (R87) -/
abbrev exportBuffersFull : Status := 0x2011
/-- CELL_SPACE (R122): Cell budget too large (R105) -/
abbrev cellSpace : Status := 0x2020
/-- KEYWAY_EMPTY (R122): Keyway holds no key. *Keyway, Cut Messages and the Key Hierarchy* -/
abbrev keywayEmpty : Status := 0x2030
/-- SIGN_EXHAUSTED (R122): Every permitted ML-DSA signing attempt was rejected. *Tumblers: ML-KEM and ML-DSA* -/
abbrev signExhausted : Status := 0x2040
/-- SLOT_EMPTY (R122): HMAC key-state slot holds no key state. *Barrel Bank, Digests and MACs* -/
abbrev slotEmpty : Status := 0x2060
/-- ENTROPY_UNAVAILABLE (R122): No random output can be served. *Noise Pins and Random Output* -/
abbrev entropyUnavailable : Status := 0x2090
/-- INTERLOCK_FULL (R122): Eight maintenance requests are already pending. *Microcode, Patches and Live Maintenance* -/
abbrev interlockFull : Status := 0x20A1
/-- ADMISSION_SHED (R122): Turn not admitted during shedding. *Supplies, Shedding and the Backup Cell* -/
abbrev admissionShed : Status := 0x20A2
/-- TAG_MISMATCH (R122): CMP.CT found the compared values unequal -/
abbrev tagMismatch : Status := 0x3001
/-- SIG_INVALID (R122): Signature does not verify -/
abbrev sigInvalid : Status := 0x3002
/-- BLOB_INTEGRITY (R122): Migration blob fails binding, tag or nonce (R88) -/
abbrev blobIntegrity : Status := 0x3010
/-- IDENTITY_REJECTED (R122): Destination certificate rejected (R85) -/
abbrev identityRejected : Status := 0x3011
/-- CUT_INTEGRITY (R122): Cut message fails its tag. *Keyway, Cut Messages and the Key Hierarchy* -/
abbrev cutIntegrity : Status := 0x3030
/-- CUT_STALE (R122): Cut message carries a counter other than the next. Same chapter -/
abbrev cutStale : Status := 0x3031
/-- UNWRAP_INTEGRITY (R122): Wrapped program key fails its tag. Same chapter -/
abbrev unwrapIntegrity : Status := 0x3032
/-- CONTEXT_INTEGRITY (R122): Wrapped context fails its tag. *Block Cipher Array* -/
abbrev contextIntegrity : Status := 0x3080
/-- IMAGE_SIGNATURE (R122): Patch or firmware image signature fails. *Microcode, Patches and Live Maintenance* -/
abbrev imageSignature : Status := 0x30A0
/-- ROLLBACK (R122): Image version below its counter. Same chapter -/
abbrev rollback : Status := 0x30A1
/-- CERT_INVALID (R122): Opening certificate signature fails. *Life Cycle and Debug Opening* -/
abbrev certInvalid : Status := 0x30A2
/-- ABORT_CAP (R122): Beat cap reached (R108) -/
abbrev abortCap : Status := 0x4000
/-- ENGINE_RESET (R122): Engine BLOCK reset during the turn (R117), no engine of the home class in service (R397), or no engine of its class for hinge work (R65) -/
abbrev engineReset : Status := 0x4002
/-- LEAF_QUIESCE (R122): Turn ended by quiesce (R91) -/
abbrev leafQuiesce : Status := 0x4010
/-- INVARIANT_FAULT (R122): End-of-operation invariant check failed. No result is released. Engine chapters -/
abbrev invariantFault : Status := 0x5001
/-- ENGINE_FAULT (R122): Engine fault reported to the collector during the turn. *Fault Collection and Reaction* -/
abbrev engineFault : Status := 0x5002
/-- DMA_FAULT (R122): Host transfer failed (R49, R96, R113) -/
abbrev dmaFault : Status := 0x5020
/-- MEMORY_FAULT (R122): Uncorrectable error in a home store or vault memory -/
abbrev memoryFault : Status := 0x5021
/-- NV_FAULT (R122): MRAM write or read could not be completed. *Non-Volatile State Over Years* -/
abbrev nvFault : Status := 0x50A0
/-- LEAF_STATE (R122): Leaf or queue in the wrong state (R62, R68) -/
abbrev leafState : Status := 0x6010
/-- LIFE_BUSY (R122): Life-cycle transition under way (R64) -/
abbrev lifeBusy : Status := 0x6011
/-- KEYWAY_ATTR (R122): Keyway attribute forbids the use. *Keyway, Cut Messages and the Key Hierarchy* -/
abbrev keywayAttr : Status := 0x6030
/-- KEYWAY_ALG (R122): Keyway bound to another algorithm. Same chapter -/
abbrev keywayAlg : Status := 0x6031
/-- KEYWAY_NOT_EXPORTABLE (R122): EXPORT of a loaded keyway that is not exportable (R85), or a cut that would raise EXPORTABLE. Same chapter -/
abbrev keywayNotExportable : Status := 0x6032
/-- SLOT_NOT_OWNED (R122): HMAC slot belongs to another leaf. *Barrel Bank, Digests and MACs* -/
abbrev slotNotOwned : Status := 0x6060
/-- RIGHT_MISSING (R122): Action needs a right that is not held. *Life Cycle and Debug Opening* -/
abbrev rightMissing : Status := 0x60A0
/-- CERT_SCOPE (R122): Certificate names another device or a boot count outside its range. Same chapter -/
abbrev certScope : Status := 0x60A1
/-- STATE_FORBIDDEN (R122): Action not allowed in the current life-cycle state. Same chapter -/
abbrev stateForbidden : Status := 0x60A2

/-- The status words of R122, in its order: the only ones that the block returns (R121). -/
def table : List Status :=
  [done, queued, badHeader, badProgram, badOpcode, unsupported, keyCheck, badArgument, badCell, badLength, lengthMismatch, refusedZero,
   refusedOne, refusedRange, refusedOffCurve, refusedLowOrder, refusedModulus, contextMismatch, noLeaf, exportBuffersFull, cellSpace,
   keywayEmpty, signExhausted, slotEmpty, entropyUnavailable, interlockFull, admissionShed, tagMismatch, sigInvalid, blobIntegrity,
   identityRejected, cutIntegrity, cutStale, unwrapIntegrity, contextIntegrity, imageSignature, rollback, certInvalid, abortCap,
   engineReset, leafQuiesce, invariantFault, engineFault, dmaFault, memoryFault, nvFault, leafState, lifeBusy, keywayAttr, keywayAlg,
   keywayNotExportable, slotNotOwned, rightMissing, certScope, stateForbidden]

end Sys2Proof.Machine.St

namespace Sys2Proof.Machine

/-- The class of a status word (R121). -/
def statusClass (s : Status) : Nat := s.toNat / 4096

end Sys2Proof.Machine
end

