-- ==== Sys2Proof/Machine/Engine.lean ====
section
/-! DEFINITION. What the Zaxus instructions compute: the operand sizes, the checks before the first stroke (R125, R130, R246, R247), the
strokes they charge (R127) and the outcome of each (chapters 6 and 8 to 14). -/

namespace Sys2Proof.Machine

/-! ### Operand sizes (R152, R159, R161, R263) -/

/-- ML-KEM sizes by set: ek, dk, ciphertext (R152). -/
def mlkemSizes (set : Nat) : Nat × Nat × Nat := nth [(800, 1632, 768), (1184, 2400, 1088), (1568, 3168, 1568)] set (0, 0, 0)
/-- ML-DSA sizes by set: pk, sk, signature (R152). -/
def mldsaSizes (set : Nat) : Nat × Nat × Nat := nth [(1312, 2560, 2420), (1952, 4032, 3309), (2592, 4896, 4627)] set (0, 0, 0)
/-- HQC sizes by set: pk, sk, ciphertext (R152). -/
def hqcSizes (set : Nat) : Nat × Nat × Nat := nth [(2249, 2305, 4433), (4522, 4586, 8978), (7245, 7317, 14421)] set (0, 0, 0)
/-- HQC parameter n and the bytes of m by set (R228, R229). -/
def hqcN (set : Nat) : Nat × Nat := nth [(17669, 16), (35851, 24), (57637, 32)] set (0, 0)
/-- Classic McEliece sizes by set: public key, secret key, ciphertext (R152). -/
def mceSizes (set : Nat) : Nat × Nat × Nat :=
  nth [(261120, 6492, 96), (524160, 13608, 156), (1044992, 13932, 208), (1047319, 13948, 194), (1357824, 14120, 208)] set (0, 0, 0)
/-- Classic McEliece encapsulation by set: strokes, bytes of a slice and of the last slice (R232). -/
def mceSlices (set : Nat) : Nat × Nat × Nat :=
  nth [(4, 87040, 87040), (6, 105000, 104160), (10, 116180, 115552), (10, 116444, 115767), (12, 124032, 117504)] set (0, 0, 0)
/-- Classic McEliece key generation by set: elimination strokes, assembly strokes, spill units (R234). -/
def mceKeygenPlan (set : Nat) : Nat × Nat × Nat :=
  nth [(100, 40, 1), (210, 80, 2), (400, 160, 4), (420, 160, 4), (500, 200, 6)] set (0, 0, 0)
/-- The security parameter n of an SLH-DSA set (R158). -/
def slhN (set : Nat) : Nat := if set < 4 then 16 else if set < 8 then 24 else 32
/-- The bits of a length class (R161). -/
def classBits (c : Nat) : Nat := nth [255, 256, 384, 448, 521, 2048, 3072, 4096, 8192] c 0
/-- The bytes of an operand of a length class (R161). -/
def classBytes (c : Nat) : Nat := ceilDiv (classBits c) 8
/-- Bytes of an EdDSA key (R263). -/
def edBytes (c : Nat) : Nat := if c = 0 then 32 else 57
/-- The instruction's length class. -/
def ZInstr.cls (z : ZInstr) : Nat := field z.var 0 4
/-- The instruction's SEEDED or KEYWAY bit, VAR [7]. -/
def ZInstr.bit7 (z : ZInstr) : Bool := bitOf z.var 7
/-- The parameter set in VAR [1:0]. -/
def ZInstr.set2 (z : ZInstr) : Nat := field z.var 0 2
/-- The parameter set in VAR [3:0]. -/
def ZInstr.set4 (z : ZInstr) : Nat := field z.var 0 4
/-- The key bytes of BLK.ENC and BLK.DEC (R164). -/
def ZInstr.keyBytes (z : ZInstr) : Nat := 16 + 8 * z.set2
/-- Blocks a core takes in one beat (R164). -/
def ZInstr.perCore (z : ZInstr) : Nat := nth [102, 85, 73] z.set2 1

/-! ### Cells -/

/-- The cell of a turn. -/
def Turn.cell? (t : Turn) (c : Nat) : Option Cell := Map.get? t.cells c
/-- The size of a cell, 0 if it is not allocated. -/
def Turn.size (t : Turn) (c : Nat) : Nat := ((t.cell? c).map Cell.size).getD 0
/-- The valid bytes of a cell. -/
def Turn.bytes (t : Turn) (c : Nat) : Bytes := ((t.cell? c).map Cell.data).getD []
/-- The length of a cell. -/
def Turn.len (t : Turn) (c : Nat) : Nat := (t.bytes c).length
/-- The cell is a state cell (R153). -/
def Turn.isState (t : Turn) (c : Nat) : Bool := ((t.cell? c).map Cell.state).getD false
/-- The turn with a cell's bytes written and its length set (R103). -/
def Turn.write (t : Turn) (c : Nat) (bs : Bytes) (st : Bool := false) : Turn :=
  { t with cells := Map.modify t.cells c fun x => { x with data := bs, state := st } }

/-! ### The state record (R241) -/

/-- The state record of a state cell (R241). -/
structure HState where
  chain : Bytes
  alg : Nat
  closed : Bool := false
  mac : Bool := false
  squeezing : Bool := false
  slot : Nat := 0
  declared : Nat := 0
  fed : Nat := 0
  sqpos : Nat := 0
  stamp : Nat := 0
  deriving DecidableEq, Repr

/-- The 256 bytes of a state record (R241). -/
def HState.encode (h : HState) : Bytes :=
  fit 200 h.chain ++ leBytes h.alg 1 ++ leBytes (b2n h.closed + 2 * b2n h.mac + 4 * b2n h.squeezing) 1 ++ leBytes h.slot 2 ++
  leBytes h.declared 4 ++ leBytes h.fed 4 ++ leBytes h.sqpos 2 ++ leBytes h.stamp 6 ++ zeros 36

/-- The state record in a cell's bytes (R241). -/
def HState.decode (b : Bytes) : HState :=
  let f := u8 b 201
  { chain := slice b 0 200, alg := u8 b 200, closed := bitOf f 0, mac := bitOf f 1, squeezing := bitOf f 2, slot := u16 b 202,
    declared := u32 b 204, fed := u32 b 208, sqpos := u16 b 212, stamp := leNat (slice b 214 6) }

/-- The state record of a turn's cell. -/
def Turn.hstate (t : Turn) (c : Nat) : HState := HState.decode (t.bytes c)

/-- The stamp of a key-state slot (R247). -/
def Device.slotStamp (d : Device) (s : Nat) : Nat := Map.getD d.slots.stamps s 0

/-- The state as a feeding instruction finds it: a closed state restarts (R155, R245); none where a MAC state's slot no longer
holds a key state of its algorithm. -/
def Device.reopen (d : Device) (h : HState) : Option HState :=
  if !h.closed then some h
  else if !h.mac then some { h with chain := algInit h.alg, fed := 0, sqpos := 0, closed := false, squeezing := false }
  else match Map.get? d.slots.slots h.slot with
    | some (.first a i _) =>
      if a = h.alg then
        some { h with chain := i, fed := 0, sqpos := 0, closed := false, squeezing := false, stamp := d.slotStamp h.slot }
      else none
    | _ => none

/-- `n` bytes squeezed from a Keccak state with `pos` bytes of its rate block already out; fuel counts blocks (R155). -/
def squeezeOn (rate : Nat) : Nat → Bytes → Nat → Nat → Bytes × Bytes × Nat
  | 0, st, pos, _ => ([], st, pos)
  | k + 1, st, pos, n =>
    let avail := rate - pos
    if n ≤ avail then (slice st pos n, st, pos + n)
    else
      let r := squeezeOn rate k (keccakF st) 0 (n - avail)
      (slice st pos avail ++ r.1, r.2)

/-! ### Checks before the first stroke (R125, R130) -/

/-- The cells that a word names, with their roles; a signature run counts with DST (R159). -/
def ZInstr.named (z : ZInstr) : List (Nat × Role) :=
  let (rd, ra, rb) := z.roles
  (if rd == .none then [] else z.dstCells.map fun c => (c, rd)) ++
  ((if ra == .none || z.a == 0xFF then [] else [(z.a, ra)]) ++ (if rb == .none then [] else [(z.b, rb)]))

/-- The cells that must be state cells for an instruction, or may be (R153). -/
def ZInstr.stateCells (z : ZInstr) : List Nat × List Nat :=
  match z.kind with
  | .digestAbsorb | .digestStream => ([z.dst], [])
  | .digestFinal | .xofSqueeze | .macFinal => ([z.a], [])
  | .ctxSaveVault | .ctxSaveWrapped => ([], [z.a])
  | .free => ([], [z.dst])
  | _ => ([], [])

/-- State cells are used only as R153 and R242 allow. -/
def Turn.statesOk (t : Turn) (z : ZInstr) : Bool :=
  let (must, may) := z.stateCells
  z.named.all (fun e => if must.contains e.1 then t.isState e.1 else may.contains e.1 || !t.isState e.1) &&
  (match z.kind with
   | .digestFinal => (t.hstate z.a).alg < 8 && !(t.hstate z.a).mac
   | .xofSqueeze => 8 ≤ (t.hstate z.a).alg
   | .macFinal => (t.hstate z.a).mac
   | _ => true)

/-- The lengths of the sources and the sizes of the destinations are those that the instruction needs (R125 and the tables). CTX.SAVE
limits the size of its source, plain or state, to 256 bytes (DEDUCED from R241, log entry 82). -/
def Turn.lengthsOk (t : Turn) (z : ZInstr) : Bool :=
  let la := t.len z.a
  let lb := t.len z.b
  let sd := t.size z.dst
  let sa := t.size z.a
  let s := z.set2
  let cb := classBytes z.cls
  match z.kind with
  | .copyWhole => la ≤ sd
  | .copySlice => z.imm + sd ≤ la
  | .copyAppend => t.len z.dst + la ≤ sd
  | .copyCtr => la == 16 && 16 * z.imm ≤ sd
  | .zero | .randFill => z.imm ≤ sd
  | .xor => la == lb && la ≤ sd
  | .keywCut => la == 104
  | .keywWrap => 1 ≤ la && la ≤ 16352 && la + 32 ≤ sd
  | .keywUnwrap => 33 ≤ la && la ≤ 16384 && la ≤ sd + 32
  | .keywDerive =>
    let salt := u8 (t.bytes z.a) 0
    1 ≤ la && salt ≤ 64 && 1 + salt ≤ la && la ≤ 1 + salt + 1024 && z.imm ≤ sd
  | .mlkemKeygen => (mlkemSizes s).1 ≤ sd && (mlkemSizes s).2.1 ≤ sa && (!z.bit7 || lb == 64)
  | .mlkemEncaps => (mlkemSizes s).2.2 ≤ sd && 32 ≤ sa && lb == (mlkemSizes s).1 + (if z.bit7 then 32 else 0)
  | .mlkemDecaps => 32 ≤ sd && la == (mlkemSizes s).2.2 && lb == (mlkemSizes s).2.1
  | .mldsaKeygen => (mldsaSizes s).1 ≤ sd && (mldsaSizes s).2.1 ≤ sa && (!z.bit7 || lb == 32)
  | .mldsaSign =>
    let o := if z.bit7 then 32 else 0
    (mldsaSizes s).2.2 ≤ sd && lb == (mldsaSizes s).2.1 && o + 1 ≤ la && o + 1 + u8 (t.bytes z.a) o ≤ la
  | .mldsaVerify =>
    t.len z.dst == (mldsaSizes s).2.2 && lb == (mldsaSizes s).1 && 1 ≤ la && 1 + u8 (t.bytes z.a) 0 ≤ la
  | .hqcKeygen => (hqcSizes s).1 ≤ sd && (hqcSizes s).2.1 ≤ sa && (!z.bit7 || lb == 32)
  | .hqcEncaps => (hqcSizes s).2.2 ≤ sd && 64 ≤ sa && lb == (hqcSizes s).1 + (if z.bit7 then (hqcN s).2 + 16 else 0)
  | .hqcDecaps => 64 ≤ sd && la == (hqcSizes s).2.2 && lb == (hqcSizes s).2.1
  | .mceKeygen => (mceSizes z.set4).2.1 ≤ sd && (!z.bit7 || lb == 32)
  | .mceEncaps => (mceSizes z.set4).2.2 ≤ sd && 32 ≤ sa && (!z.bit7 || lb == 32)
  | .mceDecaps => 32 ≤ sd && la == (mceSizes z.set4).2.2 && lb == (mceSizes z.set4).2.1
  | .digestInit => 256 ≤ sd
  | .digestAbsorb => la % algBlock (t.hstate z.dst).alg == 0
  | .digestFinal | .macFinal => algDigest (t.hstate z.a).alg ≤ sd
  | .xofSqueeze => z.imm ≤ sd
  | .macKeystate => z.bit7 || la ≤ algBlock z.set4
  | .macInit => la == 2 && 256 ≤ sd
  | .cmpCt => la == lb && 1 ≤ la && la ≤ 64
  | .slhKeygen => 4 * slhN z.set4 ≤ sd && 2 * slhN z.set4 ≤ sa && (!z.bit7 || lb == 3 * slhN z.set4)
  | .slhSign =>
    let o := if z.bit7 then slhN z.set4 else 0
    lb == 4 * slhN z.set4 && o + 1 ≤ la && o + 1 + u8 (t.bytes z.a) o ≤ la &&
    (z.dstCells.zipIdx).all fun e => min 16384 (slhSigBytes z.set4 - 16384 * e.2) ≤ t.size e.1
  | .slhVerify =>
    lb == 2 * slhN z.set4 && 1 ≤ la && 1 + u8 (t.bytes z.a) 0 ≤ la &&
    (z.dstCells.zipIdx).all fun e => t.len e.1 == min 16384 (slhSigBytes z.set4 - 16384 * e.2)
  | .bnSetmod => la == cb
  | .bnAdd | .bnSub | .bnMul | .bnExp => la == cb && lb == cb && cb ≤ sd && (t.modulus.map Prod.fst) == some z.cls
  | .bnInv => la == cb && cb ≤ sd && (t.modulus.map Prod.fst) == some z.cls
  | .ecKeygen => cb ≤ sd && 2 * cb ≤ sa && (!z.bit7 || la == cb)
  | .ecSign =>
    let o := if z.bit7 then cb else 0
    2 * cb ≤ sd && lb == cb && o + 1 ≤ la && la ≤ o + 64
  | .ecVerify => t.len z.dst == 2 * cb && 1 ≤ la && la ≤ 64 && lb == 2 * cb
  | .ecDh => cb ≤ sd && la == cb && lb == 2 * cb
  | .ecxKeygen => cb ≤ sd && cb ≤ sa && (!z.bit7 || la == cb)
  | .ecxMul => cb ≤ sd && la == cb && lb == cb
  | .edKeygen => edBytes z.cls ≤ sd && edBytes z.cls ≤ sa && (!z.bit7 || la == edBytes z.cls)
  | .edSign => 2 * edBytes z.cls ≤ sd && lb == edBytes z.cls
  | .edVerify => t.len z.dst == 2 * edBytes z.cls && lb == edBytes z.cls
  | .rsaPub => cb ≤ sd && la == cb && lb == cb + 4
  | .rsaPriv => cb ≤ sd && la == cb && lb == 2 * cb
  | .rsaCrt => cb ≤ sd && la == cb && lb == cb + 4 + 5 * (classBits z.cls / 16)
  | .blkEnc | .blkDec => la % 16 == 0 && 16 ≤ la && la ≤ 16384 && la ≤ sd && (z.bit7 || lb == z.keyBytes)
  | .ghash => t.len z.dst == 16 && la % 16 == 0 && 16 ≤ la && lb == 16
  | .xtsSeq => la == 16 && 16 * z.imm ≤ sd
  | .ctxSaveVault => sa ≤ 256
  | .ctxSaveWrapped => sa ≤ 256 && sa + 32 ≤ sd
  | .ctxRestoreWrapped => 33 ≤ la && la ≤ 288 && la ≤ sd + 32 && (field z.imm 16 8 == 0xFF || 256 ≤ sd)
  | _ => true

/-- The restore of a vault context slot needs room for the saved length (R276) and for a state record (R153). -/
def Device.restoreFits (d : Device) (t : Turn) (z : ZInstr) : Bool :=
  match z.kind with
  | .ctxRestoreVault =>
    match Map.get? (d.leaf t.leaf).ctx (field z.imm 0 3) with
    | some (_, bs) => bs.length ≤ t.size z.dst && (field z.imm 16 8 == 0xFF || 256 ≤ t.size z.dst)
    | none => true
  | _ => true

/-- The checks of R125 in its order: cells allocated, lengths and sizes, state cells (log entry 22). -/
def Device.cellChecks (d : Device) (t : Turn) (z : ZInstr) : Option Status :=
  if !z.named.all (fun e => (t.cell? e.1).isSome) then some St.badCell
  else if !t.lengthsOk z || !d.restoreFits t z then some St.badLength
  else if !t.statesOk z then some St.badCell
  else none

/-- The keyway attributes that an instruction accepts, and the binding it needs; none where it takes no key from the keyway (R130,
R302). -/
def ZInstr.keywayNeeds (z : ZInstr) : Option (List Nat × Nat) :=
  match z.kind with
  | .blkEnc => if z.bit7 then some ([1, 2], 1 + z.set2) else none
  | .blkDec => if z.bit7 then some ([2], 1 + z.set2) else none
  | .keywWrap | .keywUnwrap | .ctxSaveWrapped | .ctxRestoreWrapped => some ([3], 0x10)
  | .keywDerive => some ([4], 0x20 + z.var)
  | .macKeystate => if z.bit7 then some ([4], 0x30 + z.set4) else none
  | _ => none

/-- The keyway checks of R130: empty, then attribute, then binding. -/
def keywayChecks (k : Keyway) (z : ZInstr) : Option Status :=
  match z.keywayNeeds with
  | none => none
  | some (attrs, alg) =>
    if !k.loaded then some St.keywayEmpty
    else if !attrs.contains k.attr then some St.keywayAttr
    else if k.alg ≠ alg then some St.keywayAlg
    else none

/-- `n` slots from `s` lie in the leaf's range (R246). -/
def Leaf.ownsSlots (l : Leaf) (s n : Nat) : Bool := l.slotBase ≤ s && s + n ≤ l.slotBase + l.slotCount

/-- The slot checks of R246 and R247: ownership, then empty slot or changed stamp. -/
def Device.slotChecks (d : Device) (t : Turn) (z : ZInstr) : Option Status :=
  let l := d.leaf t.leaf
  match z.kind with
  | .macKeystate => if l.ownsSlots z.imm (if z.set4 < 4 then 1 else 4) then none else some St.slotNotOwned
  | .macInit =>
    let s := leNat (t.bytes z.a)
    if !l.ownsSlots s 1 then some St.slotNotOwned
    else match Map.get? d.slots.slots s with
      | some (.first _ _ _) => none
      | _ => some St.slotEmpty
  | .macFinal =>
    let h := t.hstate z.a
    match Map.get? d.slots.slots h.slot with
    | some (.first _ _ _) => if d.slotStamp h.slot = h.stamp then none else some St.slotEmpty
    | _ => some St.slotEmpty
  | _ => none

/-- The checks of the declared length and of a restart (R155, R245), uncharged. -/
def Device.declaredChecks (d : Device) (t : Turn) (z : ZInstr) : Option Status :=
  match z.kind with
  | .digestAbsorb =>
    match d.reopen (t.hstate z.dst) with
    | none => some St.slotEmpty
    | some h => if h.declared < h.fed + t.len z.a / algBlock h.alg then some St.lengthMismatch else none
  | .digestStream =>
    match d.reopen (t.hstate z.dst) with
    | none => some St.slotEmpty
    | some h => if h.declared ≤ h.fed then some St.lengthMismatch else none
  | .digestFinal | .macFinal =>
    let h := t.hstate z.a
    if h.fed < h.declared then some St.lengthMismatch else none
  | .xofSqueeze =>
    let h := t.hstate z.a
    if !h.squeezing && h.fed < h.declared then some St.lengthMismatch else none
  | _ => none

/-- Every check before the first stroke, in the order of R130; the first failure. -/
def Device.preCheck (d : Device) (t : Turn) (z : ZInstr) : Option Status :=
  (d.cellChecks t z).or <| (keywayChecks (d.leaf t.leaf).kw z).or <| (d.slotChecks t z).or (d.declaredChecks t z)

/-! ### Strokes (R127, R142, R149, R152, R154, R160, R163, R164, R253) -/

/-- The beats of the bolt instructions by row of R163 and length class. -/
def boltBeats (k : ZKind) (c msg : Nat) : Nat :=
  let ed := ceilDiv (msg - 1024) 1024
  match k with
  | .bnAdd | .bnSub => 1
  | .bnMul => nth [1, 1, 1, 1, 1, 1, 1, 2, 6] c 1
  | .bnExp => nth [8, 8, 18, 24, 36, 470, 1540, 3560, 27600] c 1
  | .bnInv => nth [10, 10, 22, 30, 44, 60, 120, 200, 760] c 1
  | .ecKeygen | .ecDh => nth [0, 14, 32, 0, 66] c 0
  | .ecSign => nth [0, 16, 36, 0, 72] c 0
  | .ecVerify => nth [0, 28, 64, 0, 128] c 0
  | .ecxKeygen | .ecxMul | .edKeygen => if c = 0 then 12 else 36
  | .edSign => (if c = 0 then 14 else 40) + ed
  | .edVerify => (if c = 0 then 24 else 72) + ed
  | .rsaPub => nth [0, 0, 0, 0, 0, 6, 12, 20, 80] c 0
  | .rsaPriv => nth [0, 0, 0, 0, 0, 470, 1540, 3560, 27600] c 0
  | .rsaCrt => nth [0, 0, 0, 0, 0, 119, 391, 893, 6900] c 0
  | _ => 0

/-- The engine-beats of the SHAKE sets (R160) and the SHA2 sets (R253), by half of the set number: 128s, 128f, … -/
def slhBeats (k : ZKind) (set : Nat) : Nat :=
  let i := set / 2
  let shake := set % 2 == 1
  match k with
  | .slhKeygen =>
    if shake then nth [17900, 120, 32000, 190, 28000, 480] i 0 else nth [15800, 106, 28200, 168, 24600, 422] i 0
  | .slhSign =>
    if shake then nth [125000, 2500, 225000, 4100, 200000, 8300] i 0 else nth [110000, 2200, 198000, 3610, 176000, 7300] i 0
  | _ => if shake then nth [150, 416, 230, 610, 330, 640] i 0 else nth [132, 366, 202, 537, 290, 563] i 0

/-- The strokes of one attempt of an instruction (R127); 0 for an instruction that holds no engine. -/
def Turn.strokes (t : Turn) (z : ZInstr) : Nat :=
  let s := z.set2
  match z.kind with
  | .keywCut | .keywGen | .macKeystate | .macFinal => 1
  | .keywWrap => 2 * ceilDiv (t.len z.a) 1024
  | .keywUnwrap => 2 * ceilDiv (t.len z.a - 32) 1024
  | .keywDerive => 1 + ceilDiv z.imm 256
  | .mlkemKeygen | .mlkemEncaps => nth [2, 3, 4] s 0
  | .mlkemDecaps => nth [3, 4, 6] s 0
  | .mldsaKeygen | .mldsaSign => nth [4, 6, 9] s 0
  | .mldsaVerify => nth [3, 4, 6] s 0
  | .hqcKeygen => nth [4, 7, 11] s 0
  | .hqcEncaps => nth [5, 9, 14] s 0
  | .hqcDecaps => nth [6, 10, 16] s 0
  | .mceKeygen => nth [140, 290, 560, 580, 700] z.set4 0
  | .mceEncaps => (mceSlices z.set4).1
  | .mceDecaps => nth [18, 26, 36, 40, 42] z.set4 0
  | .digestAbsorb => let h := t.hstate z.dst; ceilDiv (t.len z.a / algBlock h.alg) (algPerBeat h.alg)
  | .digestStream =>
    let h := t.hstate z.dst
    ceilDiv (if h.closed then h.declared else h.declared - h.fed) (algPerBeat h.alg)
  | .xofSqueeze => ceilDiv z.imm (42 * algBlock (t.hstate z.a).alg)
  | .slhKeygen | .slhSign | .slhVerify => slhBeats z.kind z.set4
  | .blkEnc | .blkDec => ceilDiv (t.len z.a / 16) z.perCore
  | .ghash => ceilDiv (t.len z.a / 16) 256
  | .xtsSeq => ceilDiv z.imm 256
  | .ctxSaveWrapped | .ctxRestoreWrapped => 2
  | k => boltBeats k z.cls (t.len z.a)

/-- The padded strokes of one attempt on a tumbler of an enabled group (R189). -/
def ZKind.padded : ZKind → Nat
  | .mlkemKeygen | .mlkemEncaps | .mlkemDecaps => 6
  | .mldsaKeygen | .mldsaSign | .mldsaVerify => 9
  | .hqcKeygen | .hqcEncaps | .hqcDecaps => 16
  | .mceEncaps | .mceDecaps => 42
  | .mceKeygen => 700
  | _ => 0

/-- Working frames that an operation holds (R197, R222, R258). -/
def ZKind.frames (k : ZKind) : Nat :=
  match k with
  | .mceKeygen | .mceEncaps | .mceDecaps => 2
  | _ => if (0x30 ≤ k.op && k.op ≤ 0x46) || (0x61 ≤ k.op && k.op ≤ 0x76) then 1 else 0

/-- The engine class that an instruction charges (R123), for the hashing instructions by algorithm code; none if it charges none. -/
def Turn.engineClass (t : Turn) (z : ZInstr) : Option Nat :=
  let byAlg (a : Nat) : Option Nat := some (if a < 4 then 4 else 2)
  let op := z.kind.op
  match z.kind with
  | .keywCut | .keywGen | .keywWrap | .keywUnwrap | .ctxSaveWrapped | .ctxRestoreWrapped => some 3
  | .keywDerive => some 4
  | .digestAbsorb | .digestStream => byAlg (t.hstate z.dst).alg
  | .xofSqueeze | .macFinal => byAlg (t.hstate z.a).alg
  | .macKeystate => byAlg z.set4
  | .slhKeygen | .slhSign | .slhVerify => some (if z.set4 % 2 = 1 then 2 else 4)
  | .bnSetmod => none
  | _ => if 0x30 ≤ op ∧ op ≤ 0x46 then some 0 else if 0x61 ≤ op ∧ op ≤ 0x76 then some 1
         else if 0x80 ≤ op ∧ op ≤ 0x82 then some 3 else none

/-- How the operation takes engines (R178). -/
def Turn.shape (t : Turn) (z : ZInstr) : Shape :=
  match z.kind with
  | .blkEnc | .blkDec => .gang (t.strokes z)
  | .slhKeygen | .slhSign | .slhVerify => .elastic
  | _ => .single

/-- The instruction draws from the DRBGs and waits while NOT_READY is 1 (R132). -/
def ZInstr.draws (z : ZInstr) : Bool :=
  match z.kind with
  | .randFill | .keywGen | .keywWrap | .ctxSaveWrapped => true
  | .mlkemKeygen | .mlkemEncaps | .mldsaKeygen | .hqcKeygen | .hqcEncaps | .mceKeygen | .mceEncaps | .slhKeygen | .ecKeygen
  | .ecSign | .ecxKeygen | .edKeygen => !z.bit7
  | .mldsaSign | .slhSign => !z.bit7 && !bitOf z.var 4
  | _ => false

/-! ### Outcomes -/

/-- An outcome without outputs. -/
def Result.fail (s : Status) : Result := { status := s }

/-- A class-3 outcome: every out cell zeroed, its length 0 (R129). -/
def class3 (z : ZInstr) (s : Status) : Result :=
  let (rd, ra, _) := z.roles
  { status := s, outs := (if rd == .out then [(z.dst, [], false)] else []) ++ (if ra == .out then [(z.a, [], false)] else []) }

/-- An outcome that writes cells. -/
def Result.cells (l : List (Nat × Bytes)) : Result := { outs := l.map fun e => (e.1, e.2, false) }

/-- A modulus has the form that R162 requires for its class. -/
def modulusOk (c n : Nat) : Bool :=
  let bits := if n = 0 then 0 else n.log2 + 1
  n % 2 == 1 && (if c = 0 then 64 else classBits (c - 1)) < bits && bits ≤ classBits c

/-- A refusal of a bolt operation, counted on the bolt (R264, R270). -/
def boltRefuse (bolt : Nat) (s : Status) : Result := { status := s, effs := [.refusal bolt] }

/-- An invariant failure on a bolt (R266). -/
def boltInvariant (bolt : Nat) : Result := { status := St.invariantFault, effs := [.invariant bolt] }

/-- The first of the refusals that hold, in the order given (R264). -/
def firstRefusal (l : List (Bool × Status)) : Option Status := (l.find? fun e => e.1).map Prod.snd

/-- An outcome behind refusals. -/
def orRefuse (bolt : Nat) (l : List (Bool × Status)) (r : Result) : Result :=
  match firstRefusal l with
  | some s => boltRefuse bolt s
  | none => r

/-- A scalar from drawn bytes: as many bits as n has, and 64 more, reduced modulo n − 1, plus 1 (R262). -/
def Curve.scalarOf (E : Curve) (rnd : Bytes) : Nat := beNat rnd % 2 ^ (E.n.log2 + 1 + 64) % (E.n - 1) + 1

/-- The bolt instructions (R161 to R165, R262 to R266), with `rnd` the values drawn. -/
def boltResult (bolt : Nat) (t : Turn) (z : ZInstr) (rnd : Bytes) : Result :=
  let c := z.cls
  let cb := classBytes c
  let A := t.bytes z.a
  let B := t.bytes z.b
  let x := beNat A
  let y := beNat B
  let m := (t.modulus.map Prod.snd).getD 1
  let E := curveOf c
  let out (v : Nat) : Result := .cells [(z.dst, beBytes v cb)]
  match z.kind with
  | .bnAdd => orRefuse bolt [(m ≤ x || m ≤ y, St.refusedRange)] (out ((x + y) % m))
  | .bnSub => orRefuse bolt [(m ≤ x || m ≤ y, St.refusedRange)] (out (subMod x y m))
  | .bnMul => orRefuse bolt [(m ≤ x || m ≤ y, St.refusedRange)] (out (x * y % m))
  | .bnExp => orRefuse bolt [(x == 0, St.refusedZero), (x == 1, St.refusedOne), (m ≤ x, St.refusedRange)] (out (powMod x y m))
  | .bnInv =>
    match invMod x m with
    | some v => orRefuse bolt [(x == 0, St.refusedZero), (m ≤ x, St.refusedRange)]
        (if v * x % m = 1 % m then out v else boltInvariant bolt)
    | none => boltRefuse bolt (if x = 0 then St.refusedZero else St.refusedRange)
  | .ecKeygen =>
    let k := if z.bit7 then x else E.scalarOf rnd
    match E.mul k E.g with
    | some (px, py) =>
      if E.on px py then .cells [(z.dst, beBytes k cb), (z.a, beBytes px cb ++ beBytes py cb)] else boltInvariant bolt
    | none => boltInvariant bolt
  | .ecSign =>
    let k := if z.bit7 then beNat (A.take cb) else E.scalarOf rnd
    let h := if z.bit7 then A.drop cb else A
    let (r, s) := E.sign y k h
    orRefuse bolt [(k == 0 || y == 0, St.refusedZero), (E.n ≤ k || E.n ≤ y, St.refusedRange), (r == 0 || s == 0, St.refusedZero)]
      (if (match E.mul k E.g with | some (gx, gy) => E.on gx gy && gx % E.n == r | none => false) &&
          s * k % E.n == (E.hashInt h + r * y) % E.n
       then .cells [(z.dst, beBytes r cb ++ beBytes s cb)] else boltInvariant bolt)
  | .ecVerify =>
    let qx := beNat (B.take cb)
    let qy := beNat (B.drop cb)
    let S := t.bytes z.dst
    orRefuse bolt [(!E.on qx qy, St.refusedOffCurve)]
      (if E.verify qx qy (beNat (S.take cb)) (beNat (S.drop cb)) A then {} else .fail St.sigInvalid)
  | .ecDh =>
    let px := beNat (B.take cb)
    let py := beNat (B.drop cb)
    orRefuse bolt [(x == 0, St.refusedZero), (E.n ≤ x, St.refusedRange), (!E.on px py, St.refusedOffCurve)]
      (match E.mul x (some (px, py)) with
       | some (rx, ry) => if E.on rx ry then out rx else boltInvariant bolt
       | none => boltInvariant bolt)
  | .ecxKeygen =>
    let k := if z.bit7 then A else rnd
    .cells [(z.dst, k), (z.a, xMul c k (xBase c))]
  | .ecxMul =>
    let r := xMul c A B
    if r = zeros cb then boltRefuse bolt St.refusedLowOrder else .cells [(z.dst, r)]
  | .edKeygen =>
    let k := if z.bit7 then A else rnd
    .cells [(z.dst, k), (z.a, edPublic c k)]
  | .edSign => .cells [(z.dst, edSign c B A)]
  | .edVerify =>
    match edVerify c B A (t.bytes z.dst) with
    | none => boltRefuse bolt St.refusedOffCurve
    | some true => {}
    | some false => .fail St.sigInvalid
  | .rsaPub =>
    let n := beNat (B.take cb)
    let e := beNat (B.drop cb)
    orRefuse bolt [(!modulusOk c n, St.refusedModulus), (x == 0, St.refusedZero), (x == 1, St.refusedOne), (n ≤ x, St.refusedRange),
      (e % 2 == 0 || e < 3, St.keyCheck)] (out (powMod x e n))
  | .rsaPriv =>
    let n := beNat (B.take cb)
    let e := beNat (B.drop cb)
    orRefuse bolt [(!modulusOk c n, St.refusedModulus), (x == 0 || e == 0, St.refusedZero), (x == 1 || e == 1, St.refusedOne),
      (n ≤ x || n ≤ e, St.refusedRange)] (out (powMod x e n))
  | .rsaCrt =>
    let hb := classBits c / 16
    let n := beNat (B.take cb)
    let e := beNat (slice B cb 4)
    let part (i : Nat) := beNat (slice B (cb + 4 + i * hb) hb)
    let p := part 0
    let q := part 1
    let m1 := powMod x (part 2) p
    let m2 := powMod x (part 3) q
    let v := m2 + (part 4 * subMod m1 (m2 % p) p % p) * q
    orRefuse bolt [(!modulusOk c n || p % 2 == 0 || q % 2 == 0, St.refusedModulus), (x == 0, St.refusedZero), (x == 1, St.refusedOne),
      (n ≤ x, St.refusedRange), (p * q != n || e % 2 == 0 || e < 3, St.keyCheck)]
      (if v % p = m1 ∧ v % q = m2 ∧ powMod v e n = x then out v else boltInvariant bolt)
  | _ => {}

/-- The bytes of random values that an instruction draws (R132, R262, R306); 0 where it draws none. -/
def ZInstr.drawLen (z : ZInstr) : Nat :=
  if !z.draws then 0
  else match z.kind with
  | .randFill => z.imm
  | .keywGen => 64
  | .keywWrap | .ctxSaveWrapped => 12
  | .mlkemKeygen => 64
  | .mlkemEncaps | .mldsaKeygen | .mldsaSign | .hqcKeygen | .mceKeygen | .mceEncaps => 32
  | .hqcEncaps => (hqcN z.set2).2 + 16
  | .slhKeygen => 3 * slhN z.set4
  | .slhSign => slhN z.set4
  | .ecKeygen | .ecSign => ceilDiv ((curveOf z.cls).n.log2 + 1 + 64) 8
  | .ecxKeygen => classBytes z.cls
  | .edKeygen => edBytes z.cls
  | _ => 0

/-- The message cell of R147: the 32-byte or n-byte value with SEEDED, the context, the message. -/
def messageCell (bs : Bytes) (seed : Nat) : Bytes × Bytes × Bytes :=
  let c := u8 bs seed
  (bs.take seed, slice bs (seed + 1) c, bs.drop (seed + 1 + c))

/-- ML-DSA verification and the SLH-DSA instructions: the outcome (R145, R147, R158, R159, R212). -/
def schemeResult (t : Turn) (z : ZInstr) (rnd : Bytes) : Result :=
  let s := z.set2
  let A := t.bytes z.a
  let B := t.bytes z.b
  match z.kind with
  | .mldsaVerify =>
    let (_, ctx, msg) := messageCell A 0
    if mldsaVerify s B (bitOf z.var 5) ctx msg (t.bytes z.dst) then {} else .fail St.sigInvalid
  | .slhKeygen =>
    let r := slhKeygen z.set4 (if z.bit7 then B else rnd)
    .cells [(z.dst, fit (4 * slhN z.set4) r.1), (z.a, fit (2 * slhN z.set4) r.2)]
  | .slhSign =>
    let n := slhN z.set4
    let (seed, ctx, msg) := messageCell A (if z.bit7 then n else 0)
    let opt := if z.bit7 then seed else if bitOf z.var 4 then slice B (2 * n) n else rnd
    let sig := fit (slhSigBytes z.set4) (slhSign z.set4 B ctx msg opt)
    .cells ((z.dstCells.zipIdx).map fun e => (e.1, slice sig (16384 * e.2) 16384))
  | .slhVerify =>
    let (_, ctx, msg) := messageCell A 0
    let sig := z.dstCells.foldr (fun c r => t.bytes c ++ r) []
    if slhVerify z.set4 B ctx msg sig then {} else .fail St.sigInvalid
  | _ => {}

/-- The Classic McEliece instructions: the outcome and the attempts run, at most as many as the cap pays for (R150 to R152, R225, R230 to
R234). MCE.ENCAPS reads the slices that have arrived. -/
def codeResult (t : Turn) (z : ZInstr) (rnd : Bytes) : Draws (Result × Nat) := do
  let B := t.bytes z.b
  let seed := if z.bit7 then B else rnd
  match z.kind with
  | .mceKeygen =>
    let (k, r) ← mceKeygen z.set4 (t.hdr.cap / nth [140, 290, 560, 580, 700] z.set4 1 + 2) 0 seed
    pure (match r with
      | some (pk, sk) => { outs := [(z.dst, fit (mceSizes z.set4).2.1 sk, false)],
                           effs := [.deferPub (t.hdr.dataBase + z.imm) (fit (mceSizes z.set4).1 pk)] }
      | none => {}, k)
  | .mceEncaps =>
    let (c, k) ← mceEncaps z.set4 (t.parts.foldr (fun e r => e.2 ++ r) []) seed
    pure (.cells [(z.dst, fit (mceSizes z.set4).2.2 c), (z.a, fit 32 k)], 1)
  | .mceDecaps => do
    let k ← mceDecaps z.set4 B (t.bytes z.a)
    pure (.cells [(z.dst, fit 32 k)], 1)
  | _ => pure ({}, 1)

/-- Associated data of a cut message (R304): serial, identity digest, leaf, generation, bytes 0 to 11. -/
def Device.cutAad (d : Device) (l : Nat) (head : Bytes) : Bytes :=
  leBytes Config.serial 8 ++ fit 32 d.kw.digest ++ leBytes l 2 ++ leBytes (d.gen l) 4 ++ head

/-- KEYW.CUT, steps 1 to 6 of R305. -/
def Device.cutResult (d : Device) (t : Turn) (msg : Bytes) : Result :=
  let l := d.leaf t.leaf
  match gcmOpen (fit 32 l.ltk) (slice msg 12 12) (d.cutAad t.leaf (msg.take 12)) (slice msg 24 64) (slice msg 88 16) with
  | none => .fail St.cutIntegrity
  | some key =>
    let at2 := u8 msg 2
    let attr := field at2 0 3
    let ex := bitOf at2 3
    let alg := u8 msg 3
    let mode := u8 msg 1
    if leNat (slice msg 4 8) ≠ d.cut t.leaf + 1 then .fail St.cutStale
    else if u8 msg 0 ≠ 1 ∨ 2 ≤ mode ∨ 16 ≤ at2 ∨ !algAttrOk alg attr then .fail St.unsupported
    else if mode = 0 then
      if d.hasp % 2 = 1 then .fail St.lifeBusy else { effs := [.keyway (.load key attr alg ex)] }
    else if !l.kw.loaded then .fail St.keywayEmpty
    else if alg ≠ l.kw.alg ∨ !(attr == l.kw.attr || ([1, 2].contains attr && [1, 2].contains l.kw.attr)) then .fail St.unsupported
    else if ex && !l.kw.exportable then .fail St.keywayNotExportable
    else if d.hasp % 2 = 1 then .fail St.lifeBusy
    else { effs := [.keyway (.rebind attr ex)] }

/-- The code of a cell in a saved context: the algorithm of a state cell, 0xFF for a plain one (R276). -/
def Turn.ctxCode (t : Turn) (c : Nat) : Nat := if t.isState c then (t.hstate c).alg else 0xFF

/-- Associated data of a wrapped context (R277). -/
def Device.ctxAad (d : Device) (l : Nat) (b1215 : Bytes) : Bytes :=
  leBytes Config.serial 8 ++ leBytes l 2 ++ leBytes (d.gen l) 4 ++ leBytes (d.leaf l).kw.gen 4 ++ b1215

/-- Associated data of a wrapped key (R309). -/
def Device.wrapAad (d : Device) (l : Nat) (b03 : Bytes) : Bytes :=
  fit 16 (d.leaf l).handle ++ leBytes (d.leaf l).kw.gen 4 ++ b03

/-- The keyway, hashing, block-cipher and context instructions: the outcome (R141 to R144, R153 to R157, R165, R166, R241 to R248,
R276, R277, R309). -/
def Device.dataResult (d : Device) (t : Turn) (z : ZInstr) (rnd : Bytes) : Result :=
  let l := d.leaf t.leaf
  let A := t.bytes z.a
  let B := t.bytes z.b
  let key := l.kw.key
  match z.kind with
  | .keywCut => d.cutResult t A
  | .keywGen =>
    if d.hasp % 2 = 1 then .fail St.lifeBusy
    else { effs := [.keyway (.load rnd (field z.var 0 3) (field z.imm 0 8) (bitOf z.var 3))] }
  | .keywClear => if d.hasp % 2 = 1 then .fail St.lifeBusy else { effs := [.keyway .clear] }
  | .keywWrap =>
    let head := (1 : Byte) :: 0 :: leBytes A.length 2
    let r := gcmSeal (key.take 32) rnd (d.wrapAad t.leaf head) A
    .cells [(z.dst, head ++ rnd ++ r.1 ++ r.2)]
  | .keywUnwrap =>
    let n := A.length - 32
    match gcmOpen (key.take 32) (slice A 4 12) (d.wrapAad t.leaf (A.take 4)) (slice A 16 n) (slice A (16 + n) 16) with
    | some p => if u8 A 0 = 1 ∧ u8 A 1 = 0 ∧ u16 A 2 = n then .cells [(z.dst, p)] else class3 z St.unwrapIntegrity
    | none => class3 z St.unwrapIntegrity
  | .keywDerive =>
    let s := u8 A 0
    .cells [(z.dst, hkdf (z.var + 1) (slice A 1 s) key (A.drop (1 + s)) z.imm)]
  | .digestInit => { outs := [(z.dst, ({ chain := algInit z.var, alg := z.var, declared := z.imm } : HState).encode, true)] }
  | .digestFinal =>
    let h := t.hstate z.a
    { outs := [(z.dst, h.chain.take (algDigest h.alg), false), (z.a, { h with closed := true }.encode, true)] }
  | .macKeystate =>
    let k := if z.bit7 then key.take 32 else A
    let r := hmacStates z.set4 k
    { effs := [.keyState z.imm z.set4 r.1 r.2] }
  | .macInit =>
    let s := leNat A
    match Map.get? d.slots.slots s with
    | some (.first a i _) =>
      { outs := [(z.dst, ({ chain := i, alg := a, mac := true, slot := s, declared := z.imm, stamp := d.slotStamp s } : HState).encode,
          true)] }
    | _ => .fail St.slotEmpty
  | .macFinal =>
    let h := t.hstate z.a
    match Map.get? d.slots.slots h.slot with
    | some (.first _ _ o) =>
      { outs := [(z.dst, hmacFinish h.alg o (h.chain.take (algDigest h.alg)), false), (z.a, { h with closed := true }.encode, true)] }
    | _ => .fail St.slotEmpty
  | .cmpCt => if A = B then {} else .fail St.tagMismatch
  | .blkEnc => .cells [(z.dst, ecb (aesEnc (if z.bit7 then key.take z.keyBytes else B)) A)]
  | .blkDec => .cells [(z.dst, ecb (aesDec (if z.bit7 then key.take z.keyBytes else B)) A)]
  | .ghash => .cells [(z.dst, ghash (t.bytes z.dst) B A)]
  | .xtsSeq => let r := xtsSeq z.imm (leNat A); .cells [(z.dst, r.1), (z.a, leBytes r.2 16)]
  | .ctxSaveVault => { effs := [.ctxVault z.imm (t.ctxCode z.a) A] }
  | .ctxSaveWrapped =>
    let n := t.size z.a
    let head := leBytes (t.ctxCode z.a) 1 ++ [0] ++ leBytes n 2
    let r := gcmSeal (key.take 32) rnd (d.ctxAad t.leaf head) (fit n A)
    .cells [(z.dst, rnd ++ head ++ r.1 ++ r.2)]
  | .ctxRestoreVault =>
    let want := field z.imm 16 8
    match Map.get? l.ctx (field z.imm 0 3) with
    | some (code, bs) => if code = want then { outs := [(z.dst, bs, code != 0xFF)] } else .fail St.contextMismatch
    | none => .fail St.contextMismatch
  | .ctxRestoreWrapped =>
    let n := A.length - 32
    match gcmOpen (key.take 32) (A.take 12) (d.ctxAad t.leaf (slice A 12 4)) (slice A 16 n) (slice A (16 + n) 16) with
    | some p =>
      let code := u8 A 12
      if u16 A 14 ≠ n then class3 z St.contextIntegrity
      else if code = field z.imm 16 8 then { outs := [(z.dst, p, code != 0xFF)] } else .fail St.contextMismatch
    | none => class3 z St.contextIntegrity
  | .bnSetmod =>
    let n := beNat A
    if modulusOk z.cls n then { effs := [.modulus z.cls n] } else .fail St.refusedModulus
  | .copyWhole => .cells [(z.dst, A)]
  | .copySlice => .cells [(z.dst, slice A z.imm (t.size z.dst))]
  | .copyAppend => .cells [(z.dst, t.bytes z.dst ++ A)]
  | .copyCtr => let r := ctrBlocks z.imm A; .cells [(z.dst, r.1), (z.a, r.2)]
  | .zero => .cells [(z.dst, zeros z.imm)]
  | .xor => .cells [(z.dst, xorBytes A B)]
  | .randFill => .cells [(z.dst, rnd)]
  | _ => {}

/-- The blocks that a hashing instruction feeds in all (R154, R155, R244). -/
def Turn.feedBlocks (t : Turn) (z : ZInstr) : Nat :=
  let h := t.hstate z.dst
  match z.kind with
  | .digestAbsorb => t.len z.a / algBlock h.alg
  | .digestStream => h.declared - (if h.closed then 0 else h.fed)
  | _ => 0

/-- DIGEST.ABSORB and DIGEST.STREAM on a closed state restart it (R245), at the edge of their first stroke. -/
def Device.restartCell (d : Device) (t : Turn) (z : ZInstr) : Turn :=
  let h := t.hstate z.dst
  if (z.kind == .digestAbsorb || z.kind == .digestStream) && h.closed then
    match d.reopen h with
    | some g => t.write z.dst g.encode true
    | none => t
  else t

/-- The turn after stroke `k`, counted from 1, of a hashing instruction of several strokes: the state cell takes the blocks of that stroke, or
the squeezed bytes follow those in DST (R240). -/
def Turn.hashStroke (t : Turn) (o : Op) (k : Nat) : Turn :=
  let z := o.z
  let feed (h : HState) (bs : Bytes) : Turn :=
    let b := algPerBeat h.alg
    let n := min b (o.blocks - (k - 1) * b)
    let blk := algBlock h.alg
    t.write z.dst { h with chain := algAbsorb h.alg h.chain (slice bs ((k - 1) * b * blk) (n * blk)), fed := h.fed + n }.encode true
  match z.kind with
  | .digestAbsorb => feed (t.hstate z.dst) (t.bytes z.a)
  | .digestStream => feed (t.hstate z.dst) (t.parts.foldr (fun e r => e.2 ++ r) [])
  | .xofSqueeze =>
    let h := t.hstate z.a
    let rate := algBlock h.alg
    let old := if k = 1 then [] else t.bytes z.dst
    let r := squeezeOn rate 44 h.chain h.sqpos (min (42 * rate) (z.imm - old.length))
    (t.write z.dst (old ++ r.1)).write z.a { h with chain := r.2.1, sqpos := r.2.2, closed := true, squeezing := true }.encode true
  | _ => t

/-- The number of the bolt that runs an operation. -/
def boltOf : Option EngineId → Nat
  | some (.bolt n) => n
  | _ => 0

/-- The outcome of an instruction on engine `unit` with the random bytes `rnd` served for it (R131, R132): of every instruction that neither
computes on shares nor belongs to Classic McEliece. -/
def Device.compute (d : Device) (t : Turn) (z : ZInstr) (unit : Option EngineId) (rnd : Bytes) : Result :=
  let op := z.kind.op
  if (0x30 ≤ op && op ≤ 0x46) || (0x5D ≤ op && op ≤ 0x5F) then schemeResult t z rnd
  else if 0x61 ≤ op && op ≤ 0x76 then boltResult (boltOf unit) t z rnd
  else d.dataResult t z rnd

/-! ### An injected fault (R266, R267, R270) -/

/-- The bolt instructions whose result an invariant guards (R266). -/
def ZKind.guarded : ZKind → Bool
  | .bnInv | .ecKeygen | .ecDh | .ecSign | .edSign | .rsaCrt => true
  | _ => false

/-- A byte string with one 56-bit limb replaced by `limb` (R257, R270): limb `i` counts from the least significant end. -/
def withLimb (bs limb : Bytes) (i : Nat) : Bytes :=
  let r := bs.reverse
  ((r.take (7 * i)) ++ limb.take ((r.drop (7 * i)).take 7).length ++ r.drop (7 * i + 7)).reverse

/-- The outcome of a bolt operation into whose stroke a fault was injected (R266, R267, R270): a refusal stands; an invariant catches the fault
where the operation has one; else the result is wrong: in the last stroke in one limb of its first output, before it wholly. Which limb and
which bytes are free values. An operation without outputs answers as its free value says. -/
def Device.corrupt (d : Device) (bolt : Nat) (z : ZInstr) (last : Bool) (r : Result) : Result × Device :=
  if statusClass r.status = 1 then (r, d)
  else if z.kind.guarded then (boltInvariant bolt, d)
  else match r.outs with
    | (c, bs, s) :: rest =>
      let (rnd, d1) := d.draw (bs.length + 1)
      let i := u8 rnd 0 % max 1 (ceilDiv bs.length 7)
      ({ r with outs := (c, if last then withLimb bs (rnd.drop 1) i else rnd.drop 1, s) :: rest }, d1)
    | [] =>
      let (rnd, d1) := d.draw 1
      (if u8 rnd 0 % 2 = 0 then r else .fail St.sigInvalid, d1)

end Sys2Proof.Machine
end

