-- ==== Sys2Proof/Machine/MaskedLattice.lean ====
section
/-! DEFINITION. The lattice operations over secrets on three shares (R203 to R207, R210, R213): ML-KEM key generation, encapsulation and
decapsulation, ML-DSA key generation and one signing attempt. What R204 lists is shared; every other value is public. Nothing branches on
a shared value. What leaves an operation is the list of the pieces that the write path recombines (R206). -/

namespace Sys2Proof.Machine

/-- HintBitPack of hint polynomials (FIPS 204). -/
def packHints (omega : Nat) (h : List (List Nat)) : Bytes :=
  let at1 (f : List Nat) : List Nat := (f.zipIdx.filter fun e => e.1 ≠ 0).map Prod.snd
  let all := h.flatMap at1
  let ends := (List.range h.length).map fun i => ((h.take (i + 1)).flatMap at1).length
  fit omega (all.map (BitVec.ofNat 8)) ++ ends.map (BitVec.ofNat 8)

/-- The plain bytes of a piece. -/
def Piece.bytes : Piece → Bytes
  | .pub b => b
  | .bits x => x.bytes
  | .coeffs q d none x => packBits d (x.coeffs q)
  | .coeffs q d (some b) x => packBits d ((x.coeffs q).map fun v => (b + q - v) % q)
  | .hints omega h => packHints omega (h.map fun p => (List.range 256).map fun j => p.bits / 2 ^ j % 2)

/-- The value that the write path forms of an output (R206). -/
def recombine (ps : List Piece) : Bytes := ps.foldr (fun p r => p.bytes ++ r) []

/-! ### ML-KEM -/

/-- A secret or error polynomial from a shared seed and a counter: PRF on the masked barrels, then the centred binomial distribution. -/
def kemNoiseShares (eta : Nat) (seed : Sh Bytes) (n : Nat) : Draws (Sh (List Nat)) := do
  let o ← hashShares 9 (seed.append (Sh.ofBytes [BitVec.ofNat 8 n])) (64 * eta)
  let bit (i : Nat) : Draws (Sh (List Nat)) := bitToArith kemQ 256 (o.plane 256 (2 * eta) i)
  let up ← eachOf bit (List.range eta)
  let down ← eachOf (fun i => bit (eta + i)) (List.range eta)
  let zero := Sh.ofPoly (List.replicate 256 0)
  pure (polyMinus kemQ (up.foldl (polyPlus kemQ) zero) (down.foldl (polyPlus kemQ) zero))

/-- The inner product of a public vector and a shared one, transformed. -/
def dotShares (q : Nat) (mul : List Nat → List Nat → List Nat) (a : List (List Nat)) (b : List (Sh (List Nat))) : Sh (List Nat) :=
  (List.zipWith (fun x y => y.map (mul x)) a b).foldl (polyPlus q) (Sh.ofPoly (List.replicate 256 0))

/-- Rounding to `d` bits: the planes of ⌊(2^d x + (q − 1) ÷ 2) ÷ q⌉ modulo 2^d, lowest first. -/
def kemCompressShares (d : Nat) (x : Sh (List Nat)) : Draws (List (Sh Nat)) := do
  let ps ← arithToBool kemQ x
  let zero := Sh.ofNat 0
  let wide := List.replicate d zero ++ ps ++ [zero]
  let s ← shAdd 256 zero wide (pubPlanes wide.length (List.replicate 256 1664))
  let (_, q) ← shDivide 256 (List.replicate 256 kemQ) (d + 1) s
  pure (q.reverse.take d)

/-- K-PKE.Encrypt with a shared message and shared randomness: the shared ciphertext. -/
def kemEncryptShares (s : Nat) (ek : Bytes) (m r : Sh Bytes) : Draws (Sh Bytes) := do
  let (k, eta, du, dv) := kemParams s
  let t := (chunks 384 k ek).map fun b => (unpackBits 12 b).map (· % kemQ)
  let a := kemMatrix k (slice ek (384 * k) 32)
  let y ← eachOf (fun i => do pure ((← kemNoiseShares eta r i).map kemNtt)) (List.range k)
  let us ← eachOf (fun i => do
    let e ← kemNoiseShares 2 r (k + i)
    let u := polyPlus kemQ ((dotShares kemQ kemMul (a.map fun row => nth row i []) y).map kemIntt) e
    pure (packPlanes 256 (← kemCompressShares du u))) (List.range k)
  let e2 ← kemNoiseShares 2 r (2 * k)
  let mu ← bitToArith kemQ 256 m.number
  let v := polyPlus kemQ (polyPlus kemQ ((dotShares kemQ kemMul t y).map kemIntt) e2) (polyScale kemQ 1665 mu)
  let vs := packPlanes 256 (← kemCompressShares dv v)
  pure (us.foldr Sh.append vs)

/-- ML-KEM.KeyGen_internal from shares of d and z: the pieces of ek and of dk. ρ is public (R204). -/
def mlkemKeygenShares (s : Nat) (d z : Sh Bytes) : Draws (List Piece × List Piece) := do
  let (k, eta, _, _) := kemParams s
  let g ← hashShares 7 (d.append (Sh.ofBytes [BitVec.ofNat 8 k])) 64
  let rho := (g.slice 0 32).bytes
  let sigma := g.slice 32 32
  let sv ← eachOf (fun i => do pure ((← kemNoiseShares eta sigma i).map kemNtt)) (List.range k)
  let ev ← eachOf (fun i => do pure ((← kemNoiseShares eta sigma (k + i)).map kemNtt)) (List.range k)
  let t ← eachOf (polyRefresh kemQ)
    (List.zipWith (fun row e => polyPlus kemQ (dotShares kemQ kemMul row sv) e) (kemMatrix k rho) ev)
  let out ← eachOf (polyRefresh kemQ) sv
  let ek := t.map (Piece.coeffs kemQ 12 none) ++ [.pub rho]
  let pk := recombine ek
  pure (ek, out.map (Piece.coeffs kemQ 12 none) ++ [.pub pk, .pub (hash 5 pk), .bits (← bytesRefresh z)])

/-- ML-KEM.Encaps_internal with a shared m: the pieces of the ciphertext and of the shared key. -/
def mlkemEncapsShares (s : Nat) (ek : Bytes) (m : Sh Bytes) : Draws (List Piece × List Piece) := do
  let g ← hashShares 7 (m.append (Sh.ofBytes (hash 5 ek))) 64
  let c ← kemEncryptShares s ek m (g.slice 32 32)
  pure ([.bits (← bytesRefresh c)], [.bits (← bytesRefresh (g.slice 0 32))])

/-- ML-KEM.Decaps with the shares of ŝ and z, the public part of dk, and the ciphertext: the pieces of the shared key. The comparison is a
shared bit that drives a shared selection (R207). -/
def mlkemDecapsShares (s : Nat) (sv : List (Sh (List Nat))) (z : Sh Bytes) (ek h c : Bytes) : Draws (List Piece) := do
  let (k, _, du, dv) := kemParams s
  let u := (chunks (32 * du) k c).map fun b => kemNtt (kemDecompress du (unpackBits du b))
  let v := kemDecompress dv (unpackBits dv (slice c (32 * du * k) (32 * dv)))
  let w := polyMinus kemQ (Sh.ofPoly v) ((dotShares kemQ kemMul u sv).map kemIntt)
  let m := packPlanes 256 (← kemCompressShares 1 w)
  let g ← hashShares 7 (m.append (Sh.ofBytes h)) 64
  let again ← kemEncryptShares s ek m (g.slice 32 32)
  let n := 8 * c.length
  let same ← shAll (n.log2 + 2) n (shNot n (shXor again.number (Sh.ofNat (leNat c))))
  let bar ← hashShares 9 (z.append (Sh.ofBytes c)) 32
  let key ← shMux 256 (shSpread 256 same) (g.slice 0 32).number bar.number
  pure [.bits (← bytesRefresh (key.map fun v => leBytes v 32))]

/-! ### ML-DSA -/

/-- Candidates of a rejection sampler go one after another to the places that are still free, on shares: `free` is the place of the next
one as a one-hot word of `n` bits, empty once all are filled. No step depends on what is accepted (R207). -/
def fillPlaces (n : Nat) : List (Sh Nat × List (Sh Nat)) → Sh Nat → List (Sh Nat) → Draws (List (Sh Nat))
  | [], _, out => pure out
  | (ok, v) :: r, free, out => do
    let here ← shAnd n free (shSpread n ok)
    let out' ← eachOf (fun e : Sh Nat × Sh Nat => do pure (shXor e.1 (← shAnd n here (shSpread n e.2)))) (out.zip v)
    let stay := shXor free here
    fillPlaces n r (shXor stay (here.map fun x => 2 * x % 2 ^ n)) out'

/-- A nibble as a candidate for a coefficient of s1 or s2: whether it is accepted, and η − s in three or four planes. -/
def smallShares (eta : Nat) (nib : List (Sh Nat)) : Draws (Sh Nat × List (Sh Nat)) := do
  let w := nib ++ [Sh.ofNat 0]
  if eta = 2 then do
    let ok ← shBelow 1 w [15]
    let (r, _) ← shDivide 1 [5] 2 w
    pure (ok, r.take 3)
  else do
    let ok ← shBelow 1 w [9]
    pure (ok, nib)

/-- RejBoundedPoly from a shared seed: the planes of η − s. -/
def dsaBoundedShares (eta : Nat) (seed : Sh Bytes) : Draws (List (Sh Nat)) := do
  let o ← hashShares 9 seed 481
  let v := o.number
  let nib (i : Nat) : List (Sh Nat) := (List.range 4).map fun j => v.bit (4 * i + j)
  let cands ← eachOf (fun i => smallShares eta (nib i)) (List.range 962)
  fillPlaces 256 cands (Sh.ofNat 1) (List.replicate (if eta = 2 then 3 else 4) (Sh.ofNat 0))

/-- The coefficients b − v modulo q of the planes of v. -/
def planesMinus (b : Nat) (ps : List (Sh Nat)) : Draws (Sh (List Nat)) := do
  let v ← boolToArith dsaQ 256 ps
  pure (polyShift dsaQ b (v.map (List.map fun x => (dsaQ - x) % dsaQ)))

/-- A public matrix times a shared vector. -/
def dsaApplyShares (a : List (List (List Nat))) (v : List (Sh (List Nat))) : List (Sh (List Nat)) :=
  let vh := v.map fun x => x.map dsaNtt
  a.map fun row => (dotShares dsaQ dsaMul row vh).map dsaIntt

/-- ML-DSA.KeyGen_internal from shares of ξ: the pieces of pk and of sk. ρ and tr are public (R204). -/
def mldsaKeygenShares (s : Nat) (xi : Sh Bytes) : Draws (List Piece × List Piece) := do
  let p := dsaParams s
  let g ← hashShares 9 (xi.append (Sh.ofBytes [BitVec.ofNat 8 p.k, BitVec.ofNat 8 p.l])) 128
  let rho := (g.slice 0 32).bytes
  let small (i : Nat) : Draws (List (Sh Nat)) := dsaBoundedShares p.eta ((g.slice 32 64).append (Sh.ofBytes (leBytes i 2)))
  let b1 ← eachOf small (List.range p.l)
  let b2 ← eachOf (fun i => small (p.l + i)) (List.range p.k)
  let s1 ← eachOf (planesMinus p.eta) b1
  let s2 ← eachOf (planesMinus p.eta) b2
  let t := List.zipWith (polyPlus dsaQ) (dsaApplyShares (dsaMatrix p rho) s1) s2
  let halves ← eachOf (fun x => do
    let y ← shAdd 256 (Sh.ofNat 0) (← arithToBool dsaQ x) (pubPlanes 24 (List.replicate 256 4095))
    pure (packPlanes 256 ((y.drop 13).take 10), packPlanes 256 ((y.take 13).map (shNot 256)))) t
  let t1 ← eachOf (fun e : Sh Bytes × Sh Bytes => bytesRefresh e.1) halves
  let pk := Piece.pub rho :: t1.map Piece.bits
  let t0 ← eachOf (fun e : Sh Bytes × Sh Bytes => bytesRefresh e.2) halves
  let small2 ← eachOf (fun ps => bytesRefresh (packPlanes 256 ps)) (b1 ++ b2)
  let key ← bytesRefresh (g.slice 96 32)
  pure (pk, [.pub rho, .bits key, .pub (shake 9 (recombine pk) 64)] ++ small2.map Piece.bits ++ t0.map Piece.bits)

/-- The vectors of sk in arithmetic shares: s1, s2, t0. -/
structure DsaSecrets where
  s1 : List (Sh (List Nat))
  s2 : List (Sh (List Nat))
  t0 : List (Sh (List Nat))

/-- Decompose on shares: the planes of the high bits, and of the low part plus γ2 − 1. -/
def dsaDecomposeShares (p : DsaParams) (x : Sh (List Nat)) : Draws (List (Sh Nat) × List (Sh Nat)) := do
  let alpha := 2 * p.gamma2
  let top := (dsaQ - 1) / alpha
  let bits := p.w1Bits
  let ps ← arithToBool dsaQ x
  let u ← shAdd 256 (Sh.ofNat 0) (ps ++ [Sh.ofNat 0]) (pubPlanes 25 (List.replicate 256 (p.gamma2 - 1)))
  let (r, q) ← shDivide 256 (List.replicate 256 alpha) (bits + 1) u
  let high := q.reverse
  let eq := List.zipWith (fun (b : Sh Nat) (t : Nat) => if t = 1 then b else shNot 256 b) high
    ((List.range (bits + 1)).map fun i => top / 2 ^ i % 2)
  let wrapped ← eq.foldlM (fun a b => shAnd 256 a b) (Sh.ofNat (2 ^ 256 - 1))
  let high' ← eachOf (fun b => shAnd 256 (shNot 256 wrapped) b) (high.take bits)
  let low ← shAdd 256 (Sh.ofNat 0) r (List.replicate 25 wrapped)
  pure (high', low)

/-- Every coefficient is smaller than `b` in size: a shared bit. -/
def shSmall (b : Nat) (x : Sh (List Nat)) : Draws (Sh Nat) := do
  let ps ← arithToBool dsaQ (polyShift dsaQ (b - 1) x)
  let lt ← shBelow 256 (ps ++ [Sh.ofNat 0]) (List.replicate 256 (2 * b - 1))
  shAll 9 256 lt

/-- Every low part, held as itself plus γ2 − 1, is smaller than `b` in size: a shared bit. -/
def shLowSmall (p : DsaParams) (b : Nat) (low : List (Sh Nat)) : Draws (Sh Nat) := do
  let x ← shSubPub 256 low (List.replicate 256 (p.gamma2 - b))
  let neg := x.getLastD (Sh.ofNat 0)
  let lt ← shBelow 256 x (List.replicate 256 (2 * b - 1))
  let ok ← shAnd 256 (shNot 256 neg) lt
  shAll 9 256 ok

/-- The bits of words added over 256 places by halves: the sum as planes of one place. -/
def shCount : Nat → Nat → List (Sh Nat) → Draws (List (Sh Nat))
  | 0, _, w => pure w
  | k + 1, n, w => do
    let h := n / 2
    let lo := w.map fun x => x.map (· % 2 ^ h)
    let hi := w.map fun x => x.map (· / 2 ^ h)
    let s ← shAdd h (Sh.ofNat 0) (lo ++ [Sh.ofNat 0]) (hi ++ [Sh.ofNat 0])
    shCount k h s

/-- The one-hot word of 256 bits of a shared byte. -/
def shOneHot : List (Sh Nat) → Nat → Sh Nat → Draws (Sh Nat)
  | [], _, e => pure e
  | b :: r, len, e => do
    let up ← shAnd len e (shSpread len b)
    shOneHot r (2 * len) (shXor (shXor e up) (up.map fun x => x * 2 ^ len))

/-- The running state of SampleInBall on shares: the place to fill as a one-hot word, the places set, the places negative. -/
structure BallState where
  place : Sh Nat
  set : Sh Nat
  neg : Sh Nat

/-- One byte of SampleInBall (R210): passed over where it is above the place to fill; else the coefficient at the byte's place moves to it
and the byte's place takes the sign. -/
def ballStep (x : BallState) (byte : List (Sh Nat)) (signs : Sh Nat) (tau : Nat) : Draws BallState := do
  let hot ← shOneHot byte 1 (Sh.ofNat 1)
  let upTo := (List.range 8).foldl (fun (m : Sh Nat) k => shXor m (m.map fun v => v * 2 ^ (2 ^ k) % 2 ^ 256)) hot
  let below ← shAnd 256 x.place upTo
  let any (v : Sh Nat) : Draws (Sh Nat) := do pure (shNot 1 (← shAll 9 256 (shNot 256 v)))
  let ok ← any below
  let sign ← any (← shAnd 256 x.place (signs.map fun v => v % 2 ^ tau * 2 ^ (256 - tau)))
  let here ← shAnd 256 x.place (shSpread 256 ok)
  let there ← shAnd 256 hot (shSpread 256 ok)
  let s ← any (← shAnd 256 x.set there)
  let n ← any (← shAnd 256 x.neg there)
  let set1 := shXor x.set (← shAnd 256 here (shSpread 256 s))
  let neg1 := shXor x.neg (← shAnd 256 here (shSpread 256 n))
  let set2 ← shMux 256 there (Sh.ofNat (2 ^ 256 - 1)) set1
  let neg2 ← shMux 256 there (shSpread 256 sign) neg1
  pure { place := shXor (shXor x.place here) (here.map fun v => 2 * v % 2 ^ 256), set := set2, neg := neg2 }

/-- SampleInBall from a shared c̃, over `n` bytes: the coefficients in arithmetic shares. -/
def ballShares (p : DsaParams) (seed : Sh Bytes) (n : Nat) : Draws (Sh (List Nat)) := do
  let o ← hashShares 9 seed (8 + n)
  let signs := (o.slice 0 8).number
  let rest := (o.slice 8 n).number
  let x ← (List.range n).foldlM (fun x i => ballStep x ((List.range 8).map fun j => rest.bit (8 * i + j)) signs p.tau)
    { place := Sh.ofNat (2 ^ (256 - p.tau)), set := Sh.ofNat 0, neg := Sh.ofNat 0 : BallState }
  let s ← bitToArith dsaQ 256 x.set
  let m ← bitToArith dsaQ 256 (← shAnd 256 x.set x.neg)
  pure (polyMinus dsaQ s (polyScale dsaQ 2 m))

/-- Signing attempt number `n` on shares (R213): the shared accept bit, which alone is recombined, and the pieces of the signature. -/
def mldsaAttemptShares (s : Nat) (rho mu : Bytes) (key : DsaSecrets) (rho2 : Sh Bytes) (n : Nat) : Draws (Sh Nat × List Piece) := do
  let p := dsaParams s
  let gb := p.gamma1Log + 1
  let g1 := 2 ^ p.gamma1Log
  let y ← eachOf (fun r => do
    let o ← hashShares 9 (rho2.append (Sh.ofBytes (leBytes (n * p.l + r) 2))) (32 * gb)
    planesMinus g1 (o.planes 256 gb)) (List.range p.l)
  let w := dsaApplyShares (dsaMatrix p rho) y
  let w1 ← eachOf (fun x => do
    let (h, _) ← dsaDecomposeShares p x
    pure (packPlanes 256 h)) w
  let ct ← hashShares 9 (w1.foldl Sh.append (Sh.ofBytes mu)) p.cLen
  let ch := (← ballShares p ct 221).map dsaNtt
  let times (v : List (Sh (List Nat))) : Draws (List (Sh (List Nat))) :=
    eachOf (fun f => do pure ((← polyTimes dsaQ ch (f.map dsaNtt)).map dsaIntt)) v
  let z := List.zipWith (polyPlus dsaQ) y (← times key.s1)
  let ws := List.zipWith (polyMinus dsaQ) w (← times key.s2)
  let ct0 ← times key.t0
  let parts ← eachOf (dsaDecomposeShares p) ws
  let highs ← eachOf (fun x => do pure (← dsaDecomposeShares p x).1) (List.zipWith (polyPlus dsaQ) ws ct0)
  let hints ← eachOf (fun e : (List (Sh Nat) × List (Sh Nat)) × List (Sh Nat) => do
    let diff := List.zipWith shXor e.1.1 e.2
    diff.foldlM (fun a b => shOr 256 a b) (Sh.ofNat 0)) (parts.zip highs)
  let okz ← eachOf (shSmall (g1 - p.beta)) z
  let okr ← eachOf (fun e : List (Sh Nat) × List (Sh Nat) => shLowSmall p (p.gamma2 - p.beta) e.2) parts
  let okt ← eachOf (shSmall p.gamma2) ct0
  let counts ← eachOf (fun h => shCount 8 256 [h]) hints
  let total ← counts.foldlM (fun a b => shAdd 1 (Sh.ofNat 0) a (b ++ List.replicate 4 (Sh.ofNat 0))) (List.replicate 13 (Sh.ofNat 0))
  let okh ← shBelow 1 total [p.omega + 1]
  let ok ← (okz ++ okr ++ okt).foldlM (fun a b => shAnd 1 a b) okh
  let zs ← eachOf (polyRefresh dsaQ) z
  let hs ← eachOf (shRefresh 256) hints
  pure (← shRefresh 1 ok, [.bits (← bytesRefresh ct)] ++ zs.map (Piece.coeffs dsaQ gb (some g1)) ++ [.hints p.omega hs])

end Sys2Proof.Machine
end

