-- ==== Sys2Proof/Machine/Hqc.lean ====
section
/-! DEFINITION. HQC with the round-4 parameters of R228 (R2, R3, R220, R225, R226, R229): binary products, the concatenated code, key
generation and encapsulation on shares, decapsulation with its implicit rejection. The sizes of R152 are those of the round-4 package of
April 2023, whose key formats, domain bytes and samplers are taken over (PRESUMED, log entry 6). A vector is a number, its first bit
lowest. -/

namespace Sys2Proof.Machine

/-- n, the bytes of a message, n1, the copies of each Reed–Muller codeword, w, and wr = we (R228). -/
structure HqcParams where
  n : Nat
  k : Nat
  n1 : Nat
  copies : Nat
  w : Nat
  wr : Nat
  deriving DecidableEq, Repr

/-- HQC-128, -192 and -256 (R228). -/
def hqcParams (s : Nat) : HqcParams :=
  nth [⟨17669, 16, 46, 3, 66, 75⟩, ⟨35851, 24, 56, 5, 100, 114⟩, ⟨57637, 32, 90, 5, 131, 149⟩] s ⟨57637, 32, 90, 5, 131, 149⟩

/-- The bits of v: n1 × n2. -/
def HqcParams.codeBits (p : HqcParams) : Nat := p.n1 * p.copies * 128

/-! ### Products modulo x^n − 1 (R220) -/

/-- The carry-less product of two 14-bit chunks in one lane. -/
def clChunk (a b : Nat) : Nat := (List.range 14).foldl (fun r i => if b.testBit i then r.xor (a * 2 ^ i) else r) 0

/-- The dense Karatsuba product of two vectors of 14 · 2^k bits. -/
def clMul : Nat → Nat → Nat → Nat
  | 0, a, b => clChunk a b
  | k + 1, a, b =>
    let h := 2 ^ (14 * 2 ^ k)
    let lo := clMul k (a % h) (b % h)
    let hi := clMul k (a / h) (b / h)
    let mid := ((clMul k ((a % h).xor (a / h)) ((b % h).xor (b / h))).xor lo).xor hi
    (lo.xor (mid * h)).xor (hi * (h * h))

/-- The product modulo x^n − 1. -/
def HqcParams.mul (p : HqcParams) (a b : Nat) : Nat :=
  let c := clMul (if p.n = 17669 then 11 else if p.n = 35851 then 12 else 13) a b
  (c % 2 ^ p.n).xor (c / 2 ^ p.n)

/-! ### The code of R228 -/

/-- The generator polynomial of the Reed–Solomon code, from α to its 2δ-th power, lowest degree first. -/
def rsGenerator (r : Nat) : List Nat :=
  ((List.range r).foldl (fun (gx : List Nat × Nat) _ =>
    let x := gfMul 8 gx.2 2
    (gfAddMul 8 x (0 :: gx.1) (gx.1 ++ [0]), x)) ([1], 1)).1

/-- The parity symbols of a message: the remainder of x^r · m(x), systematic. -/
def rsParity (g : List Nat) (r : Nat) (msg : List Nat) : List Nat :=
  msg.foldr (fun c reg =>
    let top := (nth reg (r - 1) 0).xor c
    gfAddMul 8 top (0 :: reg.take (r - 1)) (g.take r)) (List.replicate r 0)

/-- The codeword of a message of k bytes. -/
def HqcParams.rsEncode (p : HqcParams) (msg : List Nat) : List Nat :=
  rsParity (rsGenerator (p.n1 - p.k)) (p.n1 - p.k) msg ++ msg

/-- RM(1,7) of a byte: 128 bits. -/
def rmEncode (b : Nat) : Nat :=
  (List.range 128).foldr (fun j a => 2 * a + b2n (parity (b.land (128 + j)) 8)) 0

/-- The encoding of a message: every symbol of its Reed–Solomon codeword in RM(1,7), repeated. -/
def HqcParams.encode (p : HqcParams) (msg : Bytes) : Nat :=
  (p.rsEncode (msg.map BitVec.toNat)).foldr (fun b a =>
    (List.range p.copies).foldl (fun a _ => 2 ^ 128 * a + rmEncode b) a) 0

/-- One level of a Hadamard transform: the sums of neighbours, then their differences. -/
def hadamardStep (l : List Int) : List Int :=
  let ev := (l.zipIdx.filter fun e => e.2 % 2 = 0).map Prod.fst
  let od := (l.zipIdx.filter fun e => e.2 % 2 = 1).map Prod.fst
  List.zipWith (· + ·) ev od ++ List.zipWith (· - ·) ev od

/-- The byte whose repeated codeword is nearest: the first peak of the transform, bit 7 its sign. -/
def HqcParams.rmDecode (p : HqcParams) (v : Nat) : Nat :=
  let sums : List Int := (List.range 128).map fun j =>
    (List.range p.copies).foldl (fun (s : Int) c => s + b2n (v.testBit (128 * c + j))) 0
  let t := (List.range 7).foldl (fun l _ => hadamardStep l) sums
  let t := modifyAt t 0 fun x => x - 64 * p.copies
  let best := t.zipIdx.foldl (fun (a : Int × Nat) e => if a.1.natAbs < e.1.natAbs then e else a) (0, 0)
  best.2 + if 0 < best.1 then 128 else 0

/-- Corrects up to δ symbols of a Reed–Solomon word and answers its message. -/
def HqcParams.rsDecode (p : HqcParams) (c : List Nat) : Bytes :=
  let r := p.n1 - p.k
  let syn := (List.range r).map fun i => gfEval 8 (powGf (i + 1)) c
  let bm := (List.range r).foldl (BerlekampMassey.step 8 syn.toArray) {}
  let omega := (List.range r).map fun i =>
    (List.range (i + 1)).foldl (fun a j => a.xor (gfMul 8 (nth bm.c j 0) (nth syn (i - j) 0))) 0
  let fixed := c.zipIdx.map fun e =>
    let x := powGf (255 - e.2 % 255)
    if gfEval 8 x bm.c = 0 then
      let odd := bm.c.zipIdx.foldl (fun a d => if d.2 % 2 = 1 then a.xor (gfMul 8 d.1 (gfPowNat x (d.2 - 1))) else a) 0
      e.1.xor (gfMul 8 (gfEval 8 x omega) (gfInv 8 odd))
    else e.1
  (fixed.drop r).map (BitVec.ofNat 8)
where
  /-- A power of an element. -/
  gfPowNat (x n : Nat) : Nat := (List.range n).foldl (fun a _ => gfMul 8 a x) 1
  /-- α^n. -/
  powGf (n : Nat) : Nat := gfPowNat 2 n

/-- The message that a received word decodes to. -/
def HqcParams.decode (p : HqcParams) (v : Nat) : Bytes :=
  p.rsDecode ((List.range p.n1).map fun i => p.rmDecode (v / 2 ^ (128 * p.copies * i) % 2 ^ (128 * p.copies)))

/-! ### Vectors from a seed -/

/-- The bytes that a request of `n` bytes to a seed expander takes from its stream. -/
def expanderStep (n : Nat) : Nat := ceilDiv n 8 * 8

/-- The public vector h of a seed of 40 bytes. -/
def HqcParams.vector (p : HqcParams) (seed : Bytes) : Nat := leNat (shake 9 (seed ++ [2]) (ceilDiv p.n 8)) % 2 ^ p.n

/-- A vector of weight `w` from random words: positions i + (r_i mod (n − i)), a repeated one replaced by its index. -/
def HqcParams.fixedWeight (p : HqcParams) (w : Nat) (rnd : Bytes) : Nat :=
  let pos := (List.range w).map fun i => i + u32 rnd (4 * i) % (p.n - i)
  let sup := pos.zipIdx.foldr (fun e l => (if l.contains e.1 then e.2 else e.1) :: l) []
  sup.foldl (fun v i => v.xor (2 ^ i)) 0

/-- The same on shares (R225, R226): a masked division, masked comparisons with every later position, and masked one-hot words. -/
def HqcParams.fixedWeightShares (p : HqcParams) (w : Nat) (rnd : Sh Bytes) : Draws (Sh Nat) := do
  let zero := Sh.ofNat 0
  let (r, _) ← shDivide w ((List.range w).map fun i => p.n - i) 18 (rnd.planes w 32 ++ [zero, zero, zero, zero])
  let pos ← shAdd w zero (r.take 16) (pubPlanes 16 (List.range w))
  let sup ← (List.range (w - 1)).foldlM (fun (ps : List (Sh Nat)) back => do
    let i := w - 2 - back
    let diff ← ps.foldlM (fun a q => shOr w a (shXor q (shSpread w (q.bit i)))) zero
    let later := (shNot w diff).map fun v => v / 2 ^ (i + 1)
    let found := shNot 1 (← shAll 9 (w - 1 - i) (shNot (w - 1 - i) later))
    eachOf (fun (e : Sh Nat × Nat) => do
      let old := e.1.bit i
      let new ← shMux 1 found (Sh.ofNat (i / 2 ^ e.2 % 2)) old
      pure (shXor e.1 ((shXor old new).map fun v => v * 2 ^ i))) ps.zipIdx) pos
  let v ← (List.range w).foldlM (fun (v : Sh Nat) i => do
    pure (shXor v (← shOneHot (sup.map fun q => q.bit i) 1 (Sh.ofNat 1)))) zero
  pure (v.map (· % 2 ^ p.n))

/-! ### Key generation, encapsulation, decapsulation -/

/-- Vectors of weights `ws` one after another from a shared seed. -/
def HqcParams.vectorsShares (p : HqcParams) (seed : Sh Bytes) (ws : List Nat) : Draws (List (Sh Nat)) := do
  let total := (ws.map fun w => expanderStep (4 * w)).sum
  let o ← hashShares 9 (seed.append (Sh.ofBytes [2])) total
  let (vs, _) ← ws.foldlM (fun (a : List (Sh Nat) × Nat) w => do
    let v ← p.fixedWeightShares w (o.slice a.2 (4 * w))
    pure (a.1 ++ [v], a.2 + expanderStep (4 * w))) ([], 0)
  pure vs

/-- HQC.KEYGEN from a shared seed of 32 bytes: the pieces of pk and sk (R225, R229). -/
def hqcKeygenShares (s : Nat) (seed : Sh Bytes) : Draws (List Piece × List Piece) := do
  let p := hqcParams s
  let o ← hashShares 9 (seed.append (Sh.ofBytes [1])) (80 + p.k)
  let skSeed := o.slice 0 40
  let pkSeed := (o.slice (40 + p.k) 40).bytes
  let xy ← p.vectorsShares skSeed [p.w, p.w]
  let h := p.vector pkSeed
  let z := Sh.ofNat 0
  let sum ← shRefresh p.n (shXor (nth xy 0 z) ((nth xy 1 z).map (p.mul h)))
  let pk := [Piece.pub pkSeed, .bits (sum.map fun v => leBytes v (ceilDiv p.n 8))]
  pure (pk, [.bits (← bytesRefresh skSeed), .bits (← bytesRefresh (o.slice 40 p.k)), .pub (recombine pk)])

/-- The public vectors h and s of a public key. -/
def HqcParams.publicKey (p : HqcParams) (pk : Bytes) : Nat × Nat := (p.vector (pk.take 40), leNat (pk.drop 40))

/-- u and v of a message under θ on shares (R225). -/
def hqcEncryptShares (p : HqcParams) (pk : Bytes) (m theta : Sh Bytes) : Draws (Sh Nat × Sh Nat) := do
  let (h, sv) := p.publicKey pk
  let z := Sh.ofNat 0
  let rs ← p.vectorsShares (theta.slice 0 40) [p.wr, p.wr, p.wr]
  let u := shXor (nth rs 0 z) ((nth rs 1 z).map (p.mul h))
  let v := shXor (shXor ((nth rs 1 z).map (p.mul sv)) (nth rs 2 z)) (m.map p.encode)
  pure (u, v.map (· % 2 ^ p.codeBits))

/-- HQC.ENCAPS with shares of m and salt: the pieces of the ciphertext and of the shared key (R225). -/
def hqcEncapsShares (s : Nat) (pk : Bytes) (m salt : Sh Bytes) : Draws (List Piece × List Piece) := do
  let p := hqcParams s
  let theta ← hashShares 9 ((m.append (Sh.ofBytes (pk.take 32))).append (salt.append (Sh.ofBytes [3]))) 64
  let (u, v) ← hqcEncryptShares p pk m theta
  let ub := u.map fun x => leBytes x (ceilDiv p.n 8)
  let vb := v.map fun x => leBytes x (p.codeBits / 8)
  let key ← hashShares 9 ((m.append ub).append (vb.append (Sh.ofBytes [4]))) 64
  pure ([.bits (← bytesRefresh ub), .bits (← bytesRefresh vb), .bits (← bytesRefresh salt)], [.bits (← bytesRefresh key)])

/-- u and v of a plain message under θ: the re-encryption of decapsulation (R225). -/
def hqcEncrypt (p : HqcParams) (pk m theta : Bytes) : Nat × Nat :=
  let (h, sv) := p.publicKey pk
  let step := expanderStep (4 * p.wr)
  let o := shake 9 (theta.take 40 ++ [2]) (3 * step)
  let vec (i : Nat) : Nat := p.fixedWeight p.wr (slice o (i * step) (4 * p.wr))
  ((vec 0).xor (p.mul h (vec 1)), (((p.mul sv (vec 1)).xor (vec 2)).xor (p.encode m)) % 2 ^ p.codeBits)

/-- HQC.DECAPS with the shared seed of y, the plain rest of sk, and the ciphertext: y and v − u·y are shared, the rest is plain (R225); a
ciphertext that does not encrypt again to itself gives the rejection key (R229). -/
def hqcDecapsShares (s : Nat) (skSeed : Sh Bytes) (sigma pk ct : Bytes) : Draws Bytes := do
  let p := hqcParams s
  let ul := ceilDiv p.n 8
  let vl := p.codeBits / 8
  let u := leNat (ct.take ul)
  let v := leNat (slice ct ul vl)
  let xy ← p.vectorsShares skSeed [p.w, p.w]
  let uy := (nth xy 1 (Sh.ofNat 0)).map (p.mul (u % 2 ^ p.n))
  let noisy ← shRefresh p.codeBits (shXor (Sh.ofNat v) (uy.map (· % 2 ^ p.codeBits)))
  let m := p.decode noisy.bits
  let theta := shake 9 (m ++ pk.take 32 ++ slice ct (ul + vl) 16 ++ [3]) 64
  let good := hqcEncrypt p pk m theta = (u, v)
  pure (shake 9 ((if good then m else sigma) ++ ct.take (ul + vl) ++ [4]) 64)

end Sys2Proof.Machine
end

