-- ==== Sys2Proof/Machine/Masking.lean ====
section
/-! DEFINITION. Masked operations in their working frame (R203 to R210, R213, R225): which instructions run on shares, how their secret
inputs are split, refreshed at every stroke and computed on, what an attempt reveals, and what the write path recombines. -/

namespace Sys2Proof.Machine

/-! ### The mask generator -/

/-- The words of a generator: counter mode from its seed (R209). -/
def MaskGen.source (g : MaskGen) : MaskSource := { word := Config.maskWord (leNat g.seed), next := g.ctr }

/-- Runs a computation with the masks of an engine: those of its tumbler or bolt, else those of the bank. -/
def Device.withMasks {α : Type} (d : Device) (e : Option EngineId) (f : Draws α) : α × Device :=
  let after (g : MaskGen) : MaskGen := { g with ctr := (f g.source).2.next }
  match e with
  | some (.tumbler n) => ((f (d.tumbler n).mask.source).1, d.onTu n fun x => { x with mask := after x.mask })
  | some (.bolt n) => ((f (d.bolt n).mask.source).1, d.onBo n fun x => { x with mask := after x.mask })
  | _ => ((f d.bb.mask.source).1, { d with bb := { d.bb with mask := after d.bb.mask } })

/-! ### Secrets in a frame -/

/-- An instruction that a tumbler computes on shares (R204, R225). -/
def ZInstr.shared (z : ZInstr) : Bool :=
  [ZKind.mlkemKeygen, .mlkemEncaps, .mlkemDecaps, .mldsaKeygen, .mldsaSign, .hqcKeygen, .hqcEncaps, .hqcDecaps].contains z.kind

/-- A secret byte string is split (R205). -/
def splitBytes (b : Bytes) : Draws Secret := do pure (.bits (← bytesSplit b))

/-- A secret polynomial is split (R205). -/
def splitPoly (q : Nat) (f : List Nat) : Draws Secret := do pure (.coeffs q (← polySplit q f))

/-- The message representative of a signing (R147, R212): public (R204). -/
def dsaMu (sk ctx msg : Bytes) (prehash : Bool) : Bytes := shake 9 (slice sk 64 64 ++ signedMessage prehash ctx msg) 64

/-- Shares of what an ML-DSA signing key and the random value give (R204): ρ″, then s1, s2 and t0. -/
def dsaSplitKey (s : Nat) (sk mu rnd : Bytes) : Draws (List Secret) := do
  let p := dsaParams s
  let eb := 32 * p.etaBits
  let key ← bytesSplit (slice sk 32 32)
  let r ← bytesSplit rnd
  let rho2 ← hashShares 9 ((key.append r).append (Sh.ofBytes mu)) 64
  let vec (bits b len off n : Nat) : List (List Nat) := (chunks len n (sk.drop off)).map (dsaUnpack bits b)
  let polys ← eachOf (splitPoly dsaQ) (vec p.etaBits p.eta eb 128 p.l ++ vec p.etaBits p.eta eb (128 + eb * p.l) p.k ++
    vec 13 4096 416 (128 + eb * (p.l + p.k)) p.k)
  pure (.bits (← bytesRefresh rho2) :: polys)

/-- The secret inputs of an instruction, split as its first stroke reads them from their cells, with the random bytes served for it. -/
def Turn.splitSecrets (t : Turn) (z : ZInstr) (rnd : Bytes) : Draws (List Secret) :=
  let s := z.set2
  let A := t.bytes z.a
  let B := t.bytes z.b
  let own := if z.bit7 then B else rnd
  match z.kind with
  | .mlkemKeygen => eachOf splitBytes [own.take 32, own.drop 32]
  | .mlkemEncaps => eachOf splitBytes [if z.bit7 then B.drop (mlkemSizes s).1 else rnd]
  | .mlkemDecaps => do
    let k := (kemParams s).1
    let sv ← eachOf (splitPoly kemQ) ((chunks 384 k B).map fun b => (unpackBits 12 b).map (· % kemQ))
    pure ((← splitBytes (slice B (768 * k + 64) 32)) :: sv)
  | .mldsaKeygen | .hqcKeygen => eachOf splitBytes [own]
  | .mldsaSign =>
    let (seed, ctx, msg) := messageCell A (if z.bit7 then 32 else 0)
    dsaSplitKey s B (dsaMu B ctx msg (bitOf z.var 5)) (if z.bit7 then seed else if bitOf z.var 4 then zeros 32 else rnd)
  | .hqcEncaps =>
    let r := if z.bit7 then B.drop (hqcSizes s).1 else rnd
    eachOf splitBytes [r.take (hqcN s).2, r.drop (hqcN s).2]
  | .hqcDecaps => eachOf splitBytes [B.take 40]
  | _ => pure []

/-- A secret refreshed (R205). -/
def Secret.refresh : Secret → Draws Secret
  | .bits x => do pure (.bits (← bytesRefresh x))
  | .coeffs q x => do pure (.coeffs q (← polyRefresh q x))

/-- Every secret that the frame holds, refreshed: the start of a stroke (R171, R205, R208). -/
def refreshAll (m : Map Secret) : Draws (Map Secret) := eachOf (fun e : Nat × Secret => do pure (e.1, ← e.2.refresh)) m

/-- The shared byte string number `i` of a frame. -/
def Op.secretBytes (o : Op) (i : Nat) : Sh Bytes :=
  match Map.get? o.frameData i with
  | some (.bits x) => x
  | _ => Sh.ofBytes []

/-- The shared polynomials of a frame from number `i` on, `n` of them. -/
def Op.secretPolys (o : Op) (i n : Nat) : List (Sh (List Nat)) :=
  (List.range n).map fun j => match Map.get? o.frameData (i + j) with
    | some (.coeffs _ x) => x
    | _ => Sh.ofPoly []

/-! ### Computing on shares -/

/-- What the last real stroke of an attempt leaves: a refusal that is public, whether the attempt was accepted, and the outputs, still as
shares (R206, R210, R213). -/
structure Attempt where
  status : Status := 0
  accepted : Bool := true
  outs : List (Nat × List Piece) := []

/-- An attempt of a masked operation on the shares of its frame (R204 to R207, R210 to R213, R225, R229). -/
def Turn.attempt (t : Turn) (o : Op) : Draws Attempt := do
  let z := o.z
  let s := z.set2
  let A := t.bytes z.a
  let B := t.bytes z.b
  match z.kind with
  | .mlkemKeygen => do
    let (ek, dk) ← mlkemKeygenShares s (o.secretBytes 0) (o.secretBytes 1)
    pure { outs := [(z.dst, ek), (z.a, dk)] }
  | .mlkemEncaps =>
    let ek := B.take (mlkemSizes s).1
    if (chunks 384 (kemParams s).1 ek).all fun b => (unpackBits 12 b).all (· < kemQ) then do
      let (c, k) ← mlkemEncapsShares s ek (o.secretBytes 0)
      pure { outs := [(z.dst, c), (z.a, k)] }
    else pure { status := St.keyCheck }
  | .mlkemDecaps =>
    let k := (kemParams s).1
    let ek := slice B (384 * k) (384 * k + 32)
    let h := slice B (768 * k + 32) 32
    if hash 5 ek = h then do
      pure { outs := [(z.dst, ← mlkemDecapsShares s (o.secretPolys 1 k) (o.secretBytes 0) ek h A)] }
    else pure { status := St.keyCheck }
  | .mldsaKeygen => do
    let (pk, sk) ← mldsaKeygenShares s (o.secretBytes 0)
    pure { outs := [(z.dst, pk), (z.a, sk)] }
  | .mldsaSign => do
    let (_, ctx, msg) := messageCell A (if z.bit7 then 32 else 0)
    let p := dsaParams s
    let key : DsaSecrets := { s1 := o.secretPolys 1 p.l, s2 := o.secretPolys (1 + p.l) p.k, t0 := o.secretPolys (1 + p.l + p.k) p.k }
    let (ok, sig) ← mldsaAttemptShares s (B.take 32) (dsaMu B ctx msg (bitOf z.var 5)) key (o.secretBytes 0) o.attempt
    pure { accepted := ok.bits = 1, outs := [(z.dst, sig)] }
  | .hqcKeygen => do
    let (pk, sk) ← hqcKeygenShares s (o.secretBytes 0)
    pure { outs := [(z.dst, pk), (z.a, sk)] }
  | .hqcEncaps =>
    let pk := B.take (hqcSizes s).1
    if leNat (pk.drop 40) / 2 ^ (hqcN s).1 != 0 then pure { status := St.keyCheck }
    else do
      let (c, k) ← hqcEncapsShares s pk (o.secretBytes 0) (o.secretBytes 1)
      pure { outs := [(z.dst, c), (z.a, k)] }
  | .hqcDecaps => do
    let n := (hqcN s).2
    pure { outs := [(z.dst, [.pub (← hqcDecapsShares s (o.secretBytes 0) (slice B 40 n) (B.drop (40 + n)) A)])] }
  | _ => pure {}

/-- The operation after the last real stroke of an attempt (R148, R213): an accepted one holds its outputs as shares; after a rejected one,
whose values are dropped, another attempt follows while the limit of IMM allows. -/
def Op.afterAttempt (o : Op) (a : Attempt) : Op :=
  if a.accepted then { o with result := .fail a.status, outShares := a.outs, attempt := o.attempt + 1 }
  else if o.attempt + 1 < o.z.imm then { o with left := o.left + o.per, total := o.total + o.per, attempt := o.attempt + 1 }
  else { o with result := .fail St.signExhausted, attempt := o.attempt + 1 }

/-- The store controller's write path forms the outputs of a masked operation (R206). -/
def Op.written (o : Op) : Result :=
  { o.result with outs := o.result.outs ++ o.outShares.map fun e => (e.1, recombine e.2, false) }

/-- The frame of an operation at the edge of its first stroke (R196, R205): the random bytes served for it are taken. -/
def Op.withSecrets (o : Op) (l : List Secret) : Op := { o with frameData := (l.zipIdx).map fun e => (e.2, e.1), rnd := [] }

end Sys2Proof.Machine
end

