-- ==== Sys2Proof/Machine/Identity.lean ====
section
/-! DEFINITION. The device identity (R303, R310 to R314) and the signatures of the vendor and the integrator (R313, R329, R391): the
four identity key pairs from their seeds, what they decapsulate and sign, and the checks of certificates and images. -/

namespace Sys2Proof.Machine

/-! ### Two signatures -/

/-- P-384. -/
def p384 : Curve := curveOf 2

/-- The number of a P-384 key or nonce from random bytes, 1 to n − 1. -/
def p384Scalar (bs : Bytes) : Nat := beNat bs % (p384.n - 1) + 1

/-- Both signatures of a message hold under an ML-DSA-87 public key followed by a P-384 public key: ML-DSA-87 pure with a context string,
and ECDSA over SHA-384 (R313, R329, R391). -/
def bothSigned (keys ctx msg sigs : Bytes) : Bool :=
  mldsaVerify 2 (keys.take 2592) false ctx msg (sigs.take 4627) &&
  p384.verify (beNat (slice keys 2592 48)) (beNat (slice keys 2640 48)) (beNat (slice sigs 4627 48)) (beNat (slice sigs 4675 48)) (hash 2 msg)

/-- A context string of four bytes, as a number with the first byte lowest. -/
def context4 (n : Nat) : Bytes := leBytes n 4

/-- The signatures of an identity certificate (R85, R313). -/
def identitySigned (c : Bytes) : Bool := bothSigned Config.vendorKeys (context4 0x01434449) (c.take 4328) (c.drop 4328)

/-- The signatures of an opening or transition certificate under the signer's keys (R329). -/
def openingSigned (keys c : Bytes) : Bool := bothSigned keys (context4 0x014E504F) (c.take 64) (c.drop 64)

/-- The signatures of an image of `l` payload bytes: type 1 firmware, type 2 patch (R391). -/
def imageSigned (ty l : Nat) (b : Bytes) : Bool :=
  bothSigned Config.vendorKeys (context4 (if ty = 1 then 0x0157464D else 0x0150434D)) (b.take (64 + l)) (b.drop (64 + l))

/-- The payload of an image, opened under the patch key; none where its tag fails (R391). -/
def imagePayload (b : Bytes) : Option Bytes :=
  gcmOpen (fit 32 Config.patchKey) (slice b 24 12) (b.take 24) (slice b 64 (u32 b 4)) (slice b 36 16)

/-! ### Identity keys (R310, R311) -/

/-- What IDGEN makes of root material: the vault key share, and the seeds of the four key pairs in the order in which the model keeps
them, ML-DSA-87, P-384, ML-KEM-1024, X448 (log entry 7). -/
def identitySeeds (material : Bytes) : Bytes × Bytes := (fit 240 (Config.identitySeeds material)).splitAt 32

/-- The device secret in the fuses: the Scrapped wipe burns every bit of it (R322). -/
def Perm.secret (p : Perm) : Bytes := if p.secretBurned then List.replicate 32 0xFF else fit 32 Config.deviceSecret

/-- The root key: SHA3-256 of the device secret and the vault key share (R310). -/
def Device.rootKey (d : Device) : Bytes := hash 5 (d.perm.secret ++ d.aon.share)

/-- The sealed root blobs of an identity epoch (R310): AES-256-GCM under the root key, with the epoch as nonce (log entry 7). -/
def sealRoot (key : Bytes) (epoch : Nat) (seeds : Bytes) : Bytes :=
  let r := gcmSeal key (leBytes epoch 12) [] seeds
  r.1 ++ r.2

/-- The sealed root blobs opened: none where the tag fails (R312). -/
def openRoot (key : Bytes) (epoch : Nat) (blob : Bytes) : Option Bytes :=
  gcmOpen key (leBytes epoch 12) [] (blob.take 208) (blob.drop 208)

/-- The ML-KEM-1024 transport key pair, computed on shares (R204). -/
def identityKem (seeds : Bytes) : Draws (Bytes × Bytes) := do
  let (ek, dk) ← mlkemKeygenShares 2 (← bytesSplit (slice seeds 88 32)) (← bytesSplit (slice seeds 120 32))
  pure (recombine ek, recombine dk)

/-- The ML-DSA-87 attestation key pair, computed on shares (R204). -/
def identityDsa (seeds : Bytes) : Draws (Bytes × Bytes) := do
  let (pk, sk) ← mldsaKeygenShares 2 (← bytesSplit (seeds.take 32))
  pure (recombine pk, recombine sk)

/-- The P-384 attestation key. -/
def identityEc (seeds : Bytes) : Nat := p384Scalar (slice seeds 32 56)

/-- The X448 transport key. -/
def identityX (seeds : Bytes) : Bytes := slice seeds 152 56

/-- The four public keys, bytes 16 to 4,327 of the certificate (R313). -/
def identityPublic (seeds : Bytes) : Draws Bytes := do
  let (px, py) := (p384.mul (identityEc seeds) p384.g).getD (0, 0)
  pure ((← identityDsa seeds).1 ++ beBytes px 48 ++ beBytes py 48 ++ (← identityKem seeds).1 ++ xMul 3 (identityX seeds) (xBase 3))

/-- ML-DSA-87 signing on shares, attempt after attempt: the first accepted signature, and the attempts run. -/
def identityAttempts (rho mu : Bytes) (key : DsaSecrets) (rho2 : Sh Bytes) : Nat → Nat → Draws (Bytes × Nat)
  | 0, n => pure ([], n)
  | fuel + 1, n => do
    let (ok, sig) ← mldsaAttemptShares 2 rho mu key rho2 n
    if ok.bits = 1 then pure (recombine sig, n + 1) else identityAttempts rho mu key rho2 fuel (n + 1)

/-- The shares of a frame that hold polynomials. -/
def secretPoly : Secret → Sh (List Nat)
  | .coeffs _ x => x
  | .bits _ => Sh.ofPoly []

/-- The two signatures of an attestation statement, with the random values of both (R314), and the ML-DSA-87 attempts run: ML-DSA-87 with the
context of R314 over at most 1,000 attempts, and ECDSA over SHA-384. -/
def identitySign (seeds msg rnd : Bytes) : Draws (Bytes × Nat) := do
  let sk := (← identityDsa seeds).2
  let mu := dsaMu sk (context4 0x01545441) msg false
  let frame ← dsaSplitKey 2 sk mu (rnd.take 32)
  let polys := (frame.drop 1).map secretPoly
  let key : DsaSecrets := { s1 := polys.take 7, s2 := (polys.drop 7).take 8, t0 := polys.drop 15 }
  let rho2 := match frame with
    | .bits x :: _ => x
    | _ => Sh.ofBytes []
  let (a, n) ← identityAttempts (sk.take 32) mu key rho2 1000 0
  let (r, s) := p384.sign (identityEc seeds) (p384Scalar (slice rnd 32 56)) (hash 2 msg)
  pure (fit 4627 a ++ beBytes r 48 ++ beBytes s 48, n)

/-- The shared secret of an ML-KEM-1024 ciphertext for the transport key, with implicit rejection, on shares (R204, R207, R303). -/
def identityDecaps (seeds c : Bytes) : Draws Bytes := do
  let (ek, dk) ← identityKem seeds
  let sv ← eachOf (fun b => polySplit kemQ ((unpackBits 12 b).map (· % kemQ))) (chunks 384 4 dk)
  pure (recombine (← mlkemDecapsShares 2 sv (← bytesSplit (slice dk 3136 32)) ek (slice dk 3104 32) c))

/-- The two shared secrets of a creation input or of a blob: ML-KEM-1024 and X448 (R303). -/
def identityShared (seeds input : Bytes) : Draws (Bytes × Bytes) := do
  pure (← identityDecaps seeds (input.take 1568), xMul 3 (identityX seeds) (slice input 1568 56))

/-! ### Migration blobs (R86, R88) -/

/-- The key of a blob, from the two shared secrets and what the blob is bound to (DESIGN CHOICE, log entry 28). -/
def blobKey (ssk ssx bind : Bytes) : Bytes := hkdf 3 bind (ssk ++ ssx) (leBytes 0x01424C42 4) 32

/-- A sealed blob (R86): the two ciphertexts of its key, what it is bound to, the length and the bytes of the context under AES-256-GCM, and
the tag. The layout is the model's own (log entry 28). -/
def sealBlob (ek xpub bind ctx m ephemeral : Bytes) : Draws Bytes := do
  let (c, k) ← mlkemEncapsShares 2 ek (← bytesSplit m)
  let ssx := xMul 3 ephemeral xpub
  let r := gcmSeal (blobKey (recombine k) ssx bind) (zeros 12) bind ctx
  pure (fit 8192 (recombine c ++ xMul 3 ephemeral (xBase 3) ++ fit 72 bind ++ leBytes ctx.length 2 ++ r.2 ++ r.1))

/-- The context of a blob: none unless it is bound to what the destination holds, and its tag checks (R88). -/
def openBlob (seeds blob mine : Bytes) : Draws (Option Bytes) := do
  let (ssk, ssx) ← identityShared seeds blob
  let bind := slice blob 1624 72
  let n := u16 blob 1696
  pure (if slice bind 46 26 = mine then gcmOpen (blobKey ssk ssx bind) (zeros 12) bind (slice blob 1714 n) (slice blob 1698 16) else none)

end Sys2Proof.Machine
end

