-- ==== Sys2Proof/Machine/Turns.lean ====
section
/-! DEFINITION. The life of a turn: DMA requests and the dirty log (R47 to R50, R82 to R84, R459), homes (R104, R105, R177), becoming
ready (R97, R115, R175), moving to the next word (R101, R109, R136), ending, and the turn record (R110 to R120). -/

namespace Sys2Proof.Machine

/-! ### DMA requests (R47 to R49, R459) -/

/-- The PASID of a leaf's requests (R47). -/
def Device.pasidOf (d : Device) (l : Nat) : Option Nat := some (d.leaf l).pasid

/-- Puts reads that are queued on the link, up to 256 outstanding (R47, R57), while the module is ACTIVE. -/
def Device.issueReads (d : Device) (m : Nat) : Device :=
  if !d.linkUp m then d
  else
    let k := d.dma m
    let room := 256 - (k.reads.filter DmaRead.issued).length
    let news := (k.reads.filter fun r => !r.issued).take room
    let tags := news.map DmaRead.tag
    let d' := d.onDma m fun k => { k with reads := k.reads.map fun r => if tags.contains r.tag then { r with issued := true, timed := true } else r }
    news.foldl (fun d r => d.emit (.dmaRead m r.tag r.pasid r.addr r.len)) d'

/-- Queues one DMA read (R47). -/
def Device.readReq (d : Device) (m : Nat) (pasid : Option Nat) (addr len : Nat) (why : ReadWhy) : Device :=
  (d.onDma m fun k =>
    { k with nextTag := k.nextTag + 1,
             reads := k.reads ++ [{ tag := k.nextTag, pasid := pasid, addr := addr, len := len, why := why }] }).issueReads m

/-- Queues the reads of `len` bytes from an address, at most 4 KiB a request (R47); returns their number. -/
def Device.readParts (d : Device) (m : Nat) (pasid : Option Nat) (addr len : Nat) (why : Nat → ReadWhy) : Device × Nat :=
  let n := ceilDiv len 4096
  ((List.range n).foldl (fun d i => d.readReq m pasid (addr + 4096 * i) (min 4096 (len - 4096 * i)) (why (4096 * i))) d, n)

/-- Queues a posted DMA write (R459). -/
def Device.writeReq (d : Device) (m : Nat) (w : DmaWrite) : Device := d.onDma m fun k => { k with writes := k.writes ++ [w] }

/-- The pieces of a byte string, `mps` bytes each, with their offsets. -/
def payloads (mps : Nat) (bs : Bytes) : List (Nat × Bytes) :=
  (List.range (ceilDiv bs.length mps)).map fun i => (mps * i, slice bs (mps * i) mps)

/-- The greatest payload of a write on module m (R47). -/
def Device.payload (d : Device) (m : Nat) : Nat := max 128 (d.link m).mps

/-- A turn slot that never holds a turn: it stands for an entry of a read whose turn is gone. -/
def noSlot : Nat := 8192

/-- The purpose of a read once the turn in `slot` is gone: its data is discarded (R49, R117). -/
def ReadWhy.without (slot : Nat) : ReadWhy → ReadWhy
  | .prog s o => if s = slot then .dropped else .prog s o
  | .load s o => if s = slot then .dropped else .load s o
  | .stream s o => if s = slot then .dropped else .stream s o
  | .slice s o => if s = slot then .dropped else .slice s o
  | .entries l => .entries (l.map fun s => if s = slot then noSlot else s)
  | w => w

/-- A turn's outstanding reads are dropped with it (R49, R117). -/
def Device.dropReads (d : Device) (slot : Nat) : Device :=
  let f (k : Dma) : Dma := { k with reads := k.reads.map fun r => { r with why := r.why.without slot } }
  (d.onDma 0 f).onDma 1 f

/-! ### Dirty-page logging (R82 to R84) -/

/-- The 4 KiB pages of a write. -/
def pagesOf (addr len : Nat) : List Nat :=
  if len = 0 then [] else (List.range ((addr + len - 1) / 4096 - addr / 4096 + 1)).map (addr / 4096 + ·)

/-- Starts the first pending update of a leaf's bitmap: a read of its 8-byte word on module 0 without a PASID (R47, R84). -/
def Device.dlogStart (d : Device) (l : Nat) : Device :=
  match (d.leaf l).dlog.upd with
  | [] => d
  | u :: _ => d.readReq 0 none u.addr 8 (.dlog l)

/-- Logs the pages of a write of the leaf (R83): an update of the active bitmap for each word, overflow outside the range. The updates
hold back the record of the turn in `slot`; returns how many. -/
def Device.logWrite (d : Device) (l addr len : Nat) (slot : Option Nat) : Device × Nat :=
  let g := (d.leaf l).dlog
  if !g.en then (d, 0)
  else
    let pages := pagesOf addr len
    let first := g.base / 4096
    let inside := pages.filter fun p => first ≤ p && p < first + g.pages
    let d1 := if inside.length = pages.length then d
      else (d.onLeaf l fun x => { x with dlog := { x.dlog with ovf := true } }).leafCause l 0x100
    let buf := if g.bufB then g.b else g.a
    let ups : List DirtyUpd := inside.map fun p => { addr := buf + (p - first) / 64 * 8, mask := 2 ^ ((p - first) % 64), slot := slot }
    let d2 := d1.onLeaf l fun x => { x with dlog := { x.dlog with upd := x.dlog.upd ++ ups } }
    (if g.upd.isEmpty then d2.dlogStart l else d2, ups.length)

/-! ### Homes (R104, R105, R177, R224) -/

/-- The engine number's unit in the home class. -/
def Device.homeEngine (d : Device) (bolt : Bool) (n : Nat) : Engine := if bolt then d.bolt n else d.tumbler n

/-- The engine of a home. -/
def homeId (bolt : Bool) (n : Nat) : EngineId := if bolt then .bolt n else .tumbler n

/-- An engine is being drained for a live patch (R395). -/
def Device.draining (d : Device) (e : EngineId) : Bool :=
  match d.mc.pass with
  | none => false
  | some p => p.drain && p.step == 0 && (match p.cls, e with
    | 0, .tumbler n => n == p.engine
    | 1, .bolt n => n == p.engine
    | 2, .plainBarrel _ => true
    | 2, .maskedBarrel _ => true
    | 3, .aes _ => true
    | 3, .mult _ => true
    | _, _ => false)

/-- An engine takes strokes at the next edge: in service, not parked, stopped or in reset (R188, R354, R414); the stage is the one of the
last freeze point, which parks the odd tumblers and leaves 32 AES cores at stage 2 (R414). -/
def Device.usable (d : Device) (e : EngineId) : Bool :=
  let own (x : Engine) : Bool := x.inService && !x.retired && !x.stopped && !x.inReset
  match e with
  | .tumbler n => own (d.tumbler n) && !(2 ≤ d.sc.stage && n % 2 == 1)
  | .bolt n => own (d.bolt n)
  | .plainBarrel n => !d.bb.inReset && !d.bb.stopped && !d.bb.outA.contains n
  | .maskedBarrel n => !d.bb.inReset && !d.bb.stopped && !d.bb.outB.contains n
  | .sha256 n => !d.dg.inReset && !d.dg.outA.contains n
  | .sha512 n => !d.dg.inReset && !d.dg.outB.contains n
  | .aes n => !d.bk.inReset && !d.bk.stopped && !d.bk.outA.contains n && !(2 ≤ d.sc.stage && 32 ≤ n)
  | .mult n => !d.bk.inReset && !d.bk.stopped && !d.bk.outB.contains n

/-- Cell bytes of the pool of a home engine that turns hold (R105). -/
def Device.used (d : Device) (bolt : Bool) (n : Nat) : Nat :=
  d.turns.foldl (fun s e => if e.2.bolt == bolt && e.2.home == some n && e.2.ending.isNone then s + e.2.budget else s) 0

/-- Cell bytes of a pool that cannot be given out: held, or released and not yet zeroised (R105, R106). -/
def Device.taken (d : Device) (bolt : Bool) (n : Nat) : Nat := d.used bolt n + (d.homeEngine bolt n).dirtyBytes

/-- Bytes of a cell pool (R193, R258). -/
def poolSize (bolt : Bool) : Nat := if bolt then 98304 else 376832

/-- An engine is held by an operation of a turn. -/
def Turn.holds (t : Turn) (e : EngineId) : Bool :=
  match t.op with
  | some o => o.engines.contains e
  | none => false

/-- The turn that holds an engine. -/
def Device.holder (d : Device) (e : EngineId) : Option (Nat × Turn) := d.turns.find? fun x => x.2.holds e

/-- A job of a command block. -/
def Device.job (d : Device) : JobId → Option Job
  | .hinge => d.hg.cmd.job
  | .keyway => d.kw.cmd.job
  | .hasp => d.hs.cmd.job
  | .interlock => d.mi.cmd.job

/-- The device with the job of a command block changed. -/
def Device.onJob (d : Device) (j : JobId) (f : Job → Job) : Device :=
  match j with
  | .hinge => { d with hg := { d.hg with cmd := { d.hg.cmd with job := d.hg.cmd.job.map f } } }
  | .keyway => { d with kw := { d.kw with cmd := { d.kw.cmd with job := d.kw.cmd.job.map f } } }
  | .hasp => { d with hs := { d.hs with cmd := { d.hs.cmd with job := d.hs.cmd.job.map f } } }
  | .interlock => { d with mi := { d.mi with cmd := { d.mi.cmd with job := d.mi.cmd.job.map f } } }

/-- The command blocks that run jobs. -/
def jobIds : List JobId := [.hinge, .keyway, .hasp, .interlock]

/-- The jobs that are running. -/
def Device.jobs (d : Device) : List Job := jobIds.filterMap d.job

/-- Working frames of a tumbler or bolt that started operations and hinge work hold (R197, R222, R258). -/
def Device.framesHeld (d : Device) (bolt : Bool) (n : Nat) : Nat :=
  d.turns.foldl (fun s e => match e.2.op with
    | some o => if o.unit == some (homeId bolt n) then s + o.z.kind.frames else s
    | none => s) 0 +
  (d.jobs.filter fun j => j.unit == some (homeId bolt n)).length

/-- Working frames released whose zeroisation is not complete before the next edge (R197). -/
def Device.framesDirty (d : Device) (bolt : Bool) (n : Nat) : Nat := (d.homeEngine bolt n).dirtyFrames

/-- Both frames of a tumbler are held by one operation (R222). -/
def Device.twoFrame (d : Device) (n : Nat) : Option Op :=
  (d.turns.findSome? fun e => match e.2.op with
    | some o => if o.unit == some (.tumbler n) && o.z.kind.frames == 2 then some o else none
    | none => none)

/-- Strokes that a started operation has still to dispatch, padding included (R189, R224). -/
def Op.strokesLeft (o : Op) : Nat :=
  o.left + o.padLeft + (if o.per = 0 then 0 else o.pad * ceilDiv o.left o.per)

/-- Stage 1 of ageing: the order of turns on a list, best first (R175, R176). -/
def Turn.rank (t : Turn) : List Nat := [t.prio, t.stamp.getD (2 ^ 64)]

/-- The home engine for a turn (R177, R224): an idle engine first, lowest number first; then the one whose stroke has the worst
priority, then the youngest stamp, then the lowest number, hinge work ranking before priority 0 (R175). A tumbler whose frames one
operation holds comes last, the one with the fewest strokes left first. -/
def Device.chooseHome (d : Device) (bolt : Bool) (budget : Nat) : Option Nat :=
  let all := (List.range (if bolt then 16 else 32)).filter fun n =>
    d.usable (homeId bolt n) && !d.draining (homeId bolt n) && d.taken bolt n + budget ≤ poolSize bolt
  let key (n : Nat) : List Nat :=
    match (if bolt then none else d.twoFrame n) with
    | some o => [1, o.strokesLeft, 0, n]
    | none =>
      if d.jobs.any fun j => j.unit == some (homeId bolt n) then [0, 1, 16, 0, n]
      else match d.holder (homeId bolt n) with
      | none => [0, 0, 0, 0, n]
      | some (_, t) => [0, 1, 15 - t.prio, 2 ^ 64 - t.stamp.getD 0, n]
  leastBy key all

/-- Some engine of a home class is in service or parked (R397). -/
def Device.classAlive (d : Device) (bolt : Bool) : Bool :=
  (if bolt then d.bo else d.tu).any fun e => (e.inService || e.parked) && !e.retired

/-! ### Ending a turn (R113, R117) -/

/-- The priority of an end event at one edge (R118): statuses raised before the edge, then ENGINE_RESET, LEAF_QUIESCE, ABORT_CAP. -/
def endRank (s : Status) : Nat :=
  if statusClass s ≠ 4 then 0 else if s = St.engineReset then 1 else if s = St.leafQuiesce then 2 else 3

/-- An end is due at the next edge; of two, the one that R118 puts first stands. -/
def Turn.setDue (t : Turn) (s : Status) : Turn :=
  match t.due with
  | none => { t with due := some s }
  | some o => if endRank s < endRank o then { t with due := some s } else t

/-- The turn has ended with a status: its cells are zeroised and its engines, frames and store released (R106, R117). -/
def Turn.close (t : Turn) (s : Status) (pc : Nat) : Turn :=
  { t with phase := .closing, ending := some (s, pc), cells := [], op := none, modulus := none, due := none, reps := [], stores := [],
           parts := [], awaiting := 0, woken := false }

/-- The device with a home engine changed. -/
def Device.onHome (d : Device) (bolt : Bool) (n : Nat) (f : Engine → Engine) : Device := if bolt then d.onBo n f else d.onTu n f

/-- The working frames of an operation are released, to be zeroised within the following beat (R197), and its node buffer (R251). -/
def Device.releaseFrames (d : Device) (o : Op) : Device :=
  let f (e : Engine) : Engine := { e with dirtyFrames := e.dirtyFrames + o.z.kind.frames }
  let d1 : Device := if o.started && o.shape == .elastic then { d with bb := { d.bb with dirty := d.bb.dirty + 1 } } else d
  match o.unit with
  | some (.tumbler n) => d1.onTu n f
  | some (.bolt n) => d1.onBo n f
  | _ => d1

/-- The store that a turn holds is released for zeroisation: its cell budget and its operation's frames (R106, R197). -/
def Device.releaseStore (d : Device) (slot : Nat) : Device :=
  match Map.get? d.turns slot with
  | none => d
  | some t =>
    let d1 := match t.home with
      | some n => if t.ending.isNone then d.onHome t.bolt n fun e => { e with dirtyBytes := e.dirtyBytes + t.budget } else d
      | none => d
    match t.op with
    | some o => d1.releaseFrames o
    | none => d1

/-- The spill units of a turn are released and zeroised before reuse, 64 beats from now at the latest (R235). -/
def Device.freeSpill (d : Device) (slot : Nat) : Device :=
  let us := Map.getD d.slots.spill slot []
  { d with slots := { d.slots with spill := Map.erase d.slots.spill slot,
                                   zeroising := us.foldl (fun m u => Map.set m u ((d.sc.beat + 64) % 2 ^ 48)) d.slots.zeroising } }

/-- The 32 bytes of a turn record (R119). -/
def recordBytes (t : Turn) (phase : Bool) : Bytes :=
  let (s, pc) := t.ending.getD (0, 0)
  leBytes s.toNat 2 ++ leBytes (b2n (s == St.done) + 2 * b2n phase) 1 ++ leBytes (t.queue % 64) 1 ++ leBytes t.sqSlot 2 ++
  leBytes (pc % 2 ^ 13) 2 ++ leBytes t.hdr.cookie 8 ++ leBytes t.beats 4 ++ zeros 4 ++ leBytes t.stored 4 ++ leBytes t.lastLen 4

/-- Once nothing else of the turn is under way: assigns the completion slot, logs the record's page, and queues the record; a turn
that writes no record is removed (R50, R70, R73, R113, R120). -/
def Device.recordStep (d : Device) (slot : Nat) : Device :=
  match Map.get? d.turns slot with
  | none => d
  | some t =>
    if t.ending.isNone || t.pendingW ≠ 0 || t.recordQueued then d
    else if !t.wantsRecord then { d.freeSpill slot with turns := Map.erase d.turns slot }
    else
      let d := d.freeSpill slot
      match t.record with
      | some r =>
        (d.onTurn slot fun t => { t with recordQueued := true }).writeReq (d.leaf t.leaf).module
          { pasid := d.pasidOf t.leaf, addr := r.addr, data := r.data, why := .record slot }
      | none =>
        let q := (d.leaf t.leaf).queue t.queue
        let addr := q.cqBase + 32 * q.cqTail
        let wrap := 2 ^ q.cqLog ≤ q.cqTail + 1
        let d1 := d.onLeaf t.leaf fun l => l.onQueue t.queue fun q =>
          { q with cqTail := if wrap then 0 else q.cqTail + 1, phase := if wrap then !q.phase else q.phase }
        let rec_ : Deferred := { addr := addr, data := recordBytes t q.phase }
        let (d2, n) := d1.logWrite t.leaf addr 32 (some slot)
        if n = 0 then
          (d2.onTurn slot fun t => { t with record := some rec_, recordQueued := true }).writeReq (d.leaf t.leaf).module
            { pasid := d.pasidOf t.leaf, addr := addr, data := rec_.data, why := .record slot }
        else d2.onTurn slot fun t => { t with record := some rec_, pendingW := n }

/-- A keyway change whose turn is aborted spends its counter value and changes no keyway (R308). -/
def Device.spendChange (d : Device) (slot : Nat) (t : Turn) : Device :=
  if t.phase == .waitCommit || t.phase == .waitEdge then
    d.onLeaf t.leaf fun l => { l with change := l.change.map fun c => if c.slot = slot then { c with change := none } else c }
  else d

/-- Ends a turn other than at END: no deferred write is issued (R111, R117). -/
def Device.endTurn (d : Device) (slot : Nat) (s : Status) (pc : Nat) : Device :=
  let d0 := match Map.get? d.turns slot with
    | some t => d.spendChange slot t
    | none => d
  let d1 := ((d0.dropReads slot).releaseStore slot).onTurn slot fun t => t.close s pc
  (d1.freeSpill slot).recordStep slot

/-- Ends a turn at its PC (R109, R117). -/
def Device.endHere (d : Device) (slot : Nat) (s : Status) : Device :=
  match Map.get? d.turns slot with
  | some t => d.endTurn slot s t.pc
  | none => d

/-! ### Moving to the next word (R101, R136) -/

/-- The REPEATs and the PC after the word before `pc` has run: at the end of a body the next iteration begins, or the REPEAT ends. -/
def settle : List Rep → Nat → List Rep × Nat
  | [], pc => ([], pc)
  | r :: rs, pc =>
    if pc = r.first + r.len then
      (if r.i + 1 < r.count then ({ r with i := r.i + 1 } :: rs, r.first) else settle rs pc)
    else (r :: rs, pc)

/-- The turn at the next word. -/
def Turn.next (t : Turn) : Turn :=
  let (rs, pc) := settle t.reps (t.pc + 1)
  { t with reps := rs, pc := pc, phase := .exec, op := none, parts := [] }

/-- The turn after a SKIP.IF that skips: every REPEAT whose body the target leaves ends at once (R101). -/
def Turn.skip (t : Turn) (n : Nat) : Turn :=
  let target := t.pc + 1 + n
  { t with reps := t.reps.dropWhile fun r => r.first + r.len ≤ target, pc := target }

/-- An instruction has returned a status (R109): the turn goes on, recording the first of class 3, or ends. -/
def Device.returns (d : Device) (slot : Nat) (s : Status) : Device :=
  match Map.get? d.turns slot with
  | none => d
  | some t =>
    match statusClass s with
    | 0 => d.onTurn slot fun t => { t.next with last := s }
    | 3 => d.onTurn slot fun t => { t.next with last := s, firstBad := t.firstBad.or (some (s, t.pc)) }
    | _ => d.endTurn slot s t.pc

/-! ### Becoming ready (R97, R105, R115, R175 to R177) -/

/-- NOT_BEFORE is met at the edge at which BEAT becomes `beat` (R97). -/
def met (beat notBefore : Nat) : Bool := (beat + 2 ^ 48 - notBefore % 2 ^ 48) % 2 ^ 48 < 2 ^ 47

/-- Every turn fetched earlier from the same queue has had its record written (R115). -/
def Device.fenceMet (d : Device) (t : Turn) : Bool :=
  !d.turns.any fun e => e.2.leaf == t.leaf && e.2.queue == t.queue && e.2.fetchNo < t.fetchNo

/-- An older or better turn of the same home class waits for store (R176). -/
def Device.heldBack (d : Device) (t : Turn) : Bool :=
  d.turns.any fun e => e.2.phase == .needHome && e.2.bolt == t.bolt && before e.2.rank t.rank

/-- Gives a turn that waits for store its home, if an engine has the budget free (R105, R177); with no engine of its class left it ends
(R397). -/
def Device.assignHome (d : Device) (slot : Nat) : Device :=
  match Map.get? d.turns slot with
  | none => d
  | some t =>
    if t.phase ≠ .needHome then d
    else if !d.classAlive t.bolt then d.endTurn slot St.engineReset t.pc
    else if d.heldBack t then d
    else match d.chooseHome t.bolt t.budget with
      | none => d
      | some n => d.onTurn slot fun t => { t with home := some n, phase := .exec }

/-- A blocked turn becomes ready when FENCE and NOT_BEFORE are met (R97, R115): it takes its age stamp and its home. -/
def Device.tryReady (d : Device) (slot : Nat) (beat : Nat) : Device :=
  match Map.get? d.turns slot with
  | none => d
  | some t =>
    if t.phase == .blocked && (!t.hdr.fence || d.fenceMet t) && (t.hdr.notBefore == 0 || met beat t.hdr.notBefore) then
      let d1 := d.onTurn slot fun t => { t with phase := .needHome, stamp := some d.sc.nextStamp }
      ({ d1 with sc := { d1.sc with nextStamp := (d1.sc.nextStamp + 1) % 2 ^ 64 } } : Device).assignHome slot
    else d

/-- The slots of turns in the order in which turns that become ready together take their stamps (R172, R175): module 0 before module 1,
then ascending global queue number, then fetch order. -/
def Device.slotsByQueue (d : Device) : List Nat :=
  (sortBy (fun e => [(d.leaf e.2.leaf).module, 64 * e.2.leaf + e.2.queue, e.2.fetchNo]) d.turns).map Prod.fst

/-- The slots of turns, oldest fetch first (R115). -/
def Device.slotsByFetch (d : Device) : List Nat :=
  (sortBy (fun e => [e.1]) (d.turns.map fun e => (e.2.fetchNo, e.1))).map Prod.snd

/-- After a record: fenced turns of the queue are looked at again (R115, R137). -/
def Device.wakeFences (d : Device) (l q : Nat) : Device :=
  d.slotsByFetch.foldl (fun d slot => match Map.get? d.turns slot with
    | none => d
    | some t =>
      if t.leaf ≠ l ∨ t.queue ≠ q then d
      else if t.phase == .waitFence then (if d.fenceMet t then d.onTurn slot Turn.next else d)
      else d.tryReady slot d.sc.beat) d

/-- A turn has passed or failed decode (R98): refused turns write their record at once. -/
def Device.decodeTurn (d : Device) (slot : Nat) (ws : List DWord) : Device :=
  match decodeProgram ws with
  | .error (pc, s) => d.endTurn slot s pc
  | .ok p =>
    let d1 := d.onTurn slot fun t =>
      { t with prog := p, phase := .blocked, bolt := homeIsBolt p, budget := cellBudget p }
    d1.tryReady slot d.sc.beat

/-- One fetched entry has arrived (R94 to R98): the header is checked, then the program is decoded or read. An entry of a leaf that has
begun to quiesce ends at once (R91); one that RESET aborts at the next edge is discarded (R73). -/
def Device.entryArrived (d : Device) (slot : Nat) (e : Bytes) : Device :=
  match Map.get? d.turns slot with
  | none => d
  | some t =>
    let l := d.leaf t.leaf
    let h := readHeader e
    let d1 := d.onTurn slot fun t => { t with hdr := h, prio := max h.prio (l.queue t.queue).floor }
    if t.resetDue || t.ending.isSome then d
    else if l.state ≠ .active then d1.endTurn slot St.leafQuiesce 0x1FFF
    else if !headerOk e then d1.endTurn slot St.badHeader 0x1FFF
    else if h.ptr then
      let (d2, n) := d1.readParts l.module (d.pasidOf t.leaf) h.progAddr (8 * h.len) (.prog slot)
      d2.onTurn slot fun t => { t with phase := .progRead, awaiting := n, parts := [] }
    else d1.decodeTurn slot (readWords (e.drop 32) h.len)

/-- The parts of a turn's data joined in order of their offset. -/
def Turn.joined (t : Turn) : Bytes := t.parts.foldr (fun e r => e.2 ++ r) []

/-- The words whose instruction still charges beats, from the PC on and in the REPEATs around it (R74, R118). -/
def Turn.strokesAhead (t : Turn) : Bool :=
  let from_ := t.reps.foldl (fun m r => if r.i + 1 < r.count then min m r.first else m) t.pc
  (t.prog.drop from_).any fun z => (t.engineClass z).isSome

end Sys2Proof.Machine
end

