-- ==== Sys2Proof/Machine/Stores.lean ====
section
/-! DEFINITION. The home stores of tumblers and bolts: errors that a check finds in them and what they end (R199 to R201, R219, R258, R270),
hinge work that a fault touches (R65), and injected store errors. -/

namespace Sys2Proof.Machine

/-- Sets bits of TU_EVT (R219). -/
def Device.tuEvt (d : Device) (n bits : Nat) : Device := d.onTu n fun e => { e with evt := e.evt ||| bits }

/-- Sets bits of BO_EVT (R270). -/
def Device.boEvt (d : Device) (n bits : Nat) : Device := d.onBo n fun e => { e with evt := e.evt ||| bits }

/-- Hinge work of a kind loses its working state and starts again (R65). -/
def Device.failWork (d : Device) (p : Job → Bool) : Device :=
  jobIds.foldl (fun d j => d.onJob j fun x => if p x then { x with failed := true } else x) d

/-- Hinge work whose stroke runs on one of some engines loses its working state (R65). -/
def Device.failStrokes (d : Device) (p : EngineId → Bool) : Device := d.failWork fun x => x.inStroke.any p

/-- An end by a status of its own is due for the turn in a slot at the next edge (R117, R118). -/
def Device.endDue (d : Device) (slot : Nat) (s : Status) : Device :=
  d.onTurn slot fun t => if t.ending.isNone then t.setDue s else t

/-- The turns and the hinge work that an uncorrectable stripe or row concerns (R201, R258): every owner of a cell in it, or the holder of the
frame; none in the blank area or in free pool. -/
def Device.storeEnds (d : Device) (e : EngineId) : StoreSpot → Device
  | .cells owners => owners.foldl (fun d s => d.endDue s St.memoryFault) d
  | .frame (some s) => d.endDue s St.memoryFault
  | .frame none => d.failWork fun x => x.unit == some e
  | .blank | .free => d

/-- A turn in this slot is homed on a home engine. -/
def Device.homedOn (d : Device) (e : EngineId) (slot : Nat) : Bool :=
  (Map.get? d.turns slot).any fun t => t.home.any fun n => homeId t.bolt n == e

/-- The operation of the turn in this slot holds a frame of a home engine. -/
def Device.framedOn (d : Device) (e : EngineId) (slot : Nat) : Bool :=
  (Map.get? d.turns slot).any fun t => t.op.any fun o => o.unit == some e

/-- A stripe or row of a home engine's store can lie there. -/
def Device.spotOn (d : Device) (e : EngineId) : StoreSpot → Bool
  | .cells owners => !owners.isEmpty && owners.all (d.homedOn e)
  | .frame (some s) => d.framedOn e s
  | .frame none => d.jobs.any fun x => x.unit == some e
  | .blank => (match e with
    | .tumbler _ => true
    | _ => false)
  | .free => true

/-- A stripe or row that holds turn data or a frame (R218, R269). -/
def spotInUse : StoreSpot → Bool
  | .cells _ | .frame _ => true
  | .blank | .free => false

/-- An uncorrectable error in a store of a home engine (R201, R218, R258, R269): counted, raised, and the owners end. -/
def Device.storeUe (d : Device) (e : EngineId) (spot : StoreSpot) : Device :=
  let d1 := match e with
    | .tumbler n => ((d.onTu n fun x => { x with ue := satAdd 16 x.ue 1 }).tuEvt n 4).raiseSrc (24 * n + if spotInUse spot then 2 else 4)
    | .bolt n => ((d.onBo n fun x => { x with ue := satAdd 16 x.ue 1 }).boEvt n 2).raiseSrc (768 + 12 * n + if spotInUse spot then 1 else 2)
    | _ => d
  d1.storeEnds e spot

/-- A corrected error in a store of a home engine (R200, R258). -/
def Device.storeCe (d : Device) (e : EngineId) (outer : Bool) : Device :=
  match e with
  | .tumbler n =>
    if outer then ((d.onTu n fun x => { x with rs := satAdd 16 x.rs 1 }).tuEvt n 2).raiseSrc (24 * n + 1)
    else ((d.onTu n fun x => { x with ce := satAdd 16 x.ce 1 }).tuEvt n 1).raiseSrc (24 * n)
  | .bolt n => ((d.onBo n fun x => { x with ce := satAdd 16 x.ce 1 }).boEvt n 1).raiseSrc (768 + 12 * n)
  | _ => d

/-- The next write into a home store meets the error injected for it (R219, R270), at the place given. -/
def Device.injectStore (d : Device) (e : EngineId) (spot : StoreSpot) : Device :=
  let clear : Device := match e with
    | .tumbler n => d.onTu n fun x => { x with armed := none }
    | .bolt n => d.onBo n fun x => { x with armed := none }
    | _ => d
  match e with
  | .tumbler n => (match (d.tumbler n).armed with
    | some 0 => clear.storeCe e false
    | some 1 => clear.storeCe e true
    | some 2 => clear.storeUe e spot
    | _ => d)
  | .bolt n => (match (d.bolt n).armed with
    | some 0 => clear.storeCe e false
    | some 1 => clear.storeUe e spot
    | _ => d)
  | _ => d

/-- A turn's cells are written outside a stroke: by LOAD, or by an instruction that holds no engine (R127, R219, R270). -/
def Device.cellWrite (d : Device) (slot : Nat) : Device :=
  match Map.get? d.turns slot with
  | some t => (match t.home with
    | some n => d.injectStore (homeId t.bolt n) (.cells [slot])
    | none => d)
  | none => d

end Sys2Proof.Machine
end

