-- ==== Sys2Proof/Machine/Issue.lean ====
section
/-! DEFINITION. Starting and finishing a Zaxus instruction: the word at the PC, its checks, its draws, its outcome and other effects
(R109, R125 to R132, R143, R151, R247, R248, R276, R296). -/

namespace Sys2Proof.Machine

/-- NOT_READY of every leaf (R292). -/
def Entropy.notReady (n : Entropy) : Bool := !(n.state == .ready || n.state == .low)

/-- The lines of the output buffer that a draw of `n` bytes takes: each line is served once (R289). -/
def drawLines (n : Nat) : Nat := ceilDiv n 64

/-- The internal region can serve a draw now (R132, R289). -/
def Device.canDraw (d : Device) (n : Nat) : Bool := !d.ns.notReady && drawLines n ≤ d.ns.internal.length

/-- The reseeds of mask and blinding generators that are due, one line each: they are served before turns (R209, R260, R289). -/
def Device.reseedsDue (d : Device) : Nat :=
  ((d.tu.map Engine.mask ++ d.bo.map Engine.mask ++ [d.bb.mask]).filter fun g =>
    !g.seeded || g.starved || (d.sc.beat + 2 ^ 48 - g.due % 2 ^ 48) % 2 ^ 48 < 2 ^ 47).length

/-- A turn of an older stamp waits for its bytes (R289). -/
def Device.olderWaits (d : Device) (t : Turn) : Bool :=
  d.turns.any fun e => e.2.phase == .waitEntropy && e.2.op.isNone && e.2.stamp.getD (2 ^ 64) < t.stamp.getD (2 ^ 64)

/-- Hinge work waits for random bytes (R289, R298). -/
def Device.hingeDraws (d : Device) : Bool := d.hg.cmd.job.any fun x => x.phase == .waiting && (x.op == 11 || x.op == 12)

/-- The internal region serves a draw of a turn now: after the reseeds that are due and hinge work, in age-stamp order (R289). -/
def Device.servesTurn (d : Device) (t : Turn) (n : Nat) : Bool :=
  d.canDraw n && !d.hingeDraws && drawLines n + d.reseedsDue ≤ d.ns.internal.length && !d.olderWaits t

/-- The first `n` bytes of the oldest lines of the internal region. -/
def Entropy.lineBytes (x : Entropy) (n : Nat) : Bytes := ((x.internal.take (drawLines n)).foldr (· ++ ·) []).take n

/-- Serves the lines of a draw: each leaves the buffer and is counted (R289, R300). -/
def Device.takeLines (d : Device) (n : Nat) : Device :=
  { d with ns := { d.ns with internal := d.ns.internal.drop (drawLines n), lines := wrapAdd 48 d.ns.lines (drawLines n) } }

/-- The turn whose word at the PC is the instruction `k`, ready to run it. -/
def Device.atWord (d : Device) (slot : Nat) (k : ZKind) : Option (Turn × ZInstr) :=
  match Map.get? d.turns slot with
  | none => none
  | some t =>
    if t.phase ≠ .exec then none
    else match t.prog[t.pc]? with
      | some z => if z.kind = k then some (t, z) else none
      | none => none

/-- The word at the PC of the turn in `slot` is `k`. -/
def Device.at (d : Device) (slot : Nat) (k : ZKind) : Bool := (d.atWord slot k).isSome

/-- Gives a slot of key state a new stamp of the device-wide sequence (R247). -/
def Device.newStamp (d : Device) (s : Nat) : Device :=
  { d with slots := { d.slots with stamps := Map.set d.slots.stamps s d.slots.nextStamp,
                                   nextStamp := (d.slots.nextStamp + 1) % 2 ^ 48 } }

/-- The address in vault memory of slot or trap frame `p` of the shared part, 128 bytes each (R79, R249). -/
def vaultPiece (p : Nat) : Nat := 0x1800000 + 128 * p

/-- The slots of the key state that slot `s` belongs to: itself, or the group of four of a SHA-3 key state (R246, R247). -/
def Slots.group (x : Slots) (s : Nat) : List Nat :=
  let base := s / 4 * 4
  match Map.get? x.slots base with
  | some (.first a _ _) => if 4 ≤ a then [base, base + 1, base + 2, base + 3] else [s]
  | _ => [s]

/-- Writes a key state (R246 to R248): every key state that it overlaps is emptied, and each slot concerned gets a new stamp. -/
def Device.writeKeyState (d : Device) (s alg : Nat) (inner outer : Bytes) : Device :=
  let own := if alg < 4 then [s] else [s, s + 1, s + 2, s + 3]
  let hit := own.foldl (fun l x => (d.slots.group x).foldl insertNew l) []
  let cleared := hit.foldl (fun m x => Map.erase m x) d.slots.slots
  let filled := own.foldl (fun m x => Map.set m x (if x = s then .first alg inner outer else .cont)) cleared
  hit.foldl Device.newStamp { d with slots := { d.slots with slots := filled } }

/-- Empties a key state, and zeroises its bytes (R246, R247, R254). -/
def Device.emptySlot (d : Device) (s : Nat) : Device :=
  let g := d.slots.group s
  g.foldl Device.newStamp { d with slots := { d.slots with slots := g.foldl (fun m x => Map.erase m x) d.slots.slots },
                                   vault := g.foldl (fun m x => m.clear (vaultPiece x) 128) d.vault }

/-- A vault context slot is written (R276): of two writes in one beat the one of the younger turn stands. -/
def Device.writeContext (d : Device) (t : Turn) (s code : Nat) (bs : Bytes) : Device :=
  let stamp := t.stamp.getD 0
  match Map.get? (d.leaf t.leaf).ctxAt s with
  | some (beat, younger) =>
    if beat = d.sc.beat ∧ stamp < younger then d
    else d.onLeaf t.leaf fun l => { l with ctx := Map.set l.ctx s (code, bs), ctxAt := Map.set l.ctxAt s (d.sc.beat, stamp) }
  | none => d.onLeaf t.leaf fun l => { l with ctx := Map.set l.ctx s (code, bs), ctxAt := Map.set l.ctxAt s (d.sc.beat, stamp) }

/-- The key-state slots that a key state of an algorithm takes (R246). -/
def slotCost (alg : Nat) : Nat := if alg < 4 then 1 else 4

/-- The spill units of the turn in a slot that hold no public key yet: those of the key generation under way (R235). -/
def Device.claimed (d : Device) (slot : Nat) : List Nat :=
  (Map.getD d.slots.spill slot []).filter fun u => !((Map.get? d.turns slot).any fun t => t.stores.any fun x => x.units.contains u)

/-- One effect of an instruction besides its cells. A key state whose slots have left the leaf's range since the stroke began is not
written: the commit has zeroised them (R246). -/
def Device.applyEff (d : Device) (slot : Nat) (t : Turn) : Eff → Device
  | .keyState s alg i o => if (d.leaf t.leaf).ownsSlots s (slotCost alg) then d.writeKeyState s alg i o else d
  | .ctxVault s code bs => d.writeContext t s code bs
  | .keyway c =>
    let v := d.cut t.leaf + 1
    (d.onLeaf t.leaf fun l => { l with change := some { change := some c, value := v, slot := slot, was := d.cut t.leaf } }).commit (.cut t.leaf v) (.keyway t.leaf)
  | .deferPub a bs => d.onTurn slot fun t => { t with stores := t.stores ++ [{ addr := a % 2 ^ 64, data := bs, units := d.claimed slot }] }
  | .modulus c n => d.onTurn slot fun t => { t with modulus := some (c, n) }
  | .invariant n => ((d.onBo n fun e => { e with invariants := satAdd 16 e.invariants 1 }).boEvt n 0x4).raiseIn (768 + 12 * n + 8) slot
  | .refusal n => d.onBo n fun e => { e with refusals := satAdd 16 e.refusals 1 }

/-- A keyway change is among the effects. -/
def Result.changesKeyway (r : Result) : Bool := r.effs.any fun e => match e with
  | .keyway _ => true
  | _ => false

/-- Counts of blocks, permutations and products when an operation ends (R255, R280): what the instruction fed, or a full beat's work for
each stroke of a signature. DESIGN CHOICE of the unit counted, log entry 24. -/
def Device.countWork (d : Device) (t : Turn) (o : Op) : Device :=
  let z := o.z
  let strokes := o.total
  let hash (alg n : Nat) : Device :=
    if alg < 4 then { d with dg := { d.dg with count := wrapAdd 48 d.dg.count n } }
    else { d with bb := { d.bb with count := wrapAdd 48 d.bb.count n } }
  match z.kind with
  | .digestAbsorb | .digestStream => hash (t.hstate z.dst).alg o.blocks
  | .xofSqueeze => let a := (t.hstate z.a).alg; hash a (z.imm / algBlock a)
  | .macKeystate => hash z.set4 2
  | .macFinal => hash (t.hstate z.a).alg 1
  | .keywDerive => hash 0 strokes
  | .slhKeygen | .slhSign | .slhVerify => if z.set4 % 2 = 1 then hash 8 (42 * strokes) else hash 0 (12 * strokes)
  | .blkEnc | .blkDec => { d with bk := { d.bk with count := wrapAdd 48 d.bk.count (t.len z.a / 16) } }
  | .ghash => { d with bk := { d.bk with count2 := wrapAdd 48 d.bk.count2 (t.len z.a / 16) } }
  | .xtsSeq => { d with bk := { d.bk with count2 := wrapAdd 48 d.bk.count2 z.imm } }
  | _ => d

/-- Releases the outcome of an instruction (R109, R129, R143, R171): its cells, its other effects and its status. A keyway change makes
the turn wait for its commit. -/
def Device.release (d : Device) (slot : Nat) (r : Result) : Device :=
  match Map.get? d.turns slot with
  | none => d
  | some t =>
    let d1 := d.onTurn slot fun t => r.outs.foldl (fun t o => t.write o.1 o.2.1 o.2.2) t
    let d2 := r.effs.foldl (fun d e => d.applyEff slot t e) d1
    let d2 : Device := if r.status = St.cutStale then { d2 with kw := { d2.kw with stale := satAdd 16 d2.kw.stale 1 } }
      else if r.status = St.cutIntegrity then { d2 with kw := { d2.kw with integrity := satAdd 16 d2.kw.integrity 1 } }
      else d2
    if r.changesKeyway then d2.onTurn slot fun t => { t with phase := .waitCommit, op := none }
    else d2.returns slot r.status

/-- A keyway change of the leaf is under way, or an instruction that may change it holds an engine (R143). -/
def Device.keywayBusy (d : Device) (l : Nat) : Bool :=
  (d.leaf l).change.isSome || d.turns.any fun e => e.2.leaf == l && (match e.2.op with
    | some o => o.started && (o.z.kind == .keywCut || o.z.kind == .keywGen)
    | none => false)

/-- The key-state slot that an instruction reads before its stroke, or as it restarts a closed MAC state (R245, R247). -/
def Turn.slotRead (t : Turn) (z : ZInstr) : Option Nat :=
  let h := t.hstate z.dst
  match z.kind with
  | .macInit => some (leNat (t.bytes z.a))
  | .digestAbsorb | .digestStream => if h.mac && h.closed then some h.slot else none
  | _ => none

/-- Source 1104 (R254, R255): a key-state slot is uncorrectable. It is zeroised, and so empty. -/
def Device.keySlotUe (d : Device) (s : Nat) : Device :=
  let d1 := (d.emptySlot s).raiseSrc 1104
  { d1 with dg := { d1.dg with evt := d1.dg.evt ||| 4, armed := if d1.dg.armed = some 2 then none else d1.dg.armed } }

/-- Source 1058 (R276, R280): a vault context slot is uncorrectable. It is emptied. -/
def Device.contextUe (d : Device) (l s : Nat) : Device :=
  let d1 := (d.onLeaf l fun x => { x with ctx := Map.erase x.ctx s }).raiseSrc 1058
  { d1 with bk := { d1.bk with evt := d1.bk.evt ||| 4, armed := if d1.bk.armed = some 2 then none else d1.bk.armed } }

/-- The next read of a slot meets an injected uncorrectable error (R255, R280): the slot is emptied; the reader ends with MEMORY_FAULT. -/
def Device.slotFault (d : Device) (t : Turn) (z : ZInstr) : Option Device :=
  if z.kind = .ctxRestoreVault then (if d.bk.armed = some 2 then some (d.contextUe t.leaf (field z.imm 0 3)) else none)
  else match t.slotRead z with
    | some s => if d.dg.armed = some 2 then some (d.keySlotUe s) else none
    | none => none

/-- Runs an instruction that holds no engine, in the home store controller (R125, R127): a failed check ends the turn uncharged. -/
def Device.runNow (d : Device) (slot : Nat) (t : Turn) (z : ZInstr) (rnd : Bytes) : Device :=
  match d.preCheck t z with
  | some s => d.endTurn slot s t.pc
  | none => match d.slotFault t z with
    | some d' => d'.endTurn slot St.memoryFault t.pc
    | none =>
      let d1 := if z.kind = .ctxRestoreVault then d.onTurn slot fun t => { t with vaultRead := some (field z.imm 0 3) }
        else d.onTurn slot fun _ => d.restartCell t z
      let r := d.compute t z none rnd
      (if r.outs.isEmpty then d1 else d1.cellWrite slot).release slot r

/-- The operation of an instruction, not started. -/
def Turn.newOp (t : Turn) (z : ZInstr) (rnd : Bytes) : Op :=
  { z := z, cls := (t.engineClass z).getD 0, shape := t.shape z, per := t.strokes z, blocks := t.feedBlocks z, rnd := rnd }

/-- Puts the operation on its ready list (R175); an instruction without strokes runs at once. -/
def Device.makeReady (d : Device) (slot : Nat) (t : Turn) (z : ZInstr) (rnd : Bytes) : Device :=
  if t.strokes z = 0 then d.runNow slot t z rnd
  else d.onTurn slot fun t => { t with op := some (t.newOp z rnd), phase := .ready }

/-- Goes on with a checked instruction: it draws, or waits for its random bytes (R132, R296), and joins its list. -/
def Device.drawThen (d : Device) (slot : Nat) (t : Turn) (z : ZInstr) : Device :=
  if z.drawLen = 0 then d.makeReady slot t z []
  else if d.servesTurn t z.drawLen then (d.takeLines z.drawLen).makeReady slot t z (d.ns.lineBytes z.drawLen)
  else d.onTurn slot fun t => { t with phase := .waitEntropy, entropyWait := d.sc.beat, woken := false }

/-- Starts the instruction at the PC (R125, R130, R132): a failed check ends the turn uncharged. -/
def Device.start (d : Device) (slot : Nat) (t : Turn) (z : ZInstr) : Device :=
  match d.preCheck t z with
  | some s => d.endTurn slot s t.pc
  | none => d.drawThen slot t z

/-- Starts an engine instruction of the turn in `slot`. -/
def Device.issue (d : Device) (slot : Nat) (k : ZKind) : Device :=
  match d.atWord slot k with
  | some (t, z) => d.start slot t z
  | none => d

/-- The bytes that a turn waited for have come: it joins its list, or, without strokes, waits for the first edge whose freeze point
follows (R186, R296). -/
def Device.bytesCame (d : Device) (slot : Nat) (t : Turn) (z : ZInstr) : Device :=
  (d.takeLines z.drawLen).onTurn slot fun x =>
    { x with op := some (t.newOp z (d.ns.lineBytes z.drawLen)), phase := if t.strokes z = 0 then .waitEntropy else .ready }

/-- Serves turns that wait for random bytes in the order given, the oldest first: none passes one that is still unserved (R289). -/
def Device.serveEach (d : Device) : List (Nat × Turn) → Device
  | [] => d
  | (slot, t) :: r => match t.prog[t.pc]? with
    | none => d.serveEach r
    | some z => if d.servesTurn t z.drawLen then (d.bytesCame slot t z).serveEach r else d

/-- Serves the turns that wait for random bytes, in age-stamp order (R186, R289, R296). -/
def Device.serveDraws (d : Device) : Device :=
  d.serveEach (sortBy (fun e : Nat × Turn => [e.2.stamp.getD (2 ^ 64)]) (d.turns.filter fun e => e.2.phase == .waitEntropy && e.2.op.isNone))

end Sys2Proof.Machine
end

