-- ==== Sys2Proof/Machine/Sched.lean ====
section
/-! DEFINITION. The scheduler: doorbells and the fetch list (R69, R70, R172 to R174), the hot table (R78), the freeze point (R176 to R185,
R413), dispatch at the beat edge (R107, R108, R180, R189, R190, R222, R223, R235) and the end of strokes (R171, R217). -/

namespace Sys2Proof.Machine

/-! ### Fetch -/

/-- Entries of a ring between a head and a tail. -/
def ringCount (log head tail : Nat) : Nat := (tail + 2 ^ log - head) % 2 ^ log

/-- Completion slots of a queue that can still be reserved (R70): those that hold no unread record and are reserved for no turn; one
slot stays unused, since equal pointers mean an empty ring (DEDUCED, log entry 25). -/
def Device.freeCq (d : Device) (l q : Nat) : Nat :=
  let k := (d.leaf l).queue q
  let reserved := ((d.queueTurns l q).filter fun e => e.2.wantsRecord && e.2.record.isNone).length
  2 ^ k.cqLog - 1 - ringCount k.cqLog k.cqHead k.cqTail - reserved

/-- Entries of a queue that may be fetched, whether or not the leaf stands in the hot table (R58, R69, R70). -/
def Device.entriesReady (d : Device) (l q : Nat) : Nat :=
  let x := d.leaf l
  let k := x.queue q
  if x.state ≠ .active || x.resetting || !k.en || k.stopped then 0
  else min (ringCount k.sqLog k.sqHead k.sqTail) (d.freeCq l q)

/-- Entries of a queue that may be fetched now: those of a hot leaf (R78, R172). -/
def Device.fetchable (d : Device) (l q : Nat) : Nat := if (d.leaf l).hot then d.entriesReady l q else 0

/-- A queue joins the fetch list if it has an entry to fetch and is not on it (R172). -/
def Device.joinFetch (d : Device) (l q : Nat) : Device :=
  if d.fetchable l q = 0 || d.sc.fetchList.contains (l, q) then d
  else { d with sc := { d.sc with fetchList := d.sc.fetchList ++ [(l, q)] } }

/-- A cold leaf with work is marked active (R78, R172). -/
def Device.wakeLeaf (d : Device) (l : Nat) : Device :=
  if (d.leaf l).hot || d.sc.entering.any (fun e => e.1 == l) then d
  else { d with sc := { d.sc with entering := d.sc.entering ++ [(l, 0, none)] } }

/-- Stops a queue (R69). -/
def Device.stopQueue (d : Device) (l q : Nat) : Device :=
  ((d.onLeaf l fun x => x.onQueue q fun k => { k with stopped := true }).leafStatus l 0x2).leafCause l 0x40

/-- Acts on a doorbell value (R69): SQ_TAIL [15:0], CQ_HEAD [31:16]. -/
def Device.actDoorbell (d : Device) (l q v : Nat) : Device :=
  let k := (d.leaf l).queue q
  let tail := field v 0 16
  let head := field v 16 16
  if !k.en || 2 ^ k.sqLog ≤ tail || 2 ^ k.cqLog ≤ head then d.stopQueue l q
  else if k.stopped then d
  else
    let d1 := d.onLeaf l fun x => x.onQueue q fun k => { k with sqTail := tail, cqHead := head }
    if (d1.leaf l).hot then d1.joinFetch l q else if d1.entriesReady l q = 0 then d1 else d1.wakeLeaf l

/-- A leaf acts on the doorbells latched while it was quiesced (R58). -/
def Device.actLatched (d : Device) (l : Nat) : Device :=
  let vs := (d.leaf l).latched
  vs.foldl (fun d e => d.actDoorbell l e.1 e.2) (d.onLeaf l fun x => { x with latched := [] })

/-- In-flight turns that a leaf may hold (R174, R192). -/
def Sched.leafLimit (c : Sched) : Nat := if 1 ≤ c.limit ∧ c.limit ≤ 64 then c.limit else 64

/-- The header before an entry has arrived. -/
def noHeader : Header := { len := 0, ptr := false, fence := false, prio := 0, cap := 0, cookie := 0, notBefore := 0, dataBase := 0, progAddr := 0 }

/-- The read of an entry can be issued on a module at once: an entry counts as fetched only then (R47, R57, R91). -/
def Device.canIssue (d : Device) (m : Nat) : Bool := d.linkUp m && ((d.dma m).reads.filter DmaRead.issued).length < 256

/-- SQ_FETCH (R70, R173, R174): the queue at the head of the fetch list reads up to four entries that fit under both limits and up to
the end of its ring; the rest goes to the tail. -/
def Device.sqFetch (d : Device) : Device :=
  match d.sc.fetchList with
  | [] => d
  | (l, q) :: rest =>
    let d0 : Device := { d with sc := { d.sc with fetchList := rest } }
    let avail := d.fetchable l q
    if avail = 0 then d0
    else
      let k := (d.leaf l).queue q
      let m := (d.leaf l).module
      let want := if d.canIssue m then min (min 4 avail) (2 ^ k.sqLog - k.sqHead) else 0
      let devRoom := 8192 - d.turns.length
      let n := min want (min (d.sc.leafLimit - (d.turnsOf l).length) devRoom)
      let full := devRoom < want && devRoom ≤ d.sc.leafLimit - (d.turnsOf l).length
      let d1 := d0.when full fun d => ({ d with sc := { d.sc with evt := d.sc.evt ||| 1 } } : Device).raiseSrc 1256
      let d2 := (List.range n).foldl (fun (a : Device × List Nat) i =>
        let slot := a.1.freeSlot
        let t : Turn := { leaf := l, queue := q, sqSlot := k.sqHead + i, fetchNo := a.1.sc.nextFetch, hdr := noHeader }
        ({ a.1 with turns := Map.set a.1.turns slot t, sc := { a.1.sc with nextFetch := a.1.sc.nextFetch + 1 } }, a.2 ++ [slot])) (d1, [])
      let d3 := if n = 0 then d2.1 else
        (d2.1.onLeaf l fun x => x.onQueue q fun k => { k with sqHead := (k.sqHead + n) % 2 ^ k.sqLog }).readReq m
          (d.pasidOf l) ((k.sqBase + 128 * k.sqHead) % 2 ^ 64) (128 * n) (.entries d2.2)
      if d3.fetchable l q = 0 then d3 else { d3 with sc := { d3.sc with fetchList := d3.sc.fetchList ++ [(l, q)] } }

/-- SQ_FETCH (R173). -/
def execSqFetch (s : State) : Host.Outcome State Fault Refusal := run s (!s.dev.sc.fetchList.isEmpty) s.dev.sqFetch

/-! ### Engines for an operation -/

/-- SHA-2 sets and hashes with a 512-bit core. -/
def shaCores (wide : Bool) : List EngineId := (List.range 32).map fun n => if wide then .sha512 n else .sha256 n

/-- The engines that may run strokes of an operation, in the order of choice (R104, R178, R239, R251, R271): the one that holds its working
frame (R197), and with it the idle bank of a trapped one (R249); for the home class the home; a big-number operation of a turn with a
tumbler home takes any bolt. -/
def Turn.pool (t : Turn) (o : Op) : List EngineId :=
  let hash (alg : Nat) : List EngineId := if alg < 4 then shaCores (2 ≤ alg) else (List.range 192).map .plainBarrel
  let home : List EngineId := match t.home with
    | some n => [homeId t.bolt n]
    | none => []
  match o.unit with
  | some e => [e]
  | none =>
    match o.z.kind with
    | .digestAbsorb | .digestStream => hash (t.hstate o.z.dst).alg
    | .xofSqueeze | .macFinal => hash (t.hstate o.z.a).alg
    | .macKeystate => hash o.z.set4
    | .keywDerive => shaCores (1 ≤ o.z.var)
    | .slhKeygen | .slhSign | .slhVerify =>
      if o.z.set4 % 2 = 1 then (List.range 192).map .plainBarrel ++ (List.range 64).map .maskedBarrel
      else if o.z.set4 < 4 then shaCores false else shaCores false ++ shaCores true
    | .ghash | .xtsSeq => (List.range 16).map .mult
    | _ => if o.cls = 3 then (List.range 64).map .aes
           else if o.cls = 1 && !t.bolt then (List.range 16).map .bolt
           else home

/-- A masked barrel of the bank. -/
def isMasked : EngineId → Bool
  | .maskedBarrel _ => true
  | _ => false

/-- SHAKE signing or key generation: it dispatches only with a masked barrel (R251). -/
def Op.needsMasked (o : Op) : Bool := (o.z.kind == .slhSign || o.z.kind == .slhKeygen) && o.z.set4 % 2 == 1

/-- SHAKE verification: its masked barrels are those that no signature claims (R251). -/
def Op.verifies (o : Op) : Bool := o.z.kind == .slhVerify && o.z.set4 % 2 == 1

/-- Least and greatest number of engines at one edge (R178). -/
def Op.need (o : Op) : Nat × Nat :=
  match o.shape with
  | .single => (1, 1)
  | .gang k => (k, k)
  | .elastic => (1, if o.z.set4 % 2 = 1 then 64 else 16)

/-- Of the free engines, those that an operation takes, up to `limit` strokes (R178, R251): an elastic one as many as it may, for SHAKE
signing and key generation at most 16 masked and 48 plain barrels and one masked at least. -/
def Op.take (o : Op) (free : List EngineId) (limit : Nat) : List EngineId :=
  let masked := free.filter isMasked
  let plain := free.filter fun e => !isMasked e
  match o.shape with
  | .elastic =>
    if o.needsMasked then
      let m := masked.take (min 16 limit)
      if m.isEmpty then [] else m ++ plain.take (min 48 (limit - m.length))
    else (plain ++ masked).take (min o.need.2 limit)
  | _ => if free.length < o.need.1 then [] else free.take o.need.1

/-- An engine that the operation cannot do without: any of its pool, for SHAKE signing a masked barrel. -/
def Op.serves (o : Op) (e : EngineId) : Bool := !o.needsMasked || isMasked e

/-- The strokes that the operation may still dispatch at one edge. -/
def Op.limit (o : Op) : Nat := if o.started then o.left else o.per

/-- A generator that lets masked strokes run (R209). -/
def MaskGen.ok (g : MaskGen) : Bool := g.seeded && !g.starved

/-- An instruction whose strokes need masks or blinding values (R209, R252, R260). -/
def ZInstr.masked (z : ZInstr) : Bool :=
  let op := z.kind.op
  if 0x30 ≤ op && op ≤ 0x46 then z.kind != .mldsaVerify
  else if 0x61 ≤ op && op ≤ 0x76 then !([ZKind.bnAdd, .bnSub, .bnMul, .ecVerify, .edVerify, .rsaPub].contains z.kind)
  else (z.kind == .slhSign || z.kind == .slhKeygen) && z.set4 % 2 == 1

/-- The generator behind an engine lets masked strokes run (R209, R252, R260). -/
def Device.genOk (d : Device) : EngineId → Bool
  | .tumbler n => (d.tumbler n).mask.ok
  | .bolt n => (d.bolt n).mask.ok
  | .plainBarrel _ | .maskedBarrel _ => d.bb.mask.ok
  | _ => true

/-- The generator of masks or blinding values allows a stroke of the operation on an engine. -/
def Device.maskOk (d : Device) (o : Op) (e : EngineId) : Bool := !o.z.masked || d.genOk e

/-- The units of the shared part of vault memory that back committed key-state ranges (R249). -/
def Device.keyUnits (d : Device) : List Nat :=
  (List.range 32).filter fun u => d.leaves.any fun e =>
    0 < e.2.slotCount && e.2.slotBase < 2048 * (u + 1) && 2048 * u < e.2.slotBase + e.2.slotCount

/-- The units that a pending range waits for (R249). -/
def Device.pendUnits (d : Device) : List Nat :=
  match d.slots.pend with
  | none => []
  | some (_, b, n) => (List.range 32).filter fun u => 0 < n && b < 2048 * (u + 1) && 2048 * u < b + n

/-- The units held as spill units, and those released and not yet zeroised (R235). -/
def Device.spillUnits (d : Device) : List Nat :=
  d.slots.spill.foldl (fun l e => l ++ e.2) [] ++ d.slots.zeroising.map Prod.fst

/-- The pieces that hold trap frames: piece p lies in unit p ÷ 2,048 (R249). -/
def Device.pieces (d : Device) : List Nat := d.turns.filterMap fun e => e.2.op.bind Op.frame

/-- Trap frames in a unit. -/
def Device.framesIn (d : Device) (u : Nat) : Nat := (d.pieces.filter fun p => p / 2048 == u).length

/-- Units lent to nothing (R249, R255). -/
def Device.freeUnits (d : Device) : List Nat :=
  (List.range 32).filter fun u => !d.keyUnits.contains u && !d.pendUnits.contains u && !d.spillUnits.contains u && d.framesIn u == 0

/-- Frame pieces of 128 bytes that are free (R249): in units that hold frames, and in units lent to nothing. -/
def Device.freePieces (d : Device) : Nat :=
  ((List.range 32).foldl (fun s u => if 0 < d.framesIn u && !d.pendUnits.contains u then s + (2048 - d.framesIn u) else s) 0) +
  2048 * d.freeUnits.length

/-- The piece for the next trap frame (R249): in a unit that holds frames and has room, else in a free unit. DESIGN CHOICE of the lowest
number, log entry 83. -/
def Device.nextPiece (d : Device) : Option Nat :=
  let unit := ((List.range 32).find? fun u => 0 < d.framesIn u && d.framesIn u < 2048 && !d.pendUnits.contains u).or d.freeUnits.head?
  unit.bind fun u => ((List.range 2048).map (2048 * u + ·)).find? fun p => !d.pieces.contains p

/-! ### Freeze point (R176 to R185, R413) -/

/-- An operation has strokes left after the beat that runs (R179). -/
def Op.goesOn (o : Op) : Bool := o.left ≠ 0 || o.padLeft ≠ 0

/-- The engines that an operation keeps at the next edge (R179, R180): those it holds, while it has strokes for them and none stops; a
signature gives up what it cannot use, a verification its masked barrels (R251). -/
def Device.keeps (d : Device) (t : Turn) (o : Op) : List EngineId :=
  if !(t.phase == .running && o.started && o.goesOn) then []
  else
    let own := o.engines.filter fun e => d.usable e && d.maskOk o e && !(o.verifies && isMasked e)
    match o.shape with
    | .elastic => o.take own o.left
    | _ => if own.length = o.engines.length then own else []

/-- Hinge work has strokes left in its segment. -/
def Job.goesOn (x : Job) : Bool :=
  match x.phase with
  | .working (g :: _) => g.n ≠ 0 && !x.failed
  | _ => false

/-- The segment that the hinge work runs. -/
def Job.seg (x : Job) : Option Seg :=
  match x.phase with
  | .working (g :: _) => some g
  | _ => none

/-- An engine may run hinge work of a segment (R65, R209, R260). -/
def Device.jobEngine (d : Device) (g : Seg) (e : EngineId) : Bool := d.usable e && (!g.masked || 2 ≤ g.cls || d.genOk e)

/-- The engines that continuing operations and hinge work keep at the next edge (R179, R180). -/
def Device.keptEngines (d : Device) : List EngineId :=
  if 3 ≤ d.sc.stage then []
  else
    d.turns.foldl (fun l e => match e.2.op with
      | some o => l ++ d.keeps e.2 o
      | none => l) [] ++
    d.jobs.foldl (fun l x => match x.inStroke, x.seg with
      | some e, some g => if x.goesOn && d.jobEngine g e then l ++ [e] else l
      | _, _ => l) []

/-- The plan of a freeze point as it grows: engines kept or given, entries, engines pre-empted with their turns, trap frames reserved,
node buffers given, turns refused admission. -/
structure FreezeAcc where
  taken : List EngineId
  plans : List Plan := []
  victims : List (Nat × EngineId) := []
  frames : Nat := 0
  starts : Nat := 0
  shed : List Nat := []
  deriving DecidableEq, Repr

/-- An instruction that stage 1 does not admit (R413). -/
def ZInstr.shed (z : ZInstr) : Bool :=
  match z.kind with
  | .slhKeygen | .slhSign | .slhVerify | .mceKeygen | .mceEncaps | .mceDecaps => true
  | k => 0x61 ≤ k.op && k.op ≤ 0x76 && (z.cls == 7 || z.cls == 8)

/-- The oldest turn homed on a tumbler is about to start an operation on two frames (R223); its slot. -/
def Device.drainFor (d : Device) (n : Nat) : Option Nat :=
  let homed := d.turns.filter fun e => !e.2.bolt && e.2.home == some n && e.2.ending.isNone
  match leastBy (fun e : Nat × Turn => [e.2.stamp.getD (2 ^ 64)]) homed with
  | some (slot, t) => (match t.op with
    | some o => if !o.started && o.cls == 0 && o.z.kind.frames == 2 then some slot else none
    | none => none)
  | none => none

/-- An operation that has not started may start on an engine: not while the engine drains (R395) or its tumbler waits for two frames
(R223), nor without working frames free (R197, R222, R258). -/
def Device.startsOn (d : Device) (slot : Nat) (frames : Nat) (e : EngineId) : Bool :=
  !d.draining e && (match e with
  | .tumbler n => d.framesHeld false n + d.framesDirty false n + frames ≤ 2 && (match d.drainFor n with
    | some x => x == slot
    | none => true)
  | .bolt n => d.framesHeld true n + d.framesDirty true n + frames ≤ 2
  | _ => true)

/-- Node buffers that operations hold: one each from its first stroke to its end (R251, R255). -/
def Device.nodeBuffers (d : Device) : Nat :=
  (d.turns.filter fun e => match e.2.op with
    | some p => p.started && p.shape == .elastic
    | none => false).length

/-- Node buffers that cannot be given: held, or released and not yet zeroised (R251). -/
def Device.buffersHeld (d : Device) : Nat := d.bb.dirty + d.nodeBuffers

/-- The engines that the operation could use at the next edge, free or not. -/
def Device.poolFor (d : Device) (slot : Nat) (t : Turn) (o : Op) : List EngineId :=
  (t.pool o).filter fun e => d.usable e && d.maskOk o e && (o.started || d.startsOn slot o.z.kind.frames e)

/-- The operation may take engines at the next edge: its leaf is hot (R78), and a new SLH-DSA operation finds a node buffer (R251). -/
def Device.mayRun (d : Device) (acc : FreezeAcc) (t : Turn) (o : Op) : Bool :=
  (d.leaf t.leaf).hot && (o.started || o.shape != .elastic || d.buffersHeld + acc.starts < 16)

/-- The engines of a pool that a turn of a priority, or hinge work, may pre-empt (R181), the victim of R182 first: worst priority, youngest
stamp, highest engine number. An operation on two frames is never pre-empted (R222). -/
def Device.preemptable (d : Device) (hinge : Bool) (prio : Nat) (pool : List EngineId) (acc : FreezeAcc) : List (Nat × EngineId) :=
  let of (e : Nat × Turn) : List (List Nat × Nat × EngineId) := match e.2.op with
    | some o =>
      if o.started && o.goesOn && e.2.phase == .running && o.z.kind.frames ≤ 1 &&
          (hinge || (d.sc.gap ≠ 0 && prio + d.sc.gap ≤ e.2.prio)) then
        (o.engines.filter fun x => pool.contains x && !acc.victims.contains (e.1, x)).map fun x =>
          ([15 - e.2.prio, 2 ^ 64 - e.2.stamp.getD 0, 1024 - EngineId.num x], e.1, x)
      else []
    | none => []
  (sortBy Prod.fst (d.turns.foldl (fun l e => l ++ of e) [])).map Prod.snd

/-- The victim needs a trap frame: it is left without an engine to run on (R183, R249). -/
def Device.leftEmpty (d : Device) (gone : List (Nat × EngineId)) (v : Nat × EngineId) : Bool :=
  match (Map.get? d.turns v.1).bind Turn.op with
  | some o => (o.take (o.engines.filter fun e => e != v.2 && !gone.contains (v.1, e)) (max 1 o.left)).isEmpty
  | none => false

/-- Takes up to `need` victims, each that is left without an engine while a frame piece is free for it (R182, R249). -/
def Device.takeVictims (d : Device) (acc : FreezeAcc) (need : Nat) (cands : List (Nat × EngineId)) : List (Nat × EngineId) × Nat :=
  cands.foldl (fun (a : List (Nat × EngineId) × Nat) v =>
    if need ≤ a.1.length then a
    else if d.leftEmpty (acc.victims ++ a.1) v then
      (if acc.frames + a.2 < d.freePieces then (a.1 ++ [v], a.2 + 1) else a)
    else (a.1 ++ [v], a.2)) ([], 0)

/-- KEYW.CUT or KEYW.GEN not started yet: keyway changes of one leaf are serialised (R143). -/
def Op.changesKeyway (o : Op) : Bool := !o.started && (o.z.kind == .keywCut || o.z.kind == .keywGen)

/-- A keyway change of the leaf under way holds the operation back (R143). -/
def Device.keywayHeld (d : Device) (t : Turn) (o : Op) : Bool := o.changesKeyway && d.keywayBusy t.leaf

/-- A plan already starts a keyway change of the leaf at the edge (R143). -/
def Device.keywayPlanned (d : Device) (plans : List Plan) (l : Nat) : Bool :=
  plans.any fun p => match p.who with
    | .turn s => ((Map.get? d.turns s).map fun t => t.leaf == l && (t.op.map Op.changesKeyway).getD false).getD false
    | .job _ => false

/-- The plan with one entry more. -/
def FreezeAcc.give (acc : FreezeAcc) (w : Who) (es hold : List EngineId) (vs : List (Nat × EngineId)) (frames starts : Nat) : FreezeAcc :=
  { acc with taken := acc.taken ++ hold, plans := acc.plans ++ [{ who := w, engines := es, victims := vs }],
             victims := acc.victims ++ vs, frames := acc.frames + frames, starts := acc.starts + starts }

/-- Plans one turn for the next edge on the engines of `pool` (R176, R178, R181 to R183, R251). A gang that stays short holds the free
engines of its class from later turns, and those of up to as many victims as it is short of (R182; DEDUCED, log entry 26). -/
def Device.planOn (d : Device) (acc : FreezeAcc) (slot : Nat) (t : Turn) (o : Op) (pool : List EngineId) : FreezeAcc :=
  let free := pool.filter fun e => if o.engines.contains e then !acc.victims.contains (slot, e) else !acc.taken.contains e
  let start := b2n (!o.started && o.shape == .elastic)
  let got := o.take free o.limit
  if !d.mayRun acc t o || (d.keywayHeld t o || o.changesKeyway && d.keywayPlanned acc.plans t.leaf) then acc
  else if 1 ≤ d.sc.stage && !o.started && o.z.shed && !got.isEmpty then { acc with shed := acc.shed ++ [slot] }
  else if !got.isEmpty then acc.give (.turn slot) got got [] 0 start
  else if !o.engines.isEmpty then acc
  else
    let serving := pool.filter o.serves
    let need := o.need.1 - (free.filter o.serves).length
    let (vs, frames) := d.takeVictims acc need (d.preemptable false t.prio serving acc)
    let freed := vs.map Prod.snd
    let got := o.take (free ++ freed) o.limit
    match o.shape with
    | .gang _ => if vs.isEmpty then { acc with taken := acc.taken ++ free } else acc.give (.turn slot) got (free ++ freed) vs frames 0
    | _ => if got.isEmpty then acc else acc.give (.turn slot) got got vs frames start

/-- Plans one turn for the next edge. A SHAKE verification waits with the masked barrels for `addMasked` (R251). -/
def Device.planTurn (d : Device) (acc : FreezeAcc) (slot : Nat) (t : Turn) (o : Op) : FreezeAcc :=
  let pool := d.poolFor slot t o
  if !o.verifies then d.planOn acc slot t o pool
  else
    let plain := pool.filter fun e => !isMasked e
    if (o.take (plain.filter fun e => o.engines.contains e || !acc.taken.contains e) o.limit).isEmpty then acc
    else d.planOn acc slot t o plain

/-- Once every signature has its masked barrels, a SHAKE verification takes of the rest: as many more as it may, or, without a plain
barrel, its first (R251). -/
def Device.addMasked (d : Device) (acc : FreezeAcc) (slot : Nat) (t : Turn) (o : Op) : FreezeAcc :=
  if !o.verifies || acc.shed.contains slot then acc
  else
    let pool := d.poolFor slot t o
    match acc.plans.find? fun p => p.who == .turn slot with
    | none => d.planOn acc slot t o pool
    | some p =>
      let more := ((pool.filter isMasked).filter fun e => !acc.taken.contains e).take (min o.need.2 o.limit - p.engines.length)
      { acc with taken := acc.taken ++ more,
                 plans := acc.plans.map fun x => if x.who == .turn slot then { x with engines := x.engines ++ more } else x }

/-- The engines of hinge work by class (R65): tumblers, bolts, one AES core or one digest core. -/
def jobPool (cls : Nat) : List EngineId :=
  match cls with
  | 0 => (List.range 32).map .tumbler
  | 1 => (List.range 16).map .bolt
  | 3 => (List.range 64).map .aes
  | _ => shaCores true

/-- Plans hinge work for the next edge, before every leaf turn (R65, R175, R181): work whose engine goes on is kept, trapped work waits for
its engine (R188), and a new segment takes an engine of its class, pre-empting if it must. -/
def Device.planJob (d : Device) (acc : FreezeAcc) (j : JobId) : FreezeAcc :=
  match d.job j with
  | none => acc
  | some x =>
    match x.seg with
    | none => acc
    | some g =>
      if g.n = 0 || x.failed || (match x.inStroke with
        | some e => acc.taken.contains e
        | none => false) then acc
      else
        let all := match x.unit with
          | some e => [e]
          | none => (jobPool g.cls).filter (d.startsOn noSlot 1)
        let pool := all.filter (d.jobEngine g)
        match pool.find? fun e => !acc.taken.contains e with
        | some e => acc.give (.job j) [e] [e] [] 0 0
        | none =>
          match d.takeVictims acc 1 (d.preemptable true 0 pool acc) with
          | (v :: _, frames) => acc.give (.job j) [v.2] [v.2] [v] frames 0
          | ([], _) => acc

/-- The turns that want engines at the next edge, in the order of the ready lists (R175, R176): those on ready lists, and signatures that
may take more barrels. -/
def Device.wanting (d : Device) : List (Nat × Turn) :=
  sortBy (fun e : Nat × Turn => e.2.rank) (d.turns.filter fun e => match e.2.op with
    | some o => e.2.phase == .ready || (e.2.phase == .running && o.shape == .elastic && o.left ≠ 0)
    | none => false)

/-- The streamed bytes that have come without a gap (R233, R244). -/
def prefixLen : Map Bytes → Nat → Nat
  | [], n => n
  | (o, b) :: r, n => if o = n then prefixLen r (n + b.length) else n

/-- The data that the next stroke of a streamed instruction needs has arrived (R233, R244). -/
def Turn.dataReady (t : Turn) (o : Op) : Bool :=
  let have_ := prefixLen t.parts 0
  let done := if o.started then o.total - o.left else 0
  match o.z.kind with
  | .digestStream => let h := t.hstate o.z.dst; min o.blocks ((done + 1) * algPerBeat h.alg) * algBlock h.alg ≤ have_
  | .mceEncaps =>
    let (s, slice_, last) := mceSlices o.z.set4
    if done = 0 ∨ o.left = 0 then true else (if done + 1 = s then (s - 2) * slice_ + last else done * slice_) ≤ have_
  | _ => true

/-- Turns whose delay ends at the next edge leave their list, and blocked turns whose NOT_BEFORE is met become ready, in the order of
R172 (R175, R185); streamed data and random bytes that have come let their turns go on (R186). -/
def Device.wakeDelayed (d : Device) : Device :=
  let beat := (d.sc.beat + 1) % 2 ^ 48
  d.slotsByQueue.foldl (fun d slot => match Map.get? d.turns slot with
    | none => d
    | some t =>
      match t.phase with
      | .waitDelay w => if met beat w then d.onTurn slot fun t => { t.next with woken := true } else d
      | .blocked => (d.tryReady slot beat).onTurn slot fun t => if t.phase == .exec then { t with woken := true } else t
      | .waitSlice => (match t.op with
        | some o => if t.dataReady o then d.onTurn slot fun t => { t with phase := .ready } else d
        | none => d)
      | .waitEntropy => if t.op.isSome then d.onTurn slot fun t => { t with woken := true } else d
      | _ => d) d

/-- A cold leaf with a turn on a ready list is active: it enters the hot table before the turn can dispatch (R78). -/
def Device.wakeCold (d : Device) : Device :=
  d.turns.foldl (fun d e => if e.2.phase == .ready && !(d.leaf e.2.leaf).hot then d.wakeLeaf e.2.leaf else d) d

/-- The stage counts from this freeze point on (R414, R415). -/
def Device.takeStage (d : Device) : Device := { d with sc := { d.sc with stage := d.power.applied } }

/-- Working frames and node buffers released before this freeze point are zeroised by the next edge (R197, R251). -/
def Device.cleanFrames (d : Device) : Device :=
  { d with tu := d.tu.map fun e => { e with dirtyFrames := 0 }, bo := d.bo.map fun e => { e with dirtyFrames := 0 },
           bb := { d.bb with dirty := 0 } }

/-- Marks the turns that the freeze point finds on ready lists: with the turns that leave their delay lists there, only they may stand
in the dispatch set of the next edge, beside running signatures (R179, R185). -/
def Device.markReady (d : Device) : Device :=
  d.wanting.foldl (fun d e => if e.2.phase == .ready then d.onTurn e.1 fun t => { t with woken := true } else d) d

/-- The turns that may stand in the dispatch set. -/
def Device.planned (d : Device) : List (Nat × Turn) := d.wanting.filter fun e => e.2.phase != .ready || e.2.woken

/-- The dispatch set of the marked turns, in the order of the ready lists, beside the hinge work planned before (R175, R176, R251). -/
def Device.planTurns (d : Device) (jobs : FreezeAcc) : FreezeAcc :=
  let go (f : FreezeAcc → Nat → Turn → Op → FreezeAcc) (a : FreezeAcc) (e : Nat × Turn) : FreezeAcc := match e.2.op with
    | some o => f a e.1 e.2 o
    | none => a
  d.planned.foldl (go d.addMasked) (d.planned.foldl (go d.planTurn) jobs)

/-- Fixes the dispatch set and ends the turns that stage 1 does not admit (R179, R413). -/
def Device.fixPlan (d : Device) (jobs : FreezeAcc) : Device :=
  let acc := d.planTurns jobs
  acc.shed.foldl (fun d slot => d.endHere slot St.admissionShed) { d with sc := { d.sc with plan := acc.plans } }

/-- FREEZE_POINT (R179): the dispatch set for the next edge is fixed. At stage 3 nothing dispatches. -/
def Device.freeze (d : Device) : Device :=
  let d1 := d.takeStage.cleanFrames.wakeDelayed.wakeCold.markReady
  let d2 : Device := { d1 with sc := { d1.sc with tick := .frozen, plan := [], kept := d1.keptEngines } }
  if 3 ≤ d2.sc.stage then d2
  else d2.fixPlan ([JobId.hinge, .keyway, .hasp, .interlock].foldl (fun a j => d2.planJob a j) { taken := d2.sc.kept })

/-- FREEZE_POINT (R179): only in a beat whose freeze point has not been. -/
def execFreezePoint (s : State) : Host.Outcome State Fault Refusal := run s (s.dev.sc.tick == .begun) s.dev.freeze

/-- The hinge work of the dispatch set, beside the engines kept at the freeze point. -/
def Device.jobPlans (d : Device) : FreezeAcc :=
  let js := d.sc.plan.filter fun p => match p.who with
    | .job _ => true
    | .turn _ => false
  { taken := js.foldl (fun l p => l ++ p.engines) d.sc.kept, plans := js, victims := js.foldl (fun l p => l ++ p.victims) [],
    frames := (js.filter fun p => !p.victims.isEmpty).length }

/-- A turn that left its delay list at the freeze point may still join the dispatch set of the edge (R185): the set is fixed again over
all marked turns, so that older turns come first and short gangs hold their engines (R176). -/
def Device.joinLate (d : Device) (slot : Nat) : Device :=
  match Map.get? d.turns slot with
  | some t =>
    if t.woken && t.phase == .ready && d.sc.tick != .begun && d.sc.stage < 3 then d.fixPlan d.jobPlans else d
  | none => d

end Sys2Proof.Machine
end

