-- ==== Sys2Proof/Machine/Sequencer.lean ====
section
/-! DEFINITION. The sequencers (R385 to R390, R404): the fields of a microword, the fetch through the hooks, one stroke from SYNC to SYNC,
its faults, the trap frame, and the micro-trace. The words of the ROM are not published (R387): one word that ends the stroke and goes on at
itself stands for each (DESIGN CHOICE, log entry 85). -/

namespace Sys2Proof.Machine

/-! ### Microwords (R387) -/

/-- The fields of a microword but for the datapath controls. -/
structure Microword where
  fclr : Nat
  fset : Nat
  imm : Nat
  lop : Nat
  lsel : Nat
  sync : Bool
  cond : Nat
  cyc : Nat
  nsp : Bool
  next : Nat
  deriving DecidableEq, Repr

/-- The fields of a control store word. -/
def microword (w : BitVec 192) : Microword :=
  let v := w.toNat
  { fclr := field v 56 8, fset := field v 48 8, imm := field v 32 16, lop := field v 27 2, lsel := field v 25 2, sync := bitOf v 24,
    cond := field v 18 6, cyc := field v 15 3, nsp := bitOf v 14, next := field v 0 14 }

/-- The word that stands for the ROM word at an address (log entry 85). -/
def romWord (addr : Nat) : Microword :=
  { fclr := 0, fset := 0, imm := 0, lop := 0, lsel := 0, sync := true, cond := 0, cyc := 0, nsp := false, next := addr }

/-- The word at a micro-PC (R386): of the patch store, of the patch word that an enabled hook names, or of the ROM. -/
def Section.fetch (x : Section) (st : MicroState) : Microword :=
  let patch (a : Nat) : Microword := microword (x.words.getD a 0)
  if st.patch then patch st.pc
  else match x.hooks.find? fun h => h.1 == st.pc with
    | some h => patch h.2
    | none => romWord st.pc

/-- The 14 bits of a micro-PC (R386). -/
def MicroState.upc (st : MicroState) : Nat := b2n st.patch * 2 ^ 13 + st.pc % 2 ^ 13

/-! ### One stroke -/

/-- What stops a sequencer in a stroke (R386, R387). -/
inductive SeqFault where
  | patch | micro | overrun
  deriving DecidableEq, Repr

/-- A stroke as it runs: the micro-state, engine cycles, the micro-PCs of the words executed, engine conditions asked for, the end. -/
structure SeqRun where
  st : MicroState
  cycles : Nat := 0
  pcs : List Nat := []
  asked : Nat := 0
  fault : Option SeqFault := none
  synced : Bool := false
  deriving DecidableEq, Repr

/-- The flags after FCLR and FSET (R387): a flag named in both is set. -/
def Microword.flags (w : Microword) (f : Nat) : Nat := clearBits f w.fclr ||| w.fset

/-- The counters after LOP (R387). A decrement wraps at 16 bits (DESIGN CHOICE, log entry 85). -/
def Microword.counters (w : Microword) (c : List Nat) : List Nat :=
  match w.lop with
  | 1 => modifyAt c w.lsel fun _ => w.imm
  | 2 => modifyAt c w.lsel fun n => (n + 65535) % 65536
  | _ => c

/-- COND over flags and counters; an engine condition, which is not published, is the free value given (R387). -/
def Microword.holds (w : Microword) (flags : Nat) (ctr : List Nat) (engine : Bool) : Bool :=
  if w.cond = 0 then false
  else if w.cond ≤ 4 then nth ctr (w.cond - 1) 0 ≠ 0
  else if w.cond ≤ 12 then bitOf flags (w.cond - 5)
  else engine

/-- One word (R386, R387). Its condition sees the flags and counters that it leaves (DESIGN CHOICE, log entry 85). -/
def Section.step (x : Section) (engine : Nat → Bool) (r : SeqRun) : SeqRun :=
  let w := x.fetch r.st
  let flags := w.flags r.st.flags
  let ctr := w.counters r.st.ctr
  let next := (if w.holds flags ctr (engine r.asked) then w.next ||| 1 else w.next) % 8192
  let cycles := r.cycles + w.cyc + 1
  { st := { pc := next, patch := w.nsp, flags := flags, ctr := ctr }, cycles := cycles, pcs := r.pcs ++ [r.st.upc],
    asked := r.asked + b2n (decide (12 < w.cond)),
    fault := if w.lop = 3 then some .micro else if w.nsp && 2048 ≤ next then some .patch else if 1024 < cycles then some .overrun else none,
    synced := w.sync }

/-- The words of one stroke, up to the one with SYNC (R387); each takes a cycle at least. -/
def Section.run (x : Section) (engine : Nat → Bool) : Nat → SeqRun → SeqRun
  | 0, r => r
  | n + 1, r => let y := x.step engine r; if y.synced || y.fault.isSome then y else x.run engine n y

/-- One stroke from a micro-state. -/
def Section.stroke (x : Section) (engine : Nat → Bool) (st : MicroState) : SeqRun := x.run engine 1025 { st := st }

/-! ### The sequencers of the device -/

/-- The sequencer that drives an engine, numbered as in MC_TRACE_CTL.SEQ (R385, R407); the digest cores have none of their own. -/
def seqOf : EngineId → Option Nat
  | .tumbler n => some n
  | .bolt n => some (32 + n)
  | .plainBarrel _ | .maskedBarrel _ => some 48
  | .aes _ | .mult _ => some 49
  | .sha256 _ | .sha512 _ => none

/-- The sequencer of an operation on its engines: the bank's drives every SLH-DSA operation (R385). -/
def Op.seq (o : Op) (es : List EngineId) : Option Nat := if o.shape == .elastic then some 48 else es.head?.bind seqOf

/-- The section that a sequencer runs (R392, R393, R395). -/
def Device.sectionOf (d : Device) (q : Nat) : Section :=
  let pick (cls : Nat) (b : Option Bool) : Section :=
    let k := nth d.mc.classes cls {}
    match b with
    | none => {}
    | some toB => if toB then k.secB else k.secA
  if q < 32 then pick 0 (d.tumbler q).sect
  else if q < 48 then pick 1 (d.bolt (q - 32)).sect
  else if q = 48 then pick 2 d.bb.sect
  else pick 3 d.bk.sect

/-- The source of a sequencer's fault (R218, R269, R405); the shared arrays have no overrun source, and their micro-state source stands for
it (DESIGN CHOICE, log entry 85). -/
def seqSource (q : Nat) (f : SeqFault) : Nat :=
  if q < 32 then 24 * q + (match f with | .patch => 10 | .micro => 11 | .overrun => 13)
  else if q < 48 then 768 + 12 * (q - 32) + (match f with | .patch => 6 | .micro => 7 | .overrun => 10)
  else (if q = 48 then 1464 else 1467) + (match f with | .patch => 0 | _ => 1)

/-- The executed words of a stroke join the capture on their sequencer, which stops when it is full (R404). -/
def Device.capture (d : Device) (q : Nat) (pcs : List Nat) : Device :=
  let m := d.mc
  if !(m.traceEn && m.traceSeq == q) then d
  else
    let trace := m.trace ++ (pcs.map fun p => (d.sc.beat % 2 ^ 14, p)).take (4096 - m.trace.length)
    if trace.length < 4096 then { d with mc := { m with trace := trace } }
    else ({ d with mc := { m with trace := trace, traceEn := false } } : Device).mcEvt 0x10

/-- A sequencer runs one stroke from a micro-state: the micro-state it leaves and its fault, if any. -/
def Device.seqStroke (d : Device) (q : Nat) (st : MicroState) : SeqRun × Device :=
  let r := (d.sectionOf q).stroke (fun i => (Config.freeByte (d.fresh + i)).getLsbD 0) st
  (r, ({ d with fresh := d.fresh + r.asked } : Device).capture q r.pcs)

/-- The micro-state of a new operation (R183): the entry of its instruction in the ROM. -/
def entryState (z : ZInstr) : MicroState := { pc := Config.entryPc z.kind.op % 8192 }

/-! ### Trap frames (R389, R390) -/

/-- The trap frame of an operation of the turn in `slot` on sequencer `q` (R389). The places inside bytes 20 to 63 are the model's own (log
entry 85): attempts, padding strokes, refusal flag, class of the modulus, FED. -/
def frameBytes (t : Turn) (o : Op) (slot q version fed : Nat) : Bytes :=
  leBytes o.micro.upc 2 ++ leBytes o.micro.flags 2 ++ ((List.range 4).foldr (fun i r => leBytes (nth o.micro.ctr i 0) 2 ++ r) []) ++
  leBytes version 4 ++ leBytes slot 2 ++ leBytes q 1 ++ [0] ++
  leBytes o.attempt 4 ++ leBytes o.padLeft 4 ++ leBytes (b2n (o.result.status != 0)) 1 ++ leBytes ((t.modulus.map Prod.fst).getD 0xFF) 1 ++
  zeros 2 ++ leBytes fed 4 ++ zeros 92

/-- The frame fits the sequencer that resumes it (R390). -/
def frameOk (b : Bytes) (q version : Nat) : Bool := u32 b 12 == version && u8 b 18 == q && u8 b 19 == 0

/-- The operation as a frame restores it (R183, R389). -/
def Op.restored (o : Op) (b : Bytes) : Op :=
  { o with micro := { pc := field (u16 b 0) 0 13, patch := bitOf (u16 b 0) 13, flags := u16 b 2, ctr := (List.range 4).map fun i => u16 b (4 + 2 * i) },
           attempt := u32 b 20, padLeft := u32 b 24 }

end Sys2Proof.Machine
end

