-- ==== Sys2Proof/Machine/Edge.lean ====
section
/-! DEFINITION. The beat edge: aborts (R73, R74, R117, R118), keyway changes (R307), homes, pre-emption and trap frames (R183, R184, R389,
R390), the first stroke of an operation (R125, R130, R131, R205), caps and charges (R107, R108, R180), padding and blank strokes (R189,
R190), streamed slices (R233), spill units (R235), hinge work (R65) and the hot table (R78). -/

namespace Sys2Proof.Machine

/-- The PC that the record of an aborted turn names (R98, R117): 0x1FFF while its entry or its program is still being read, as where decode
refuses it (DESIGN CHOICE, log entry 86). -/
def Turn.endPc (t : Turn) : Nat := if t.phase == .fetching || t.phase == .progRead then 0x1FFF else t.pc

/-! ### Keyway changes (R307) -/

/-- The keyway after a change (R307). -/
def Keyway.change (k : Keyway) (value : Nat) : KwChange → Keyway
  | .load key attr alg ex => { key := fit 64 key, attr := attr, alg := alg, exportable := ex, loaded := true, gen := value % 2 ^ 32 }
  | .rebind attr ex => { k with attr := attr, exportable := ex, gen := value % 2 ^ 32 }
  | .clear => { gen := value % 2 ^ 32 }

/-- An abort or another end is due at the next edge for the turn of a keyway change: it comes first (R180, R308). -/
def Device.endsFirst (d : Device) (slot : Nat) : Bool := ((Map.get? d.turns slot).map fun t => t.due.isSome).getD false

/-- A durable keyway change takes effect, and its instruction returns DONE (R307), unless an end of its turn is due at the same edge:
the end then comes first (DEDUCED, log entry 78). -/
def Device.applyKeyway (d : Device) (l : Nat) : Device :=
  match (d.leaf l).change with
  | some c =>
    if !c.durable || d.endsFirst c.slot then d
    else
      let kw' := match c.change with
        | some k => (d.leaf l).kw.change c.value k
        | none => (d.leaf l).kw
      let d1 := d.onLeaf l fun x => { x with kw := kw', change := none }
      let d2 : Device := { d1 with kw := { d1.kw with cuts := wrapAdd 64 d1.kw.cuts (b2n c.change.isSome) } }
      match Map.get? d2.turns c.slot with
      | some t => if t.phase == .waitEdge && t.leaf == l then d2.returns c.slot St.done else d2
      | none => d2
  | none => d

/-- A durable keyway change of the leaf waits for its edge. -/
def Leaf.changeDue (x : Leaf) : Bool := (x.change.map KwPending.durable).getD false

/-- KEYWAY_CHANGE_APPLY (R307): at the edge after the commit is durable. -/
def execKeywayChangeApply (leaf : Nat) (s : State) : Host.Outcome State Fault Refusal :=
  run s ((s.dev.leaf leaf).changeDue && s.dev.sc.tick == .ended) (s.dev.applyKeyway leaf)

/-! ### Spill units (R235) -/

/-- The operation runs the assembly phase of its accepted attempt with its next stroke (R234). -/
def Op.atAssembly (o : Op) : Bool :=
  o.z.kind == .mceKeygen && o.left == (mceKeygenPlan o.z.set4).2.1 && o.padLeft == 0

/-- Claims the spill units of a key generation, lowest numbers first, if all are free (R235). -/
def Device.claimSpill (d : Device) (slot : Nat) (o : Op) : Option Device :=
  let n := (mceKeygenPlan o.z.set4).2.2
  let free := d.freeUnits.take n
  if free.length < n then none
  else some { d with slots := { d.slots with spill := Map.set d.slots.spill slot (Map.getD d.slots.spill slot [] ++ free) } }

/-- SPILL_UNIT_GRANT (R235): the oldest waiting key generation receives its units and rejoins its list. -/
def Device.spillGrant (d : Device) (slot : Nat) : Option Device :=
  match Map.get? d.turns slot with
  | some t =>
    (match t.phase, t.op with
    | .waitSpill, some o =>
      if d.turns.any (fun e => e.2.phase == .waitSpill && e.1 != slot && before e.2.rank.tail t.rank.tail) then none
      else (d.claimSpill slot o).map fun d => d.onTurn slot fun t => { t with phase := .ready }
    | _, _ => none)
  | none => none

/-- SPILL_UNIT_GRANT (R235). -/
def execSpillUnitGrant (slot : Nat) (s : State) : Host.Outcome State Fault Refusal :=
  run s (s.dev.spillGrant slot).isSome ((s.dev.spillGrant slot).getD s.dev)

/-! ### Trap frames (R183, R249, R389) -/

/-- The idle micro-state bank behind an engine holds a micro-state (R183, R385). -/
def Device.setIdle (d : Device) (e : EngineId) (m : MicroState) : Device :=
  match e with
  | .tumbler n => d.onTu n fun x => { x with idle := m }
  | .bolt n => d.onBo n fun x => { x with idle := m }
  | .plainBarrel _ | .maskedBarrel _ => { d with bb := { d.bb with idle := m } }
  | .aes _ | .mult _ => { d with bk := { d.bk with idle := m } }
  | .sha256 _ | .sha512 _ => d

/-- The number in byte 18 of a trap frame (R389); 0xFF stands for a digest core, which has no sequencer. -/
def frameSeq (q : Option Nat) : Nat := q.getD 0xFF

/-- The version of the section that a sequencer runs (R389); 0 for a digest core. -/
def Device.versionOf (d : Device) (q : Option Nat) : Nat := (q.map fun n => (d.sectionOf n).version).getD 0

/-- The blocks that a hashing instruction has fed (R240, R389). -/
def Turn.fedSoFar (t : Turn) (o : Op) : Nat :=
  match o.z.kind with
  | .digestAbsorb | .digestStream => (t.hstate o.z.dst).fed
  | _ => 0

/-- The operation without its engines, its micro-state in a frame piece or, with none free, in the idle bank of its engine (R249). -/
def Op.parked (o : Op) (piece : Option Nat) : Op :=
  { o with engines := [], active := false, frame := piece, bank := if piece.isSome then none else o.engines.head? }

/-- A turn's operation is trapped (R183, R188): its engines are free, and it goes on in a phase. One without an engine lies in its frame
already. -/
def Device.trap (d : Device) (slot : Nat) (phase : Phase) : Device :=
  match Map.get? d.turns slot with
  | none => d
  | some t =>
    match t.op with
    | none => d
    | some o =>
      if o.engines.isEmpty then d.onTurn slot fun t => { t with phase := phase } else
      let q := o.seq o.engines
      let piece := d.nextPiece
      let frame := frameBytes t o slot (frameSeq q) (d.versionOf q) (t.fedSoFar o)
      let d1 := d.onTurn slot fun t => { t with phase := phase, op := some (o.parked piece) }
      match piece, o.engines with
      | some p, _ => { d1 with vault := d1.vault.writeN (vaultPiece p) frame }
      | none, e :: _ => d1.setIdle e o.micro
      | none, [] => d1

/-- A pre-emption takes one engine from a running operation, and SC_PREEMPTS counts it (R181 to R183): with no engine left and none given at
this edge, the operation is trapped. -/
def Device.preempt (d : Device) (planned : List Nat) (v : Nat × EngineId) : Device :=
  match (Map.get? d.turns v.1).bind Turn.op with
  | none => d
  | some o =>
    if !o.engines.contains v.2 then d
    else
      let rest := o.engines.filter (· != v.2)
      let d1 : Device := { d with sc := { d.sc with preempts := wrapAdd 48 d.sc.preempts 1 } }
      if rest.isEmpty && !planned.contains v.1 then d1.trap v.1 .ready
      else d1.onTurn v.1 fun t => { t with op := some { o with engines := rest } }

/-! ### The first stroke of an operation -/

/-- Padding strokes that follow each attempt of an operation that starts now (R189, R190). -/
def Device.padFor (d : Device) (t : Turn) (z : ZInstr) : Nat :=
  match t.home with
  | some n => if !t.bolt && bitOf d.sc.blank (n / 8) then z.kind.padded - t.strokes z else 0
  | none => 0

/-- Reads slice j of the public key into the stream buffer (R233). -/
def Device.readSlice (d : Device) (slot : Nat) (t : Turn) (z : ZInstr) (j : Nat) : Device :=
  let (s, sz, last) := mceSlices z.set4
  let off := (j - 1) * sz
  let len := if j + 1 = s then last else sz
  let n := ceilDiv len 4096
  (List.range n).foldl (fun d i => d.readReq (d.leaf t.leaf).module (d.pasidOf t.leaf)
    ((t.hdr.dataBase + z.imm + off + 4096 * i) % 2 ^ 64) (min 4096 (len - 4096 * i)) (.slice slot (off + 4096 * i))) d

/-- The operation as its first stroke finds it: one that computes on shares splits its secrets (R205); one that reads a stream or writes its
state cell stroke by stroke has no outcome yet (R233, R240); the rest have theirs fixed (R131). -/
def Device.openOp (d : Device) (t : Turn) (o : Op) (unit : Option EngineId) : Op × Device :=
  let o1 : Op := { o with started := true, unit := if o.z.kind.frames = 0 then none else unit, left := o.per, total := o.per, pad := d.padFor t o.z, micro := entryState o.z }
  if o.z.shared then
    let (l, d1) := d.withMasks unit (t.splitSecrets o.z o.rnd)
    (o1.withSecrets l, d1)
  else match o.z.kind with
    | .mceKeygen | .mceDecaps =>
      let (r, d1) := d.withMasks unit (codeResult t o.z o.rnd)
      ({ o1 with result := r.1, left := r.2 * o.per, total := r.2 * o.per, rnd := [] }, d1)
    | .mceEncaps | .digestAbsorb | .digestStream | .xofSqueeze => (o1, d)
    | _ => ({ o1 with result := d.compute t o.z unit o.rnd, rnd := [] }, d)

/-- Counts a key-generation attempt of a tumbler (R238). -/
def Device.countAttempt (d : Device) (t : Turn) : Device :=
  match t.home with
  | some n => d.onTu n fun e => { e with kgAttempts := satAdd 32 e.kgAttempts 1 }
  | none => d

/-- Starts an operation at the edge of its first stroke (R125, R130, R131, R245): the checks hold again, a closed state restarts, and the
first slice is asked for (R233). A failed check, or a slot that cannot be read (R254), ends the turn uncharged. -/
def Device.startOp (d : Device) (slot : Nat) (t : Turn) (o : Op) (es : List EngineId) : Device :=
  match d.preCheck t o.z with
  | some s => d.endTurn slot s t.pc
  | none => match d.slotFault t o.z with
    | some d1 => d1.endTurn slot St.memoryFault t.pc
    | none =>
      let t1 := d.restartCell t o.z
      let (o1, d1) := d.openOp t1 o es.head?
      let stream := o.z.kind == .mceEncaps
      let d2 := d1.onTurn slot fun _ => { t1 with op := some o1, parts := if stream then [] else t1.parts }
      let d3 := if stream then d2.readSlice slot t o.z 1 else d2
      if o.z.kind == .mceKeygen then d3.countAttempt t else d3

/-! ### Strokes -/

/-- One edge's strokes of a started operation on `k` engines: a padding stroke after an attempt, else real strokes (R148, R189). -/
def Op.advance (o : Op) (k : Nat) : Op :=
  if o.padLeft ≠ 0 then { o with padLeft := o.padLeft - 1 }
  else
    let left := o.left - k
    { o with left := left, padLeft := if o.per ≠ 0 && left % o.per == 0 then o.pad else 0 }

/-- The lane mode of a stroke (R194, R219). -/
def laneMode (z : ZInstr) : Nat :=
  match z.kind with
  | .mlkemKeygen | .mlkemEncaps | .mlkemDecaps => 1
  | .mldsaKeygen | .mldsaSign | .mldsaVerify => 2
  | .hqcKeygen | .hqcEncaps | .hqcDecaps => 3
  | .mceKeygen | .mceEncaps | .mceDecaps => 4
  | _ => 0

/-- A stroke begins on a home engine: counted, its mode shown, and its lane or limb registers in use (R171, R193, R219, R270). A padding
stroke shows the mode of its operation (DESIGN CHOICE, log entry 87). -/
def Device.beginStroke (d : Device) (mode : Nat) (e : EngineId) : Device :=
  let f (x : Engine) : Engine := { x with strokes := wrapAdd 48 x.strokes 1, mode := mode, lanes := some d.fresh }
  match e with
  | .tumbler n => { d.onTu n f with fresh := d.fresh + 1 }
  | .bolt n => { d.onBo n f with fresh := d.fresh + 1 }
  | _ => d

/-- Every home engine's registers and barrel states are zero at the end of its stroke (R171). -/
def Device.endStrokes (d : Device) : Device :=
  let f (x : Engine) : Engine := { x with mode := 0, lanes := none }
  { d with tu := d.tu.map f, bo := d.bo.map f }

/-- Charges `n` engine-beats of class `c` to a turn, its leaf and the device (R80, R107, R180). -/
def Device.charge (d : Device) (slot : Nat) (t : Turn) (c n : Nat) : Device :=
  let d1 := d.onTurn slot fun t => { t with beats := t.beats + n, ran := true }
  let d2 := d1.onLeaf t.leaf fun x => { x with meters := modifyAt x.meters c fun m => wrapAdd 48 m n, lastDispatch := d.sc.beat }
  { d2 with sc := { d2.sc with busy := modifyAt d2.sc.busy c fun m => wrapAdd 48 m n } }

/-- The event of a sequencer fault in the block of its engine (R219, R270). -/
def Device.seqEvt (d : Device) (q : Nat) : Device :=
  if q < 32 then d.tuEvt q 0x10 else if q < 48 then d.boEvt (q - 32) 0x10 else d

/-- The sequencer of an operation runs a stroke; a fault of its own ends the turn at the next edge (R217, R268, R386, R387, R405). -/
def Device.seqOp (d : Device) (slot : Nat) (o : Op) (es : List EngineId) : Op × Device :=
  match o.seq es with
  | none => (o, d)
  | some q =>
    let (r, d1) := d.seqStroke q o.micro
    ({ o with micro := r.st }, match r.fault with
      | some f => ((d1.seqEvt q).raiseIn (seqSource q f) slot).endDue slot St.engineFault
      | none => d1)

/-- The shares in the frame of an operation are refreshed as its stroke starts, and the last real stroke of an attempt forms the attempt's
outcome (R171, R205, R206, R213). -/
def Device.shareStroke (d : Device) (t : Turn) (o : Op) (real : Bool) : Op × Device :=
  if !o.z.shared then (o, d)
  else
    let (m, d1) := d.withMasks o.unit (refreshAll o.frameData)
    let o1 := { o with frameData := m }
    if real && o1.left % max 1 o1.per == 0 then
      let (a, d2) := d1.withMasks o.unit (t.attempt o1)
      (o1.afterAttempt a, d2)
    else (o1, d1)

/-- Counts what a tumbler counts of a Classic McEliece stroke (R238): attempts after the first, and slices. -/
def Device.countCode (d : Device) (t : Turn) (o : Op) (pads : Bool) : Device :=
  if pads || o.left == o.total then d
  else match o.z.kind with
    | .mceKeygen => if o.left % o.per = 0 then d.countAttempt t else d
    | .mceEncaps => (match t.home with
      | some n => d.onTu n fun e => { e with slices := satAdd 32 e.slices 1 }
      | none => d)
    | _ => d

/-- The 128 bytes of the trap frame of an operation, in vault memory (R389). -/
def Device.frameOf (d : Device) (o : Op) : Option Bytes := o.frame.map fun p => d.vault.readN (vaultPiece p) 128

/-- A trap frame cannot be resumed where its sequencer or its section differs (R390). -/
def Device.frameBad (d : Device) (o : Op) (es : List EngineId) : Bool :=
  (d.frameOf o).any fun b => !frameOk b (frameSeq (o.seq es)) (d.versionOf (o.seq es))

/-- The operation as its frame restores it; the frame piece and the idle bank are free (R183, R389). -/
def Device.resumed (d : Device) (o : Op) : Op :=
  { (match d.frameOf o with
     | some b => o.restored b
     | none => o) with frame := none, bank := none }

/-- Dispatches the next strokes of a started operation on its engines (R108, R180): over the cap the turn is aborted with ABORT_CAP, and a
frame that does not fit raises source 1470 and ends the turn (R390). -/
def Device.dispatchOp (d : Device) (slot : Nat) (es : List EngineId) : Device :=
  match Map.get? d.turns slot with
  | none => d
  | some t =>
    match t.op with
    | none => d
    | some held =>
      if d.frameBad held es then ((d.raiseIn 1470 slot).endDue slot St.engineFault).onTurn slot fun t => { t with phase := .ready }
      else
        let o := d.resumed held
        let pads := o.padLeft ≠ 0
        let k := if pads then 1 else min es.length o.left
        if t.hdr.cap < t.beats + k then d.endTurn slot St.abortCap t.pc
        else
          let d1 := match held.bank with
            | some e => d.setIdle e {}
            | none => d
          let (o1, d2) := d1.seqOp slot o es
          let (o2, d3) := d2.shareStroke t ({ o1.advance k with engines := es, active := true }) (!pads)
          let d4 := (d3.onTurn slot fun t => { t with op := some o2, phase := .running, woken := false }).charge slot t o.cls k
          let d5 := (es.take k).foldl (fun d e => d.beginStroke (if o.cls = 1 then o.z.cls else laneMode o.z) e) d4
          let d6 := if pads then { d5 with sc := { d5.sc with pads := wrapAdd 48 d5.sc.pads 1 } } else d5
          d6.countCode t o pads

/-- The engines of a list that may still run strokes of the operation at the edge, as many as it may take (R178, R188, R252). -/
def Device.stillOk (d : Device) (o : Op) (es : List EngineId) : List EngineId :=
  let ok := es.filter fun e => d.usable e && d.maskOk o e
  match o.shape with
  | .elastic => o.take ok (max 1 o.limit)
  | _ => if ok.length = es.length then es else []

/-- Dispatches a turn on engines: a new operation starts, a key generation claims its spill units or waits for them (R235). -/
def Device.dispatchTurn (d : Device) (slot : Nat) (planned : List EngineId) : Device :=
  match Map.get? d.turns slot with
  | none => d
  | some t =>
    match t.op with
    | none => d
    | some o =>
      let es := d.stillOk o planned
      if !(t.phase == .ready || t.phase == .running) || d.keywayHeld t o then d
      else if es.isEmpty then (if t.phase == .running then d.trap slot .ready else d)
      else
        let capped := t.hdr.cap < t.beats + min es.length (max 1 (t.strokes o.z))
        if !o.started && capped then d.endTurn slot St.abortCap t.pc
        else
          let d1 := if o.started then d else d.startOp slot t o es
          match (Map.get? d1.turns slot).bind Turn.op with
          | none => d1
          | some o1 =>
            if o1.atAssembly && (d1.claimed slot).isEmpty then
              match d1.claimSpill slot o1 with
              | some d2 => d2.dispatchOp slot es
              | none => d1.trap slot .waitSpill
            else d1.dispatchOp slot es

/-- The remaining strokes of running operations are dispatched on the engines that they keep (R180); one whose engine has stopped, or every
one at stage 3, is trapped (R188, R209). -/
def Device.continueOps (d : Device) (planned : List Nat) : Device :=
  (d.turns.map Prod.fst).foldl (fun d slot => match Map.get? d.turns slot with
    | none => d
    | some t =>
      match t.op with
      | none => d
      | some o =>
        if t.phase ≠ .running || planned.contains slot || !o.goesOn then d
        else
          let es := (d.keeps t o).filter d.sc.kept.contains
          if 3 ≤ d.sc.stage || es.isEmpty then d.trap slot .ready else d.dispatchTurn slot es) d

/-! ### Hinge work (R65) -/

/-- The entry micro-state of a segment of hinge work: numbers above those of the opcodes (log entry 85). -/
def Seg.entry (g : Seg) : MicroState := { pc := Config.entryPc (256 + 16 * g.cls + g.mode) % 8192 }

/-- The work under way with `n` strokes left in its segment. -/
def Job.seg_ (x : Job) (n : Nat) : JobPhase :=
  match x.phase with
  | .working (g :: r) => .working ({ g with n := n } :: r)
  | p => p

/-- Padding strokes of a segment that starts on an engine (R189). -/
def Device.segPad (d : Device) (g : Seg) : EngineId → Nat
  | .tumbler n => if bitOf d.sc.blank (n / 8) then g.pad - g.n else 0
  | _ => 0

/-- Hinge work runs its next stroke on an engine, charged to no leaf; padding on a blank group counts in SC_PADS (R65, R189). A fault of the
sequencer loses the working state. -/
def Device.dispatchJob (d : Device) (j : JobId) (e : EngineId) : Device :=
  match d.job j with
  | none => d
  | some x =>
    match x.seg with
    | none => d
    | some g =>
      if g.n = 0 || x.failed || !d.jobEngine g e then d
      else
        let first := x.unit.isNone
        let pads := if first then d.segPad g e else x.pads
        let n := if first then g.n + pads else g.n
        let tumbler := match e with
          | .tumbler m => m
          | _ => x.tumbler
        let st := if first then g.entry else x.micro
        let (r, d1) := match seqOf e with
          | some q => let y := d.seqStroke q st; (some (q, y.1), y.2)
          | none => (none, d)
        let fault := r.bind fun y => y.2.fault.map (seqSource y.1)
        let d2 := d1.onJob j fun x =>
          { x with phase := x.seg_ (n - 1), inStroke := some e, unit := some e, pads := pads, tumbler := tumbler,
                   micro := (r.map fun y => y.2.st).getD st, failed := fault.isSome }
        let d3 := match fault with
          | some s => d2.raiseSrc s
          | none => d2
        let d4 := d3.beginStroke g.mode e
        if n ≤ pads then { d4 with sc := { d4.sc with pads := wrapAdd 48 d4.sc.pads 1 } } else d4

/-- Hinge work that keeps its engine runs on (R65, R180, R188). -/
def Device.continueJobs (d : Device) (planned : List JobId) : Device :=
  jobIds.foldl (fun d j =>
    if planned.contains j then d
    else match (d.job j).bind Job.unit with
      | some e => if d.sc.stage < 3 && d.sc.kept.contains e then d.dispatchJob j e else d
      | none => d) d

/-! ### Blank strokes (R189) -/

/-- Engines that have a stroke in this beat. -/
def Device.strokeEngines (d : Device) : List EngineId :=
  d.turns.foldl (fun l e => match e.2.op with
    | some o => if o.active then l ++ o.engines else l
    | none => l) [] ++ d.jobs.filterMap Job.inStroke

/-- The tumblers of enabled groups that have no stroke and take one. -/
def Device.blankTumblers (d : Device) : List Nat :=
  let busy := d.strokeEngines
  if 3 ≤ d.sc.stage then []
  else (List.range 32).filter fun n => bitOf d.sc.blank (n / 8) && d.usable (.tumbler n) && !busy.contains (.tumbler n)

/-- Tumblers of enabled groups that have no stroke run a blank stroke on the random data of their blank area (R189, R196). -/
def Device.blankStrokes (d : Device) : Device :=
  let idle := d.blankTumblers
  let d1 := idle.foldl (fun d n =>
    (d.onTu n fun x => { x with blankData := some (x.blankData.getD d.fresh) }).beginStroke 0 (.tumbler n)) d
  { d1 with sc := { d1.sc with blanks := wrapAdd 48 d1.sc.blanks idle.length } }

/-! ### The hot table (R78) -/

/-- A leaf has a stroke running. -/
def Device.strokeRuns (d : Device) (l : Nat) : Bool :=
  d.turns.any fun e => e.2.leaf == l && (match e.2.op with
    | some o => o.active
    | none => false)

/-- The hot leaf to evict: the oldest last dispatch among those with no stroke running, then the lowest number; none that makes room for
another leaf already (R78). -/
def Device.evictee (d : Device) (chosen : List Nat) : Option Nat :=
  let hot := d.leaves.filter fun e => e.2.hot && !d.strokeRuns e.1 && !chosen.contains e.1
  (leastBy (fun e : Nat × Leaf => [e.2.lastDispatch, e.1]) hot).map Prod.fst

/-- The victims of the leaves that enter. -/
def Sched.victims (c : Sched) : List Nat := c.entering.filterMap fun e => e.2.2

/-- A leaf becomes hot, and its queues join the fetch list (R78, R172). -/
def Device.makeHot (d : Device) (l : Nat) : Device :=
  let d1 := d.onLeaf l fun y => { y with hot := true }
  ((d1.leaf l).queues.map Prod.fst).foldl (fun d q => d.joinFetch l q) d1

/-- The second edge of an entering leaf: its victim leaves the table. A victim that has a stroke running by then is replaced by another
(DEDUCED from R78, log entry 88). -/
def Device.enterNow (d : Device) (l : Nat) (v : Option Nat) : Device :=
  match v with
  | none => d.makeHot l
  | some x =>
    match (if d.strokeRuns x then d.evictee d.sc.victims else some x) with
    | some y => (d.onLeaf y fun k => { k with hot := false }).makeHot l
    | none => { d with sc := { d.sc with entering := d.sc.entering ++ [(l, 1, some x)] } }

/-- The first edge of an entering leaf: a victim is chosen if the table is full (R78). -/
def Device.enterSoon (d : Device) (l : Nat) : Device :=
  let full := 1024 ≤ (d.leaves.filter fun e => e.2.hot).length + (d.sc.entering.filter fun e => 0 < e.2.1 && e.2.2.isNone).length
  let put (n : Nat) (v : Option Nat) : Device := { d with sc := { d.sc with entering := d.sc.entering ++ [(l, n, v)] } }
  if !full then put 1 none
  else match d.evictee d.sc.victims with
    | some v => put 1 (some v)
    | none => put 0 none

/-- One edge of the leaves that enter the hot table (R78, R172). -/
def Device.enterHot (d : Device) : Device :=
  let todo := d.sc.entering
  let old := todo.filter fun e => 0 < e.2.1
  let d1 := old.foldl (fun d e => d.enterNow e.1 e.2.2) { d with sc := { d.sc with entering := [] } }
  (todo.filter fun e => e.2.1 = 0).foldl (fun d e => d.enterSoon e.1) d1

/-! ### BEAT_EDGE -/

/-- A turn that R118 exempts from aborts: its last stroke ended in the beat before the edge and none is ahead. -/
def Turn.exempt (t : Turn) (beatBefore : Nat) : Bool := t.strokeBeat == some beatBefore && t.op.isNone && !t.strokesAhead

/-- The writes of a turn that still wait in the DMA queues are cancelled (R73): its streamed output and its record. -/
def Device.cancelWrites (d : Device) (slot : Nat) : Device :=
  let mine (w : DmaWrite) : Bool := w.why == .result slot || w.why == .record slot
  let n := ((d.dma0.writes ++ d.dma1.writes).filter fun w => w.why == .result slot).length
  let f (k : Dma) : Dma := { k with writes := k.writes.filter fun w => !mine w }
  ((d.onDma 0 f).onDma 1 f).onTurn slot fun t => { t with pendingW := t.pendingW - n, recordQueued := false, record := none }

/-- A RESET of its leaf reaches a turn at the edge (R73, R74): one that completes stands, with the end of its own that may be due; any other
ends without a record. -/
def Device.resetTurn (d : Device) (slot : Nat) (t : Turn) (beatBefore : Nat) : Device :=
  if t.reachedEnd || (t.ending.isNone && t.exempt beatBefore) then d.onTurn slot fun t => { t with resetDue := false }
  else
    let d1 := (d.cancelWrites slot).onTurn slot fun t => { t with resetDue := false, wantsRecord := false }
    if t.ending.isSome then d1.recordStep slot else d1.endTurn slot St.leafQuiesce t.endPc

/-- The entry of a turn is on its way: its read stands on the link (R91). -/
def Device.entryComes (d : Device) (slot : Nat) : Bool :=
  (d.dma0.reads ++ d.dma1.reads).any fun r => r.issued && (match r.why with
    | .entries l => l.contains slot
    | _ => false)

/-- An end due at the edge reaches a turn (R49, R117, R118, R180). A quiesce waits for an entry whose data are on their way (R91). -/
def Device.endTurnDue (d : Device) (slot : Nat) (t : Turn) (s : Status) (beatBefore : Nat) : Device :=
  if t.ending.isSome || (statusClass s = 4 && t.exempt beatBefore) then d.onTurn slot fun t => { t with due := none }
  else if t.phase == .fetching && s = St.leafQuiesce && d.entryComes slot then d
  else d.endTurn slot s t.endPc

/-- Applies the ends due at the edge (R49, R73, R117, R118, R180). -/
def Device.applyDue (d : Device) (beatBefore : Nat) : Device :=
  (d.turns.map Prod.fst).foldl (fun d slot =>
    let d1 := match Map.get? d.turns slot with
      | some t => if t.resetDue then d.resetTurn slot t beatBefore else d
      | none => d
    match Map.get? d1.turns slot with
    | some t => (match t.due with
      | some s => d1.endTurnDue slot t s beatBefore
      | none => d1)
    | none => d1) d

/-- Deadlines of drains (R91) that fall at this edge abort the leaf's turns; the row QUIESCE_DEADLINE says the same for one leaf. -/
def Device.abortLeaf (d : Device) (l : Nat) (s : Status) : Device :=
  { d with turns := Map.mapVals d.turns fun _ t => if t.leaf = l ∧ t.ending.isNone then t.setDue s else t }

/-- The stage of the last freeze point counts from the edge on: stage 2 parks the odd tumblers (R414). -/
def Device.takeEdgeStage (d : Device) : Device :=
  let park := decide (2 ≤ d.sc.stage)
  { d with sc := { d.sc with stageNow := d.sc.stage },
           tu := d.tu.mapIdx fun n e => if n % 2 = 1 && !e.retired then { e with parked := park } else e }

/-- BEAT advances (R167, R169): with the second counter at another value the source is raised and the higher value kept. -/
def Device.tickBeat (d : Device) (beatB : Option (BitVec 48)) : Device :=
  let a := (d.sc.beat + 1) % 2 ^ 48
  let b := match beatB with
    | some x => x.toNat
    | none => (d.sc.beatB + 1) % 2 ^ 48
  let d1 : Device := { d with sc := { d.sc with beat := max a b, beatB := max a b, tick := .begun } }
  d1.when (a != b) fun d => ({ d with sc := { d.sc with evt := d.sc.evt ||| 4 } } : Device).raiseSrc 1252

/-- What was released in the beat before is zeroised (R106, R235). -/
def Device.zeroised (d : Device) : Device :=
  let f (e : Engine) : Engine := { e with dirtyBytes := 0 }
  let clean := (d.slots.zeroising.filter fun e => met d.sc.beat e.2).map Prod.fst
  { d with tu := d.tu.map f, bo := d.bo.map f, vault := clean.foldl (fun m u => m.clear (vaultPiece (2048 * u)) 262144) d.vault,
           slots := { d.slots with zeroising := d.slots.zeroising.filter fun e => !clean.contains e.1 },
           turns := Map.mapVals d.turns fun _ t => { t with vaultRead := none } }

/-- Instructions without strokes whose random bytes have come run at the first edge whose freeze point follows (R186, R296). -/
def Device.runServed (d : Device) : Device :=
  (d.turns.map Prod.fst).foldl (fun d slot => match Map.get? d.turns slot with
    | none => d
    | some t =>
      match t.op with
      | some o => if t.phase == .waitEntropy && t.woken then (d.onTurn slot fun t => { t with op := none }).runNow slot t o.z o.rnd else d
      | none => d) d

/-- The homes of the turns that wait for store, in the order of the ready lists (R105, R176). -/
def Device.assignHomes (d : Device) : Device :=
  ((sortBy (fun e : Nat × Turn => e.2.rank) (d.turns.filter fun e => e.2.phase == .needHome)).map Prod.fst).foldl Device.assignHome d

/-- The turns of a plan. -/
def planTurnsOf (plan : List Plan) : List Nat := plan.filterMap fun p => match p.who with
  | .turn s => some s
  | .job _ => none

/-- The jobs of a plan. -/
def planJobsOf (plan : List Plan) : List JobId := plan.filterMap fun p => match p.who with
  | .turn _ => none
  | .job j => some j

/-- Dispatch by the plan of the freeze point (R180 to R183). The victims of a turn that ends at this same edge are trapped and counted all the
same (DESIGN CHOICE, log entry 89). -/
def Device.dispatch (d : Device) : Device :=
  let plan := if 3 ≤ d.sc.stage then [] else d.sc.plan
  let turns := planTurnsOf plan
  let d1 := plan.foldl (fun d p => p.victims.foldl (fun d v => d.preempt turns v) d) d
  let d2 := (d1.continueOps turns).continueJobs (planJobsOf plan)
  plan.foldl (fun d p => match p.who, p.engines with
    | .turn s, es => d.dispatchTurn s es
    | .job j, e :: _ => d.dispatchJob j e
    | .job _, [] => d) d2

/-- BEAT_EDGE (R180): BEAT, aborts, keyway changes, homes, then dispatch. -/
def Device.beatEdge (d : Device) (beatB : Option (BitVec 48)) : Device :=
  let d1 := (d.tickBeat beatB).takeEdgeStage.zeroised.applyDue d.sc.beat
  let d2 := (d1.leaves.map Prod.fst).foldl (fun d l => d.applyKeyway l) d1
  let d3 := d2.runServed.assignHomes.dispatch.blankStrokes.enterHot
  { d3 with sc := { d3.sc with plan := [], kept := [] }, turns := Map.mapVals d3.turns fun _ t => { t with woken := false } }

end Sys2Proof.Machine
end

