-- ==== Sys2Proof/Machine/Stroke.lean ====
section
/-! DEFINITION. The end of strokes: what the checks of the beat found (R171, R198, R201, R217, R254, R266, R268, R276, R279), injected errors
(R219, R255, R270, R280), and the outcome of an operation whose last stroke ends (R109, R171, R206, R233, R240, R244). -/

namespace Sys2Proof.Machine

/-! ### What the checks found -/

/-- The turn that holds a stroke on an engine. -/
def Device.striker (d : Device) (e : EngineId) : Option Nat :=
  (d.turns.find? fun x => match x.2.op with
    | some o => o.active && o.engines.contains e
    | none => false).map Prod.fst

/-- An error of an engine in a stroke (R217, R254, R268, R279): the turn that holds the stroke ends with ENGINE_FAULT at the next edge, or the
hinge work loses its working state (R65). -/
def Device.strokeEnds (d : Device) (e : EngineId) : Device :=
  match d.striker e with
  | some slot => d.endDue slot St.engineFault
  | none => d.failStrokes (· == e)

/-- An error of an engine in a stroke: the source of its datapath is raised and its event bit set (R217, R254, R268, R279). -/
def Device.engineError (d : Device) (e : EngineId) : Device :=
  let d1 := match e with
    | .tumbler n => (d.raiseSrc (24 * n + 7)).tuEvt n 0x10
    | .bolt n => (d.raiseSrc (768 + 12 * n + 3)).boEvt n 0x10
    | .plainBarrel n => { d.raiseSrc (960 + n / 8) with bb := { d.bb with evt := d.bb.evt ||| 1 } }
    | .maskedBarrel n => { d.raiseSrc (984 + n / 4) with bb := { d.bb with evt := d.bb.evt ||| 2 } }
    | .sha256 n => { d.raiseSrc (1088 + n / 4) with dg := { d.dg with evt := d.dg.evt ||| 2 } }
    | .sha512 n => { d.raiseSrc (1096 + n / 4) with dg := { d.dg with evt := d.dg.evt ||| 2 } }
    | .aes n => { d.raiseSrc (1024 + n / 4) with bk := { d.bk with evt := d.bk.evt ||| 1 } }
    | .mult n => { d.raiseSrc (1040 + n) with bk := { d.bk with evt := d.bk.evt ||| 2 } }
  d1.strokeEnds e

/-- The word that the turn's operation runs. -/
def Turn.opWord (t : Turn) : Option ZInstr := t.op.map Op.z

/-- The bolt that runs an operation. -/
def Op.bolt (o : Op) : Nat := boltOf o.engines.head?

/-- An invariant has failed for the operation of a turn (R266): checked at the end of an operation that has one and was not refused. -/
def Op.invariantFails (o : Op) : Op :=
  if o.z.kind.guarded && statusClass o.result.status ≠ 1 then { o with result := boltInvariant o.bolt } else o

/-- A key-state slot that a turn reads in its stroke is uncorrectable (R254): that of MAC.FINAL, or of a MAC state that goes on. The slot is emptied
and the turn ends with MEMORY_FAULT. -/
def Device.keySlotRotten (d : Device) (slot : Nat) : Device :=
  match Map.get? d.turns slot with
  | none => d
  | some t =>
    match t.opWord with
    | none => d
    | some z =>
      if z.kind = .macFinal then (d.keySlotUe (t.hstate z.a).slot).endDue slot St.memoryFault
      else if (z.kind = .digestAbsorb || z.kind = .digestStream) && (t.hstate z.dst).mac then
        (d.keySlotUe (t.hstate z.dst).slot).endDue slot St.memoryFault
      else d

/-- The vault context slot that a turn restored in this beat is uncorrectable (R276): it is emptied and the turn ends with MEMORY_FAULT. -/
def Device.contextRotten (d : Device) (slot : Nat) : Device :=
  match Map.get? d.turns slot with
  | none => d
  | some t => (match t.vaultRead with
    | some s => (d.contextUe t.leaf s).endDue slot St.memoryFault
    | none => d)

/-- A slot that a turn read in this beat is uncorrectable (R254, R276). -/
def Device.slotRotten (d : Device) (slot : Nat) : Device :=
  if ((Map.get? d.turns slot).bind Turn.vaultRead).isSome then d.contextRotten slot else d.keySlotRotten slot

/-- What the checks of the beat found (R171, R198, R201, R217, R254, R266, R276). -/
def Device.strokeError (d : Device) : StrokeError → Device
  | .engine e => d.engineError e
  | .storeUe e spot => d.storeUe e spot
  | .storeCe e outer => d.storeCe e outer
  | .invariant slot => d.onTurn slot fun t => { t with op := t.op.map Op.invariantFails }
  | .slotUe slot => d.slotRotten slot

/-- A repeated refresh word (source 1000) ends the turn on the masked barrel (R254, R255). -/
def Device.refreshError (d : Device) (e : EngineId) : Device :=
  ({ d.raiseSrc 1000 with bb := { d.bb with evt := d.bb.evt ||| 2 } } : Device).strokeEnds e

/-! ### Injected errors (R219, R255, R270, R280) -/

/-- The store that a stroke on a home engine writes: cells of its turn, the frame of hinge work, or the blank area. -/
def Device.writtenBy (d : Device) (e : EngineId) : StoreSpot :=
  match d.striker e with
  | some slot => .cells [slot]
  | none => if d.jobs.any fun x => x.inStroke == some e then .frame none else .blank

/-- A fault is injected into the bolt's stroke (R266, R267, R270): it shows when the operation ends. -/
def Device.hitBolt (d : Device) (n : Nat) : Device :=
  match d.striker (.bolt n) with
  | some slot => d.onTurn slot fun t => { t with op := t.op.map fun o => { o with hit := some (o.left == 0) } }
  | none => d.failStrokes (· == .bolt n)

/-- A stroke on a home engine meets the error armed there: a store error, a datapath error, or a fault in its result (R219, R270). -/
def Device.injectHome (d : Device) (e : EngineId) : Device :=
  match e with
  | .tumbler n =>
    if (d.tumbler n).armed = some 3 then (d.onTu n fun x => { x with armed := none }).engineError e else d.injectStore e (d.writtenBy e)
  | .bolt n =>
    (match (d.bolt n).armed with
    | some 2 => (d.onBo n fun x => { x with armed := none }).engineError e
    | some 3 => (d.onBo n fun x => { x with armed := none }).hitBolt n
    | _ => d.injectStore e (d.writtenBy e))
  | _ => d

/-- The first engine of a list that an armed kind of a shared array concerns. -/
def pickArmed (ran : List EngineId) (armed : Option Nat) (f : Nat → EngineId → Bool) : Option EngineId :=
  armed.bind fun k => ran.find? (f k)

/-- The errors armed in the shared arrays meet the first stroke of their kind (R255, R280). -/
def Device.injectArrays (d : Device) (ran : List EngineId) : Device :=
  let bank := pickArmed ran d.bb.armed fun k e => match k, e with
    | 0, .plainBarrel _ | 1, .maskedBarrel _ | 2, .maskedBarrel _ => true
    | _, _ => false
  let digest := pickArmed ran d.dg.armed fun k e => match k, e with
    | 0, .sha256 _ | 1, .sha512 _ => true
    | _, _ => false
  let block := pickArmed ran d.bk.armed fun k e => match k, e with
    | 0, .aes _ | 1, .mult _ => true
    | _, _ => false
  let final := if d.dg.armed = some 2 then
      (d.turns.find? fun x => match x.2.op with
        | some o => o.active && o.z.kind == .macFinal
        | none => false).map Prod.fst
    else none
  let refresh := d.bb.armed = some 2
  let d1 := match bank with
    | some e => let c : Device := { d with bb := { d.bb with armed := none } }; if refresh then c.refreshError e else c.engineError e
    | none => d
  let d2 := match digest with
    | some e => ({ d1 with dg := { d1.dg with armed := none } } : Device).engineError e
    | none => d1
  let d3 := match block with
    | some e => ({ d2 with bk := { d2.bk with armed := none } } : Device).engineError e
    | none => d2
  match final with
  | some slot => d3.keySlotRotten slot
  | none => d3

/-- The armed errors meet the strokes of the beat, blank strokes included. -/
def Device.injected (d : Device) (ran : List EngineId) : Device := (ran.foldl Device.injectHome d).injectArrays ran

/-! ### Outcomes -/

/-- The operation has ended: its frames and its node buffer are released (R197, R251). -/
def Device.opOver (d : Device) (slot : Nat) (o : Op) : Device := (d.releaseFrames o).onTurn slot fun t => { t with op := none }

/-- The outcome of an operation whose last stroke has ended: what the write path forms of its shares (R206), what MCE.ENCAPS makes of its
slices (R232), or what was fixed at its start; a fault injected into it shows (R266, R267, R270). -/
def Device.outcome (d : Device) (t : Turn) (o : Op) : Result × Device :=
  let (r, d1) := if o.z.kind == .mceEncaps then (let x := d.withMasks o.unit (codeResult t o.z o.rnd); (x.1.1, x.2)) else (o.written, d)
  match o.hit with
  | some last => d1.corrupt o.bolt o.z last r
  | none => (r, d1)

/-- An MCE.ENCAPS stroke has ended (R233): the next slice is read, and without the one that its next stroke needs the operation is trapped and
waits. -/
def Device.afterSlice (d : Device) (slot : Nat) (t : Turn) (o : Op) : Device :=
  let j := o.total - o.left
  let (s, _, _) := mceSlices o.z.set4
  let d1 := if 2 ≤ j && j + 1 ≤ s then d.readSlice slot t o.z j else d
  if t.dataReady o then d1 else d1.trap slot .waitSlice

/-- What follows a stroke of a turn's operation (R171, R186, R233, R240, R244): a hashing stroke writes its state cell back; after the last
stroke the outcome is released. A fault of the stroke releases nothing (R217). -/
def Device.afterStroke (d : Device) (slot : Nat) : Device :=
  match Map.get? d.turns slot with
  | none => d
  | some t =>
    match t.op with
    | none => d
    | some o =>
      if !o.active || t.ending.isSome then d
      else
        let o := { o with active := false }
        let d0 := d.onTurn slot fun t => { t with strokeBeat := some d.sc.beat, op := some o }
        if t.due.any fun s => statusClass s ≠ 4 then d0
        else
          let t1 := t.hashStroke o (o.total - o.left)
          let d1 := d0.onTurn slot fun x => { x with cells := t1.cells }
          if !o.goesOn then
            let (r, d2) := d1.outcome t1 o
            ((d2.countWork t o).opOver slot o).release slot r
          else if o.z.kind == .mceEncaps then d1.afterSlice slot t o
          else if o.z.kind == .digestStream && !t.dataReady o then
            d1.onTurn slot fun t => { t with phase := .waitDma, op := some { o with engines := [] } }
          else d1

/-- The turns whose strokes end in this beat, in age-stamp order (R248, R276). -/
def Device.strokers (d : Device) : List Nat :=
  (sortBy (fun e : Nat × Turn => [e.2.stamp.getD (2 ^ 64)]) (d.turns.filter fun e => match e.2.op with
    | some o => o.active
    | none => false)).map Prod.fst

/-- The tumblers that run a blank stroke in the beat. -/
def Device.blankRan (d : Device) : List EngineId :=
  let busy := d.strokeEngines
  ((List.range 32).map EngineId.tumbler).filter fun e => match e with
    | .tumbler n => (d.tumbler n).lanes.isSome && !busy.contains e
    | _ => false

/-- STROKE_END for the turns (R171): what the checks found, then the outcome of each operation. -/
def Device.strokeEnd (d : Device) (errs : List StrokeError) : Device :=
  let ran := d.strokeEngines
  let d1 := (errs.foldl Device.strokeError d).injected (ran ++ d.blankRan)
  let d2 : Device := { d1 with sc := { d1.sc with tick := .ended, held := ran } }
  (d2.strokers.foldl Device.afterStroke d2).endStrokes

end Sys2Proof.Machine
end

