-- ==== Sys2Proof/Machine/Hinge.lean ====
section
/-! DEFINITION. The hinge: host access to BAR0 at all (R40, R44, R360), the jobs of the command blocks (R61, R65), and the leaf
commands with their checks in the order of R62 (R58 to R91, R303). -/

namespace Sys2Proof.Machine

/-! ### Host access -/

/-- The shackle state (R359, R360). -/
def Device.shackled (d : Device) : Bool := d.fc.shackled

/-- The device is Scrapped (R317, R321). -/
def Device.scrapped (d : Device) : Bool := d.hasp == 8

/-- Module m serves accesses (R40, R43, R44, R321, R360): its link is up, boot firmware has finished or the device is shackled, and a Scrapped
device has no module 1. -/
def Device.serves (d : Device) (m : Nat) : Bool :=
  (d.link m).state == .active && (d.power.boot == 4 || d.shackled) && !(d.scrapped && m == 1)

/-- An access on module m that is not served: it stalls while the module retrains (R28, R43), and its sender gives it again once the link is
up (log entry 91); else nothing serves it. -/
def Device.unserved (d : Device) (m : Nat) : Device := d.emit (if (d.link m).state = .retrain then .stalled else .notServed)

/-- A host write to BAR0 that starts something: not served before boot has finished or without its link, dropped in the shackle state
(R360), while the boot ROM serves (R393), and in a Scrapped device outside the blocks that it serves (R321). -/
def Device.hostDoIn (d : Device) (always : Bool) (f : Device → Device) : Device :=
  if !d.serves 0 then d.unserved 0 else if d.shackled || d.mc.romOnly || (d.scrapped && !always) then d else f d

/-- A host write to a block that a Scrapped device does not serve. -/
def Device.hostDo (d : Device) (f : Device → Device) : Device := d.hostDoIn false f

/-- A host write to a block that BLOCK reset may hold (R27): it is then dropped. -/
def Device.hostDoAt (d : Device) (b : BlockId) (f : Device → Device) : Device :=
  d.hostDo fun d => if d.fc.resets.contains b then d else f d

/-! ### Jobs (R61, R65) -/

/-- The command registers of a block. -/
def Device.unit (d : Device) : JobId → CmdUnit
  | .hinge => d.hg.cmd
  | .keyway => d.kw.cmd
  | .hasp => d.hs.cmd
  | .interlock => d.mi.cmd

/-- The device with the command registers of a block changed. -/
def Device.onUnit (d : Device) (j : JobId) (f : CmdUnit → CmdUnit) : Device :=
  match j with
  | .hinge => { d with hg := { d.hg with cmd := f d.hg.cmd } }
  | .keyway => { d with kw := { d.kw with cmd := f d.kw.cmd } }
  | .hasp => { d with hs := { d.hs with cmd := f d.hs.cmd } }
  | .interlock => { d with mi := { d.mi with cmd := f d.mi.cmd } }

/-- A command ends: BUSY falls and STATUS holds its status word (R61). -/
def Device.finish (d : Device) (j : JobId) (s : Status) : Device := d.onUnit j fun u => { u with job := none, status := s.toNat }

/-- A command reaches its block (R61): dropped with OVERRUN while BUSY is 1. -/
def Device.issueCmd (d : Device) (j : JobId) (f : Device → Device) : Device :=
  match (d.unit j).job with
  | some _ => d.onUnit j fun u => { u with overrun := true }
  | none => f d

/-- A host write of a command register (R61). -/
def Device.command (d : Device) (j : JobId) (f : Device → Device) : Device := d.hostDoIn (j == .hasp) fun d => d.issueCmd j f

/-- An argument register. -/
def Device.arg (d : Device) (j : JobId) (i : Nat) : Nat := nth (d.unit j).args i 0

/-- A 64-bit argument pair, low half first (R62). -/
def Device.arg64 (d : Device) (j : JobId) (i : Nat) : Nat := d.arg j i + 2 ^ 32 * d.arg j (i + 1)

/-- A command is running with this job. -/
def Device.begin_ (d : Device) (j : JobId) (x : Job) : Device := d.onUnit j fun u => { u with job := some x }

/-- A hinge transfer from the host: reads on module 0 without a PASID (R47). -/
def Device.jobRead (d : Device) (j : JobId) (addr len : Nat) : Device :=
  let (d1, n) := d.readParts 0 none (addr % 2 ^ 64) len (.job j)
  d1.onJob j fun x => { x with phase := .reading, awaiting := n, parts := [] }

/-- A hinge transfer to the host: writes on module 0 without a PASID (R47). -/
def Device.jobWrite (d : Device) (j : JobId) (addr : Nat) (data : Bytes) : Device :=
  let ps := payloads (d.payload 0) data
  let d1 := ps.foldl (fun d p => d.writeReq 0 { pasid := none, addr := (addr + p.1) % 2 ^ 64, data := p.2, why := .job j }) d
  d1.onJob j fun x => { x with phase := .writing, awaiting := ps.length, failed := false }

/-- An engine of a home class that still counts for hinge work (R65): in service, parked, or out for a patch. -/
def Engine.counts (e : Engine) : Bool := (e.inService || e.parked || e.stopped) && !e.retired && !e.failed

/-- Every engine class of a plan of hinge work has an engine in service, parked or draining (R65). -/
def Device.workPossible (d : Device) (plan : List Seg) : Bool :=
  plan.all fun g => if g.cls = 0 then d.tu.any Engine.counts else if g.cls = 1 then d.bo.any Engine.counts else true

/-- The frame that hinge work holds is released (R197). -/
def Device.dropUnit (d : Device) (j : JobId) : Device :=
  match (d.job j).bind Job.unit with
  | some e =>
    let f (x : Engine) : Engine := { x with dirtyFrames := x.dirtyFrames + 1 }
    let d1 := match e with
      | .tumbler n => d.onTu n f
      | .bolt n => d.onBo n f
      | _ => d
    d1.onJob j fun x => { x with unit := none, inStroke := none, pads := 0, micro := {} }
  | none => d

/-- Starts hinge work, or ends the command with ENGINE_RESET (R65). -/
def Device.jobWork (d : Device) (j : JobId) (plan : List Seg) : Device :=
  if !d.workPossible plan then (d.dropUnit j).finish j St.engineReset
  else (d.dropUnit j).onJob j fun x => { x with phase := .working plan, plan := plan, failed := false }

/-- The hinge work that remains. -/
def Job.rest (x : Job) : List Seg :=
  match x.phase with
  | .working l => l
  | _ => []

/-- Hinge work whose class has lost its last engine ends its command with ENGINE_RESET (R65). -/
def Device.workPoll (d : Device) : Device :=
  jobIds.foldl (fun d j => match d.job j with
    | some x => if d.workPossible x.rest then d else (d.dropUnit j).finish j St.engineReset
    | none => d) d

/-! The work of ML-KEM, of an ML-DSA signature and of X448 or P-384, in strokes of the instructions that do the same (DESIGN CHOICE, log entry
30). -/

/-- ML-KEM-1024 decapsulation or encapsulation, or key generation: Q mode (R194). -/
def kemWork (n : Nat) : Seg := { cls := 0, n := n, pad := 6, mode := 1 }

/-- ML-DSA-87: Gang mode (R194); a check of a public signature needs no masks. -/
def dsaWork (n : Nat) (masked : Bool) : Seg := { cls := 0, n := n, pad := 9, masked := masked, mode := 2 }

/-- Work on a bolt in a length class: 3 for X448, 2 for P-384 (R161). -/
def boltWork (n mode : Nat) (masked : Bool) : Seg := { cls := 1, n := n, masked := masked, mode := mode }

/-- The check of a certificate's two signatures. -/
def certWork : List Seg := [dsaWork 6 false, boltWork 64 2 false]

/-- The bytes that a job has read. -/
def Job.data (x : Job) : Bytes := x.parts.foldr (fun e r => e.2 ++ r) []

/-- The internal region serves a hinge command now: before turns, after the reseeds that are due (R289, R298). -/
def Device.hingeCanDraw (d : Device) (n : Nat) : Bool := d.canDraw n && drawLines n + d.reseedsDue ≤ d.ns.internal.length

/-! ### Leaves -/

/-- LIFE_BUSY (R64): the hasp holds an odd value or a LIFE activity runs. -/
def Device.lifeBusy (d : Device) : Bool := d.hasp % 2 == 1 || d.mi.running.any fun r => r.cls == .life

/-- The selected leaf number (R93). -/
def Device.selLeaf (d : Device) : Nat := d.hg.sel

/-- A binding word (R62): the reserved bits are 0 and module 1, if named, is enabled (R54). -/
def Device.bindingOk (d : Device) (w : Nat) : Bool :=
  field w 20 4 == 0 && field w 25 3 == 0 && field w 30 2 == 0 && (!bitOf w 24 || d.link1.enable)

/-- The leaf with the binding of a binding word. -/
def Leaf.bind (x : Leaf) (w : Nat) : Leaf := { x with pasid := field w 0 20, module := field w 24 1, statusVec := field w 28 2 }

/-- Masks the four vectors of a leaf and clears their pending bits (R53, R66, R76). -/
def Device.maskVectors (d : Device) (l : Nat) : Device :=
  [0, 1, 2, 3].foldl (fun d v =>
    let i := l * 4 + v
    let e : Vec := Map.getD d.ul.lvt i {}
    { d with ul := { d.ul with lvt := Map.set d.ul.lvt i { e with mask := true, pend := false, wait := false } } }) d

/-- The leaf that CREATE and IMPORT_OPEN act on, or the status that refuses (R60, R63). -/
def Device.pickFree (d : Device) : Except Status Nat :=
  let retired (l : Nat) : Bool := d.gen l == 2 ^ 32 - 1
  let free (l : Nat) : Bool := (d.leaf l).state == .free
  if d.hg.selAny then
    match (List.range 4096).find? fun l => free l && !retired l with
    | some l => .ok l
    | none => .error St.noLeaf
  else if !free d.selLeaf then .error St.leafState
  else if retired d.selLeaf then .error St.noLeaf
  else .ok d.selLeaf

/-- A turn that a drain aborts at once, since it has dispatched no stroke (R91): not one that ends by a status of its own (R118), nor one whose
entry is still on its way. -/
def Device.unstarted (d : Device) (slot : Nat) (t : Turn) : Bool :=
  !t.ran && t.ending.isNone && !(t.due.any fun s => statusClass s ≠ 4) && !(t.phase == .fetching && d.entryComes slot)

/-- The turns of a leaf that a drain aborts at once (R91). -/
def Device.endUnstarted (d : Device) (l : Nat) : Device :=
  (d.turnsOf l).foldl (fun d slot => match Map.get? d.turns slot with
    | some t => if d.unstarted slot t then d.endTurn slot St.leafQuiesce t.endPc else d
    | none => d) d

/-- Aborts every turn of the leaf at the next edge, but those that R74 completes, and writes no record for it (R73). -/
def Device.resetTurns (d : Device) (l : Nat) : Device :=
  { d with turns := Map.mapVals d.turns fun _ t => if t.leaf = l then { t with resetDue := true } else t }

/-- The queues of a leaf with their pointers and errors at zero (R73). -/
def Leaf.resetQueues (x : Leaf) : Leaf :=
  { x with queues := x.queues.map fun e => (e.1, { e.2 with sqHead := 0, sqTail := 0, cqHead := 0, cqTail := 0, phase := true, stopped := false }),
           latched := [], ctx := [] }

/-- The leaf set to the values of CREATE (R66, R92, R303, R309); its causes clear only through HG_LEAF_CAUSE (R93). -/
def Device.createLeaf (d : Device) (l : Nat) (binding : Nat) (ltk : Bytes) : Device :=
  let x : Leaf := ({ state := .active, causes := (d.leaf l).causes, ltk := ltk, handle := (hash 5 (leBytes 0x484C 2 ++ ltk)).take 16 } : Leaf).bind binding
  (d.setLeaf l x).maskVectors l

/-- Clears the slot range of a leaf and zeroises its slots (R246). -/
def Device.clearRange (d : Device) (l : Nat) : Device :=
  let x := d.leaf l
  let hit := (d.slots.slots.map Prod.fst).filter fun s => x.slotBase ≤ s && s < x.slotBase + x.slotCount
  let d1 := hit.foldl (fun d s => d.emptySlot s) d
  d1.onLeaf l fun x => { x with slotBase := 0, slotCount := 0 }

/-- DESTROY's clean-up (R76): the leaf is FREE and keeps its meters; its buffer, range, vectors and fetches are gone. -/
def Device.freeLeaf (d : Device) (l : Nat) : Device :=
  let x := d.leaf l
  let d1 := (d.clearRange l).setLeaf l { meters := x.meters, causes := x.causes }
  let d2 := d1.maskVectors l
  { d2 with vault := d2.vault.clear (0x1800 * l) 0x1800, hg := { d2.hg with blobs := Map.erase d2.hg.blobs l },
            sc := { d2.sc with fetchList := d2.sc.fetchList.filter fun e => e.1 ≠ l, entering := d2.sc.entering.filter fun e => e.1 ≠ l },
            slots := { d2.slots with pend := match d2.slots.pend with
              | some (a, b, c) => if a = l then none else some (a, b, c)
              | none => none } }

/-! ### The migrated context (R86, R89) -/

/-- One queue of a context, 29 bytes: its number, bases, configuration and pointers. -/
def queueBytes (e : Nat × Queue) : Bytes :=
  let q := e.2
  leBytes e.1 1 ++ leBytes q.sqBase 8 ++ leBytes q.cqBase 8 ++
  leBytes (b2n q.en + 2 * b2n q.phase + 4 * b2n q.stopped + 16 * q.floor + 256 * q.vector) 2 ++ leBytes q.sqLog 1 ++ leBytes q.cqLog 1 ++
  leBytes q.sqHead 2 ++ leBytes q.sqTail 2 ++ leBytes q.cqHead 2 ++ leBytes q.cqTail 2

/-- One queue from its bytes. -/
def queueOf (b : Bytes) : Nat × Queue :=
  let f := u16 b 17
  (u8 b 0, { sqBase := u64 b 1, cqBase := u64 b 9, en := bitOf f 0, phase := bitOf f 1, stopped := bitOf f 2, floor := field f 4 4,
             vector := field f 8 2, sqLog := u8 b 19, cqLog := u8 b 20, sqHead := u16 b 21, sqTail := u16 b 23, cqHead := u16 b 25,
             cqTail := u16 b 27 })

/-- The context that EXPORT seals (R86): the counter plus one, the keyway, the LTK, the meters, the queues and the latched doorbells.
The layout is the model's own: the blob is sealed (log entry 28). -/
def leafContext (x : Leaf) (cut : Nat) : Bytes :=
  leBytes cut 8 ++ fit 64 x.kw.key ++ leBytes x.kw.attr 1 ++ leBytes x.kw.alg 1 ++ leBytes (b2n x.kw.loaded + 2 * b2n x.kw.exportable) 1 ++
  leBytes x.kw.gen 4 ++ fit 32 x.ltk ++ (x.meters.foldr (fun m r => leBytes m 6 ++ r) []) ++ leBytes x.queues.length 1 ++
  (x.queues.foldr (fun e r => queueBytes e ++ r) []) ++ leBytes x.latched.length 1 ++
  (x.latched.foldr (fun e r => leBytes e.1 1 ++ leBytes e.2 4 ++ r) [])

/-- The leaf of a context (R89), and the counter it carries. -/
def leafOfContext (b : Bytes) : Nat × Leaf :=
  let f := u8 b 74
  let nq := u8 b 141
  let lat := 142 + 29 * nq
  let ltk := slice b 79 32
  (u64 b 0, { state := .quiesced,
              kw := { key := slice b 8 64, attr := u8 b 72, alg := u8 b 73, loaded := bitOf f 0, exportable := bitOf f 1, gen := u32 b 75 },
              ltk := ltk, handle := (hash 5 (leBytes 0x484C 2 ++ ltk)).take 16,
              meters := (List.range 5).map fun i => leNat (slice b (111 + 6 * i) 6),
              queues := (List.range nq).map fun i => queueOf (slice b (142 + 29 * i) 29),
              latched := (List.range (u8 b lat)).map fun i => (u8 b (lat + 1 + 5 * i), u32 b (lat + 2 + 5 * i)) })

/-! ### Commands -/

/-- The command starts on a leaf: HG_CMD_RES holds its number (R61). A command refused before it acts on one leaves the register as it was
(DESIGN CHOICE, log entry 92). -/
def Device.hingeOn (d : Device) (l : Nat) : Device := d.onUnit .hinge fun u => { u with res := l }

/-- Ends a hinge command with a status. -/
def Device.hingeEnd (d : Device) (s : Status) : Device := d.finish .hinge s

/-- CREATE (R62 to R66, R303). -/
def Device.create (d : Device) : Device :=
  if d.lifeBusy then d.hingeEnd St.lifeBusy
  else if !d.kw.valid then d.hingeEnd St.stateForbidden
  else match d.pickFree with
    | .error s => d.hingeEnd s
    | .ok l =>
      if !d.bindingOk (d.arg .hinge 2) then d.hingeEnd St.badArgument
      else ((d.hingeOn l).begin_ .hinge { op := 1, leaf := l, args := d.hg.cmd.args }).jobRead .hinge (d.arg64 .hinge 0) 1624

/-- QCONFIG (R62, R68). -/
def Device.qconfig (d : Device) : Device :=
  let l := d.selLeaf
  let x := d.leaf l
  let q := field (d.arg .hinge 0) 0 6
  let sq := d.arg64 .hinge 1
  let cq := d.arg64 .hinge 3
  let w := d.arg .hinge 5
  if !(x.state == .active || x.state == .quiesced) || (d.arg .hinge 0 < 64 && !(d.queueTurns l q).isEmpty) then d.hingeEnd St.leafState
  else if 64 ≤ d.arg .hinge 0 || sq % 4096 ≠ 0 || cq % 4096 ≠ 0 || field w 28 3 ≠ 0 || field w 22 2 ≠ 0 || field w 12 8 ≠ 0 || field w 4 4 ≠ 0 ||
      field w 8 4 < 4 || field w 0 4 < 4 || 15 < field w 8 4 || 15 < field w 0 4 then d.hingeEnd St.badArgument
  else
    let k : Queue := { sqBase := sq, cqBase := cq, en := bitOf w 31, floor := field w 24 4, vector := field w 20 2, sqLog := field w 8 4,
                       cqLog := field w 0 4 }
    ((d.hingeOn l).onLeaf l fun x => x.onQueue q fun _ => k).hingeEnd St.done

/-- RESET (R62, R73 to R75): the turns are aborted at the next edge; RESET_DONE follows when their records are gone. Doorbells latched before
it are discarded with those that follow until RESET_DONE (DESIGN CHOICE, log entry 90). -/
def Device.resetLeaf (d : Device) : Device :=
  let l := d.selLeaf
  let x := d.leaf l
  if !(x.state == .active || x.state == .quiescing || x.state == .quiesced) then d.hingeEnd St.leafState
  else
    (((d.hingeOn l).onLeaf l fun x => { x with resetting := true, latched := [] }).resetTurns l).hingeEnd St.done

/-- DESTROY (R62, R76): from RESERVED at once; else behind the commit of the next generation. -/
def Device.destroy (d : Device) : Device :=
  let l := d.selLeaf
  let x := d.leaf l
  if x.state = .free then d.hingeEnd St.leafState
  else if x.state = .reserved then (((d.hingeOn l).freeLeaf l).leafCause l 0x20).hingeEnd St.done
  else ((d.hingeOn l).begin_ .hinge { op := 4, leaf := l, phase := .committing }).commit
    (.leafGen l (min (d.gen l + 1) (2 ^ 32 - 1)) false (d.cut l)) (.job .hinge)

/-- QUIESCE (R62, R91). -/
def Device.quiesce (d : Device) : Device :=
  let l := d.selLeaf
  let a0 := d.arg .hinge 0
  let a1 := d.arg .hinge 1
  if (d.leaf l).state ≠ .active then d.hingeEnd St.leafState
  else if 2 ≤ a0 ∨ 2 ^ 24 ≤ a1 ∧ a0 = 0 then d.hingeEnd St.badArgument
  else
    let now := a0 = 1 ∨ a1 = 0
    let d1 := (d.hingeOn l).onLeaf l fun x =>
      { x with state := .quiescing, deadline := if now then none else some ((d.sc.beat + a1) % 2 ^ 48) }
    let d2 := d1.endUnstarted l
    (if now then d2.abortLeaf l St.leafQuiesce else d2).hingeEnd St.done

/-- RESUME (R58, R62): acts on the latched doorbells. -/
def Device.resume (d : Device) : Device :=
  let l := d.selLeaf
  if (d.leaf l).state ≠ .quiesced then d.hingeEnd St.leafState
  else
    let d1 := ((d.hingeOn l).onLeaf l fun x => { x with state := .active }).actLatched l
    let qs := (d1.leaf l).queues.map Prod.fst
    let work := qs.any fun q => let k := (d1.leaf l).queue q; k.en && !k.stopped && k.sqHead != k.sqTail
    let d2 := if (d1.leaf l).hot then qs.foldl (fun d q => d.joinFetch l q) d1 else if work then d1.wakeLeaf l else d1
    d2.hingeEnd St.done

/-- The waiting messages of a leaf go out where its module is up (R53, R54, R459). -/
def Device.leafWaiting (d : Device) (l : Nat) : Device :=
  [0, 1, 2, 3].foldl (fun d v =>
    let e : Vec := Map.getD d.ul.lvt (l * 4 + v) {}
    if e.wait && !e.mask && d.linkUp (d.leaf l).module then
      ({ d with ul := { d.ul with lvt := Map.set d.ul.lvt (l * 4 + v) { e with wait := false } } } : Device).leafMsi l (d.leaf l).module v
    else d) d

/-- REBIND (R54, R62): a message that waited for the old module goes out on the new one. -/
def Device.rebind (d : Device) : Device :=
  let l := d.selLeaf
  if (d.leaf l).state ≠ .quiesced then d.hingeEnd St.leafState
  else if !d.bindingOk (d.arg .hinge 2) then d.hingeEnd St.badArgument
  else (((d.hingeOn l).onLeaf l fun x => x.bind (d.arg .hinge 2)).leafWaiting l).hingeEnd St.done

/-- DLOG_SET (R62, R82). -/
def Device.dlogSet (d : Device) : Device :=
  let l := d.selLeaf
  let x := d.leaf l
  let a := d.arg64 .hinge 0
  let b := d.arg64 .hinge 2
  let base := d.arg64 .hinge 4
  let n := d.arg .hinge 6
  if !(x.state == .active || x.state == .quiesced) then d.hingeEnd St.leafState
  else if a % 4096 ≠ 0 || b % 4096 ≠ 0 || base % 4096 ≠ 0 || n % 64 ≠ 0 || n = 0 || 2 ^ 26 < n then d.hingeEnd St.badArgument
  else ((d.hingeOn l).onLeaf l fun x =>
    { x with dlog := { en := true, a := a, b := b, base := base, pages := n, upd := x.dlog.upd } }).hingeEnd St.done

/-- A harvest whose updates are written switches the bitmap (R84). -/
def Device.harvestDone (d : Device) (l : Nat) : Device :=
  ((d.onLeaf l fun x => { x with dlog := { x.dlog with harvest := false, harvestLeft := 0 } }).leafCause l 0x2).hingeEnd St.done

/-- DLOG_HARVEST (R62, R84): writes from now on are logged in the other bitmap; BUSY falls when the old one is complete. -/
def Device.dlogHarvest (d : Device) : Device :=
  let l := d.selLeaf
  let x := d.leaf l
  if !(x.state == .active || x.state == .quiescing || x.state == .quiesced) || !x.dlog.en then d.hingeEnd St.leafState
  else
    let d1 := ((d.hingeOn l).begin_ .hinge { op := 9, leaf := l }).onLeaf l fun x =>
      { x with dlog := { x.dlog with bufB := !x.dlog.bufB, harvest := true, harvestLeft := x.dlog.upd.length } }
    if x.dlog.upd.isEmpty then d1.harvestDone l else d1

/-- DLOG_STOP (R62): logging ends; BUSY falls when the pending updates are written (DEDUCED from the bound of R62, log entry 29). -/
def Device.dlogStop (d : Device) : Device :=
  let l := d.selLeaf
  let x := d.leaf l
  if x.state = .free then d.hingeEnd St.leafState
  else
    let d1 := (d.hingeOn l).onLeaf l fun x => { x with dlog := { x.dlog with en := false } }
    if x.dlog.upd.isEmpty then d1.hingeEnd St.done else d1.begin_ .hinge { op := 10, leaf := l }

/-- IMPORT_OPEN reserves its leaf with the nonce drawn (R88). Its vectors are masked, as CREATE masks those of a new leaf (R53; DESIGN CHOICE,
log entry 93). -/
def Device.openWith (d : Device) (l : Nat) : Device :=
  let n := d.ns.lineBytes 16
  let d1 := ((d.takeLines 16).hingeOn l).setLeaf l { state := .reserved, nonce := n, causes := (d.leaf l).causes }
  let d2 := d1.maskVectors l
  ({ d2 with hg := { d2.hg with nonce := (List.range 4).map fun j => u32 n (4 * j) } } : Device).hingeEnd St.done

/-- IMPORT_OPEN (R62, R88, R298): it waits for a line of the internal region if none is there (R289). -/
def Device.importOpen (d : Device) : Device :=
  if d.lifeBusy then d.hingeEnd St.lifeBusy
  else if !d.kw.valid then d.hingeEnd St.stateForbidden
  else match d.pickFree with
    | .error s => d.hingeEnd s
    | .ok l =>
      if d.ns.notReady then d.hingeEnd St.entropyUnavailable
      else if d.hingeCanDraw 16 then d.openWith l
      else d.begin_ .hinge { op := 11, leaf := l }

/-- The certificate's bytes (R313). -/
def certLen : Nat := 9051

/-- EXPORT (R62, R85 to R87, R298): a held blob is written again; else the certificate is read first. -/
def Device.exportLeaf (d : Device) : Device :=
  let l := d.selLeaf
  let x := d.leaf l
  let job : Job := { op := 12, leaf := l, args := d.hg.cmd.args, nonce := d.hg.nonce.foldr (fun w r => leBytes w 4 ++ r) [] }
  if d.lifeBusy then d.hingeEnd St.lifeBusy
  else if !d.kw.valid then d.hingeEnd St.stateForbidden
  else if x.state = .exported then
    match Map.get? d.hg.blobs l with
    | some b =>
      (((d.hingeOn l).begin_ .hinge { job with op := 0x10C }).jobWrite .hinge (d.arg64 .hinge 3) b).logWrite l (d.arg64 .hinge 3) b.length none |>.1
    | none => d.hingeEnd St.leafState
  else if x.state ≠ .quiesced then d.hingeEnd St.leafState
  else if d.arg .hinge 2 ≠ certLen ∨ 4096 ≤ d.arg .hinge 5 then d.hingeEnd St.badArgument
  else if d.ns.notReady then d.hingeEnd St.entropyUnavailable
  else ((d.hingeOn l).begin_ .hinge job).jobRead .hinge (d.arg64 .hinge 0) certLen

/-- IMPORT (R62, R88, R89): the blob is read first. -/
def Device.importLeaf (d : Device) : Device :=
  let l := d.selLeaf
  if d.lifeBusy then d.hingeEnd St.lifeBusy
  else if !d.kw.valid then d.hingeEnd St.stateForbidden
  else if (d.leaf l).state ≠ .reserved then d.hingeEnd St.leafState
  else if !d.bindingOk (d.arg .hinge 2) then d.hingeEnd St.badArgument
  else ((d.hingeOn l).begin_ .hinge { op := 13, leaf := l, args := d.hg.cmd.args }).jobRead .hinge (d.arg64 .hinge 0) 8192

/-! ### The course of a command -/

/-- Runs a computation of hinge work with the masks of the tumbler that ran it (R209). -/
def Device.jobMasks {α : Type} (d : Device) (x : Job) (f : Draws α) : α × Device := d.withMasks (some (.tumbler x.tumbler)) f

/-- The LTK of a creation input (R303); none where the X448 secret is all zero (R66). -/
def Device.ltkOf (d : Device) (x : Job) : Option Bytes × Device :=
  let input := x.data
  let ((sk, sx), d1) := d.jobMasks x (identityShared d.kw.seeds input)
  (if sx = zeros 56 then none
   else some (hkdf 3 (leBytes Config.serial 8 ++ fit 32 d.kw.digest) (sk ++ sx) (leBytes 0x014B544C 4 ++ hash 5 input) 32), d1)

/-- The identity certificate of another device is accepted (R85, R313). -/
def certAccepted (c : Bytes) : Bool := identitySigned c && u8 c 0 == 1 && u64 c 4 != Config.serial % 2 ^ 64

/-- What a blob is bound to (R86): source serial, identity digest, leaf and generation; destination serial, leaf and nonce. -/
def Device.blobBind (d : Device) (x : Job) : Bytes :=
  leBytes Config.serial 8 ++ fit 32 d.kw.digest ++ leBytes x.leaf 2 ++ leBytes (d.gen x.leaf) 4 ++ slice x.data 4 8 ++ leBytes (nth x.args 5 0) 2 ++
  fit 16 x.nonce

/-- EXPORT after its transfers and engine work (R85 to R87): the checks, the buffer and the commit. -/
def Device.exportChecks (d : Device) (x : Job) : Device :=
  let l := d.leaf x.leaf
  let c := x.data
  if !certAccepted c then d.hingeEnd St.identityRejected
  else if l.kw.loaded && !l.kw.exportable then d.hingeEnd St.keywayNotExportable
  else if 16 ≤ d.hg.blobs.length then d.hingeEnd St.exportBuffersFull
  else
    let v := d.cut x.leaf + 1
    let (blob, d1) := d.jobMasks x (sealBlob (slice c 2704 1568) (slice c 4272 56) (d.blobBind x) (leafContext l v) (x.out.take 32) (slice x.out 32 56))
    (({ d1 with hg := { d1.hg with blobs := Map.set d1.hg.blobs x.leaf blob } } : Device).onJob .hinge fun j => { j with phase := .committing }).commit
      (.cut x.leaf v) (.job .hinge)

/-- What a blob must be bound to here (R88): this device, the leaf, and the nonce it holds. -/
def Device.blobMine (d : Device) (l : Nat) : Bytes := leBytes Config.serial 8 ++ leBytes l 2 ++ fit 16 (d.leaf l).nonce

/-- IMPORT after its transfer and engine work (R88, R89): the binding is checked again (R54) and the blob is opened; a failed check of the
blob frees the leaf. -/
def Device.importCheck (d : Device) (x : Job) : Device :=
  let l := d.leaf x.leaf
  if !d.bindingOk (nth x.args 2 0) then d.hingeEnd St.badArgument
  else
    let (ctx, d1) := d.jobMasks x (openBlob d.kw.seeds x.data (d.blobMine x.leaf))
    match ctx with
    | none => (d1.setLeaf x.leaf { meters := l.meters, causes := l.causes }).hingeEnd St.blobIntegrity
    | some c =>
      let v := max (leafOfContext c).1 (d.cut x.leaf) + 1
      ((d1.onLeaf x.leaf fun l => { l with nonce := [] }).onJob .hinge fun j => { j with phase := .committing, out := c }).commit
        (.leafGen x.leaf (d.gen x.leaf) true v) (.job .hinge)

/-- The engine work of EXPORT starts with its random values, of the internal region (R289, R298): it waits for lines, and without output ends
with ENTROPY_UNAVAILABLE. -/
def Device.exportWork (d : Device) : Device :=
  if d.ns.notReady then d.hingeEnd St.entropyUnavailable
  else if d.hingeCanDraw 88 then
    ((d.takeLines 88).onJob .hinge fun j => { j with out := d.ns.lineBytes 88 }).jobWork .hinge (certWork ++ [kemWork 4, boltWork 36 3 true])
  else d.onJob .hinge fun j => { j with phase := .waiting }

/-- A hinge command goes on after its reads have come (R62 step 6); the stroke counts of hinge work are those of the instructions that do
the same (DESIGN CHOICE, log entry 30). -/
def Device.hingeRead (d : Device) (x : Job) : Device :=
  if x.failed then d.hingeEnd St.dmaFault
  else match x.op with
    | 12 => d.exportWork
    | _ => d.jobWork .hinge [kemWork 6, boltWork 36 3 true]

/-- A hinge command goes on after its engine work. A binding that names a module disabled since then is refused (R54). -/
def Device.hingeWorked (d : Device) (x : Job) : Device :=
  match x.op with
  | 1 =>
    let (k, d1) := d.ltkOf x
    (match k with
    | none => d1.hingeEnd St.badArgument
    | some k =>
      if !d.bindingOk (nth x.args 2 0) then d1.hingeEnd St.badArgument
      else (d1.onJob .hinge fun j => { j with phase := .committing, out := k }).commit (.leafGen x.leaf (d.gen x.leaf) true (d.cut x.leaf))
        (.job .hinge))
  | 12 => d.exportChecks x
  | _ => d.importCheck x

/-- DESTROY ends when the last turn of the leaf is gone (R76). -/
def Device.destroyStep (d : Device) (l : Nat) : Device :=
  if (d.turnsOf l).isEmpty then ((d.freeLeaf l).leafCause l 0x20).hingeEnd St.done else d

/-- A hinge command goes on after its commit: durable, or failed with NV_FAULT (R61, R66, R76, R86, R89). A binding that names a module disabled
since the command was accepted is refused here too (R54; DESIGN CHOICE of the outcome, log entry 94). -/
def Device.hingeCommitted (d : Device) (x : Job) (ok : Bool) : Device :=
  if !ok then
    ({ d with hg := { d.hg with blobs := if x.op = 12 then Map.erase d.hg.blobs x.leaf else d.hg.blobs } } : Device).hingeEnd St.nvFault
  else match x.op with
    | 1 =>
    if d.bindingOk (nth x.args 2 0) then (d.createLeaf x.leaf (nth x.args 2 0) x.out).hingeEnd St.done else d.hingeEnd St.badArgument
    | 4 =>
      let d1 := (d.onJob .hinge fun j => { j with phase := .waiting }).onLeaf x.leaf fun y => { y with resetting := true, destroying := true, latched := [] }
      (d1.resetTurns x.leaf).destroyStep x.leaf
    | 12 =>
      let blob := Map.getD d.hg.blobs x.leaf []
      let addr := nth x.args 3 0 + 2 ^ 32 * nth x.args 4 0
      ((d.jobWrite .hinge addr blob).logWrite x.leaf addr blob.length none).1
    | _ =>
      let old := d.leaf x.leaf
      let (_, y) := leafOfContext x.out
      let z : Leaf := { y.bind (nth x.args 2 0) with causes := old.causes, slotBase := old.slotBase, slotCount := old.slotCount }
      if !d.bindingOk (nth x.args 2 0) then (d.setLeaf x.leaf { meters := old.meters, causes := old.causes }).hingeEnd St.badArgument
      else (((d.setLeaf x.leaf z).maskVectors x.leaf).leafCause x.leaf 0x8).hingeEnd St.done

/-- A hinge command goes on after its writes (R86, R87): the leaf is EXPORTED, and the buffer is released if the blob was written. -/
def Device.hingeWritten (d : Device) (x : Job) : Device :=
  let d1 := if x.op = 12 then d.onLeaf x.leaf fun y => { y with state := .exported, kw := {}, ltk := [], handle := [], change := none } else d
  if x.failed then d1.hingeEnd St.dmaFault
  else (({ d1 with hg := { d1.hg with blobs := Map.erase d1.hg.blobs x.leaf } } : Device).leafCause x.leaf 0x4).hingeEnd St.done

/-- A pending update of a dirty bitmap has ended: a harvest or a stop that waits for it may end (R84). -/
def Device.hingeDlog (d : Device) (l : Nat) : Device :=
  match d.hg.cmd.job with
  | some x =>
    if x.leaf ≠ l then d
    else if x.op = 9 ∧ (d.leaf l).dlog.harvestLeft = 0 ∧ (d.leaf l).dlog.harvest then d.harvestDone l
    else if x.op = 10 ∧ (d.leaf l).dlog.upd.isEmpty then d.hingeEnd St.done
    else d
  | none => d

/-- A hinge command that waits is looked at again: a DESTROY for its turns, an IMPORT_OPEN and an EXPORT for random values (R76, R289, R298). -/
def Device.hingePoll (d : Device) : Device :=
  match d.hg.cmd.job with
  | some x =>
    if x.phase ≠ .waiting then d
    else match x.op with
      | 4 => d.destroyStep x.leaf
      | 11 => if d.ns.notReady then d.hingeEnd St.entropyUnavailable else if d.hingeCanDraw 16 then d.openWith x.leaf else d
      | 12 => d.exportWork
      | _ => d
  | none => d

/-! ### Rows -/

/-- CREATE (R66). -/
def execHgCreate (s : State) : Host.Outcome State Fault Refusal := run s true (s.dev.command .hinge Device.create)
/-- QCONFIG (R68). -/
def execHgQconfig (s : State) : Host.Outcome State Fault Refusal := run s true (s.dev.command .hinge Device.qconfig)
/-- RESET (R73). -/
def execHgReset (s : State) : Host.Outcome State Fault Refusal := run s true (s.dev.command .hinge Device.resetLeaf)
/-- DESTROY (R76). -/
def execHgDestroy (s : State) : Host.Outcome State Fault Refusal := run s true (s.dev.command .hinge Device.destroy)
/-- QUIESCE (R91). -/
def execHgQuiesce (s : State) : Host.Outcome State Fault Refusal := run s true (s.dev.command .hinge Device.quiesce)
/-- RESUME (R58). -/
def execHgResume (s : State) : Host.Outcome State Fault Refusal := run s true (s.dev.command .hinge Device.resume)
/-- REBIND (R54). -/
def execHgRebind (s : State) : Host.Outcome State Fault Refusal := run s true (s.dev.command .hinge Device.rebind)
/-- DLOG_SET (R82). -/
def execHgDlogSet (s : State) : Host.Outcome State Fault Refusal := run s true (s.dev.command .hinge Device.dlogSet)
/-- DLOG_HARVEST (R84). -/
def execHgDlogHarvest (s : State) : Host.Outcome State Fault Refusal := run s true (s.dev.command .hinge Device.dlogHarvest)
/-- DLOG_STOP (R62). -/
def execHgDlogStop (s : State) : Host.Outcome State Fault Refusal := run s true (s.dev.command .hinge Device.dlogStop)
/-- IMPORT_OPEN (R88). -/
def execHgImportOpen (s : State) : Host.Outcome State Fault Refusal := run s true (s.dev.command .hinge Device.importOpen)
/-- EXPORT (R86). -/
def execHgExport (s : State) : Host.Outcome State Fault Refusal := run s true (s.dev.command .hinge Device.exportLeaf)
/-- IMPORT (R89). -/
def execHgImport (s : State) : Host.Outcome State Fault Refusal := run s true (s.dev.command .hinge Device.importLeaf)
/-- An opcode that R62 does not list: BAD_ARGUMENT. -/
def execHingeUnknownOpcode (_opcode : Byte) (s : State) : Host.Outcome State Fault Refusal :=
  run s true (s.dev.command .hinge fun d => d.hingeEnd St.badArgument)

/-- RESET_DONE (R73, R74): the last turn of the leaf is gone. A leaf that quiesces is QUIESCED with it. -/
def Device.resetDone (d : Device) (l : Nat) : Device :=
  let quiescing := (d.leaf l).state == .quiescing
  let d1 := d.onLeaf l fun x =>
    { x.resetQueues with state := if quiescing then .quiesced else x.state, resetting := false, deadline := if quiescing then none else x.deadline }
  (d1.leafStatus l 0x4).leafCause l (0x10 + b2n quiescing)

/-- RESET_DONE (R73): once the edge of the abort has passed and the leaf has no turn left; DESTROY sets none (R76). -/
def execResetDone (leaf : Nat) (s : State) : Host.Outcome State Fault Refusal :=
  run s ((s.dev.leaf leaf).resetting && !(s.dev.leaf leaf).destroying && (s.dev.turnsOf leaf).isEmpty) (s.dev.resetDone leaf)

/-- The deadline of a drain has come (R91). -/
def Leaf.deadlineMet (x : Leaf) (beat : Nat) : Bool :=
  match x.deadline with
  | some b => met beat b
  | none => false

/-- QUIESCE_DEADLINE (R91): the remaining turns are aborted with LEAF_QUIESCE. -/
def execQuiesceDeadline (leaf : Nat) (s : State) : Host.Outcome State Fault Refusal :=
  run s ((s.dev.leaf leaf).state == .quiescing && (s.dev.leaf leaf).deadlineMet s.dev.sc.beat)
    ((s.dev.onLeaf leaf fun x => { x with deadline := none }).abortLeaf leaf St.leafQuiesce)

/-- QUIESCE_COMPLETE (R91): the last record of the leaf is written; the leaf is QUIESCED. -/
def execQuiesceComplete (leaf : Nat) (s : State) : Host.Outcome State Fault Refusal :=
  run s ((s.dev.leaf leaf).state == .quiescing && (s.dev.turnsOf leaf).isEmpty)
    ((s.dev.onLeaf leaf fun x => { x with state := .quiesced, deadline := none }).leafCause leaf 0x1)

end Sys2Proof.Machine
end

