-- ==== Sys2Proof/Machine/DigestSlots.lean ====
section
/-! DEFINITION. The key-state slot ranges and their units in vault memory (R246, R249, R255). -/

namespace Sys2Proof.Machine

/-- Units that a range of slots lies in (R249). -/
def rangeUnits (base count : Nat) : List Nat :=
  (List.range 32).filter fun u => 0 < count && base < 2048 * (u + 1) && 2048 * u < base + count

/-- A unit holds spill or trap frames (R249). -/
def Device.unitOccupied (d : Device) (u : Nat) : Bool := d.spillUnits.contains u || d.framesIn u != 0

/-- Two ranges share a slot. -/
def rangesMeet (b1 n1 b2 n2 : Nat) : Bool := 0 < n1 && 0 < n2 && b1 < b2 + n2 && b2 < b1 + n1

/-- The staged range is refused (R246): it runs past the last slot, meets another leaf's range, or names a FREE leaf. -/
def Device.rangeRefused (d : Device) : Bool :=
  let x := d.slots
  65536 < x.base + x.count || (d.leaf x.sel).state == .free ||
  d.leaves.any fun e => e.1 != x.sel && rangesMeet x.base x.count e.2.slotBase e.2.slotCount

/-- A range takes effect (R246): the slots that leave the leaf's range are zeroised. -/
def Device.applyRange (d : Device) (l base count : Nat) : Device :=
  let x := d.leaf l
  let gone := (d.slots.slots.map Prod.fst).filter fun s =>
    x.slotBase ≤ s && s < x.slotBase + x.slotCount && !(base ≤ s && s < base + count)
  let d1 := gone.foldl (fun d s => d.emptySlot s) d
  d1.onLeaf l fun x => { x with slotBase := base, slotCount := count }

/-- DG_SLOT_CTL.COMMIT (R246, R249): refused, pending while a unit is occupied, or applied at once. A new commit takes the place of one
that is still pending (DESIGN CHOICE, log entry 31). -/
def Device.commitRange (d : Device) : Device :=
  let x := d.slots
  if d.rangeRefused then { d with slots := { x with refused := true }, dg := { d.dg with evt := d.dg.evt ||| 1 } }
  else if (rangeUnits x.base x.count).any d.unitOccupied then
    { d with slots := { x with refused := false, pend := some (x.sel, x.base, x.count) } }
  else ({ d with slots := { x with refused := false, pend := none } } : Device).applyRange x.sel x.base x.count

/-- SLOT_RANGE_COMMIT (R246). -/
def execSlotRangeCommit (s : State) : Host.Outcome State Fault Refusal := run s true (s.dev.hostDoAt .digest Device.commitRange)

/-- The pending range, once its units are empty (R249). -/
def Device.pendingReady (d : Device) : Bool :=
  match d.slots.pend with
  | some (_, b, n) => !(rangeUnits b n).any d.unitOccupied
  | none => false

/-- The pending range takes effect (R249). -/
def Device.applyPending (d : Device) : Device :=
  match d.slots.pend with
  | some (l, b, n) => ({ d with slots := { d.slots with pend := none } } : Device).applyRange l b n
  | none => d

/-- SLOT_RANGE_PENDING_APPLY (R249). -/
def execSlotRangePendingApply (s : State) : Host.Outcome State Fault Refusal := run s s.dev.pendingReady s.dev.applyPending

/-- DG_SLOT_SEL (R255): the staged range becomes that of the selected leaf. -/
def Device.selRange (d : Device) (l : Nat) : Device :=
  { d with slots := { d.slots with sel := l, base := (d.leaf l).slotBase, count := (d.leaf l).slotCount } }

/-- DG_SLOT_SEL_WRITE (R255). -/
def execDgSlotSelWrite (value : Word) (s : State) : Host.Outcome State Fault Refusal :=
  run s true (s.dev.hostDoAt .digest fun d => d.selRange (field value.toNat 0 12))

end Sys2Proof.Machine
end

