-- ==== Sys2Proof/Machine/Entropy.lean ====
section
/-! DEFINITION. The entropy block: pins and their health tests (R281 to R286), channels, DRBGs and the output buffer (R287 to R289), the
output states (R292, R293, R295), waiting consumers (R291, R296), raw captures (R297), and the mask and blinding generators (R209, R252,
R260). -/

namespace Sys2Proof.Machine

/-! ### Pins and channels (R281) -/

/-- The two ordinary pins of channel c: first and second (R281). -/
def chanPins (c : Nat) : Nat × Nat := if c < 7 then (c + 1, c + 17) else (c + 2, c + 18)

/-- Pin p is a master pin (R281). -/
def isMaster (p : Nat) : Bool := p % 8 == 0

/-- The channel of an ordinary pin, and whether the pin is its second one (R281). -/
def chanOf (p : Nat) : Nat × Bool := if p < 8 then (p - 1, false) else if p < 16 then (p - 2, false) else if p < 24 then (p - 17, true) else (p - 18, true)

/-- Pin p. -/
def Entropy.pin (n : Entropy) (p : Nat) : Pin := nth n.pins p {}

/-- The entropy block with a pin changed. -/
def Entropy.onPin (n : Entropy) (p : Nat) (f : Pin → Pin) : Entropy := { n with pins := modifyAt n.pins p f }

/-- Channel c. -/
def Entropy.chan (n : Entropy) (c : Nat) : Chan := nth n.chans c {}

/-- The entropy block with a channel changed. -/
def Entropy.onChan (n : Entropy) (c : Nat) (f : Chan → Chan) : Entropy := { n with chans := modifyAt n.chans c f }

/-- The channels online. -/
def Entropy.online (n : Entropy) : Nat := (n.chans.filter Chan.online).length

/-- The active pin of channel c, and the other one. -/
def Entropy.active (n : Entropy) (c : Nat) : Nat × Nat :=
  let (a, b) := chanPins c
  if (n.chan c).sel then (b, a) else (a, b)

/-- The device with the entropy block changed. -/
def Device.onNs (d : Device) (f : Entropy → Entropy) : Device := { d with ns := f d.ns }

/-! ### Health tests (R283) -/

/-- The cutoffs in force (R283, NS_TEST): repetition count, adaptive proportion, autocorrelation. -/
def Entropy.rctCutoff (n : Entropy) : Nat := field n.test 8 6
/-- The adaptive proportion cutoff (R283). -/
def Entropy.aptCutoff (n : Entropy) : Nat := field n.test 14 10
/-- The autocorrelation threshold (R283). -/
def Entropy.acThreshold (n : Entropy) : Nat := field n.test 24 8

/-- The bits of a block, first sample first. -/
def blockBits (b : BitVec 1024) : List Bool := (List.range 1024).map fun i => b.getLsbD i

/-- The run of identical bits at the end, its bit, and the longest run, over a block that continues a run. -/
def runScan : List Bool → Nat → Bool → Nat → Nat × Bool × Nat
  | [], run, last, top => (run, last, top)
  | x :: r, run, last, top =>
    let n := if run ≠ 0 && x == last then run + 1 else 1
    runScan r n x (max top n)

/-- Equal bits `lag` positions apart. -/
def equalAt (bits : List Bool) (lag : Nat) : Nat := ((List.zip bits (bits.drop lag)).filter fun e => e.1 == e.2).length

/-- The autocorrelation test fails (R283): at some lag from 1 to 8 the count differs by more than T from (n0² + n1²) ÷ 1,024. -/
def acFails (threshold : Nat) (bits : List Bool) : Bool :=
  let n1 := (bits.filter id).length
  let n0 := 1024 - n1
  let e := n0 * n0 + n1 * n1
  (List.range 8).any fun k =>
    let c := 1024 * equalAt bits (k + 1)
    1024 * threshold < c - e || 1024 * threshold < e - c

/-- The adaptive proportion test fails (R283): the first bit recurs C or more times. -/
def aptFails (cutoff : Nat) : List Bool → Bool
  | [] => false
  | x :: r => cutoff ≤ (r.filter (· == x)).length

/-- The first test of the table's order that a block of a pin fails (1, 2, 3), 0 if none; and the run at its end (R283). -/
def Entropy.healthTest (n : Entropy) (p : Pin) (b : BitVec 1024) : Nat × Nat × Bool :=
  let bits := blockBits b
  let (run, last, top) := runScan bits (if p.startup then 0 else p.run) p.lastBit 0
  (if n.rctCutoff ≤ top then 1 else if aptFails n.aptCutoff bits then 2 else if acFails n.acThreshold bits then 3 else 0, run, last)

/-- A pin whose block is tested: sampling, and not captured, held or retired. -/
def Pin.tested (p : Pin) : Bool :=
  p.state == .off || p.state == .active || p.state == .standby || (p.state == .restarting && p.startup)

/-- The pin after a failed block (R283 to R285). -/
def Pin.fail (p : Pin) (test : Nat) : Pin :=
  let n := min 4 (p.consec + 1)
  { p with state := if n = 4 then .held else .restarting, consec := n, fails := satAdd 16 p.fails 1, lastTest := test, trimmed := false,
           startup := false, run := 0 }

/-- What the block of one pin gave: failed, passed, or not tested. -/
inductive BlockEnd where
  | untested | passed | failed
  deriving DecidableEq, Repr

/-- The end of one pin's block (R283, R285): the pin with its counters, the sources raised. A pin that passes keeps its state here. -/
def Device.pinBlock (d : Device) (p : Nat) (b : BitVec 1024) : Device × BlockEnd :=
  let x := d.ns.pin p
  if !x.tested then (d, .untested)
  else
    match d.ns.healthTest x b with
    | (0, run, last) => (d.onNs fun n => n.onPin p fun x => { x with consec := 0, run := run, lastBit := last }, .passed)
    | (t, _, _) =>
      let y := x.fail t
      let d1 := (d.onNs fun n => n.onPin p fun _ => y).raiseSrc (1328 + p)
      if y.state ≠ .held then (d1, .failed)
      else if isMaster p then
        (((d1.onNs fun n => { n with rootBlocked := true }).nsEvt 0x40).raiseSrc (1376 + p / 8), .failed)
      else ((d1.nsEvt 0x80).raiseSrc 1385, .failed)

/-- The state of a pin that has passed. -/
def Device.setPin (d : Device) (p : Nat) (s : PinState) : Device :=
  d.onNs fun n => n.onPin p fun x => { x with state := s, startup := false, trimmed := false }

/-- Channel c goes offline (R284). -/
def Device.chanDown (d : Device) (c : Nat) : Device :=
  ((d.onNs fun n => n.onChan c fun x => { x with online := false }).nsEvt 0x2).raiseSrc (1360 + c)

/-- The other pin of channel c becomes active (R284). -/
def Device.chanSwitch (d : Device) (c : Nat) : Device :=
  let (_, b) := d.ns.active c
  (d.onNs fun n => n.onChan c fun x => { x with sel := !x.sel, switches := satAdd 16 x.switches 1 }).setPin b .active

/-- The end of a block period for channel c, with what its first and second pin gave (R284, R295); the pin whose block the conditioner takes, if
any (R287). -/
def Device.chanBlock (d : Device) (c : Nat) (first second : BlockEnd) : Device × Option Nat :=
  let x := d.ns.chan c
  let (a, b) := d.ns.active c
  let (ra, rb) := if x.sel then (second, first) else (first, second)
  if x.online then
    if ra = .passed then (if rb = .passed then (d.setPin b .standby, some a) else (d, some a))
    else if rb = .passed then (d.chanSwitch c, some b)
    else (d.chanDown c, none)
  else
    let (p1, p2) := chanPins c
    if first = .untested ∧ second = .untested then (d, none)
    else if first = .passed then
      let d1 := (d.onNs fun n => n.onChan c fun x => { x with online := true, sel := false }).setPin p1 .active
      ((if second = .passed then d1.setPin p2 .standby else d1).nsEvt 0x4, some p1)
    else if second = .passed then
      (((d.onNs fun n => n.onChan c fun x => { x with online := true, sel := true }).setPin p2 .active).nsEvt 0x4, some p2)
    else (d, none)

/-! ### Output states (R292, R293) -/

/-- Some pin of a channel is ACTIVE, STANDBY or RESTARTING, or has not been sampled yet (R292, R295). -/
def Entropy.alive (n : Entropy) : Bool :=
  (List.range 32).any fun p => !isMaster p && (match (n.pin p).state with
    | .active | .standby | .restarting | .off => true
    | _ => false)

/-- Every unserved line and every DRBG state zeroised (R293). -/
def Entropy.cleared (n : Entropy) : Entropy :=
  { n with window := [], internal := [], pre0 := none, pre1 := none, drbgs := List.replicate 64 {} }

/-- NOT_READY becomes 1 (R291, R293): every line and every DRBG state is zeroised, the reads that are held complete with zero bytes, and the waits
of R296 begin. -/
def Device.outputStops (d : Device) : Device :=
  let d1 := d.onNs fun n => { n.cleared with held := n.held.map fun h => (h.1, h.2.1, 0) }
  let d2 : Device := { d1 with turns := Map.mapVals d1.turns fun _ t => if t.phase == .waitEntropy then { t with entropyWait := d.sc.beat } else t }
  d2.when d.ns.wasReady (·.nsEvt 0x10)

/-- The output state changes (R292, R293). -/
def Device.nsGo (d : Device) (s : NsState) : Device :=
  let d1 := d.onNs fun n => { n with state := s }
  if !d.ns.notReady && d1.ns.notReady then d1.outputStops else d1

/-- Every DRBG is instantiated. -/
def Entropy.allInst (n : Entropy) : Bool := n.drbgs.all Drbg.inst

/-- A DRBG whose reseed is due (R288, R298). -/
def Drbg.due (g : Drbg) : Bool := g.inst && (64 ≤ g.requests || g.reseedAll)

/-- A DRBG whose reseed is due while no channel is online stops (R288). -/
def Device.stopDue (d : Device) : Device :=
  if d.ns.online = 0 then d.onNs fun n => { n with drbgs := n.drbgs.map fun g => if g.due then { g with stopped := true } else g } else d

/-- One change of the output state that its conditions ask for (R292, R293). -/
def Device.nsStep (d : Device) : Device :=
  let n := d.ns
  if n.rawActive then d
  else if !n.alive && n.state != .failed then
    (if n.state = .stopped then d.nsGo .failed else (d.nsGo .failed).raiseSrc 1375)
  else match n.state with
    | .starting =>
      if !n.katBad && n.allInst && 2 ≤ n.online then ((d.nsGo .ready).onNs fun n => { n with wasReady := true }).nsEvt 0x1 else d
    | .ready => if n.online < 2 then ((d.nsGo .low).nsEvt 0x8).raiseSrc 1374 else d
    | .low =>
      if 2 ≤ n.online then d.nsGo .ready
      else if n.drbgs.all Drbg.stopped then (d.nsGo .stopped).raiseSrc 1375
      else d
    | .stopped => if 2 ≤ n.online then d.nsGo .reinst else d
    | .reinst => if n.allInst && 2 ≤ n.online then (d.nsGo .ready).nsEvt 0x20 else d
    | .failed => if n.alive then d.nsGo (if n.wasReady then .stopped else .starting) else d
    | .raw => d

/-- The output state follows its conditions. -/
def Device.nsEval (d : Device) : Device := d.stopDue.nsStep.nsStep

/-! ### DRBGs (R288, R289) -/

/-- The cipher-block chaining of the derivation function (SP 800-90A, 10.3.3). -/
def drbgChain (key data : Bytes) : Bytes := (blocks16 data).foldl (fun c b => aesEnc key (xorBytes c b)) (zeros 16)

/-- Output blocks of AES, each the encryption of the one before. -/
def drbgForward (key : Bytes) : Nat → Bytes → Bytes
  | 0, _ => []
  | n + 1, x => let y := aesEnc key x; y ++ drbgForward key n y

/-- The derivation function to 48 bytes (SP 800-90A, 10.3.2). -/
def drbgDerive (input : Bytes) : Bytes :=
  let s := pad16 (beBytes input.length 4 ++ beBytes 48 4 ++ input ++ [0x80])
  let k := (List.range 32).map fun i => BitVec.ofNat 8 i
  let temp := (List.range 3).foldr (fun i r => drbgChain k (beBytes i 4 ++ zeros 12 ++ s) ++ r) []
  drbgForward (temp.take 32) 3 (slice temp 32 16)

/-- `n` blocks of the counter mode of CTR_DRBG from V on, V counting first (SP 800-90A, 10.2.1). -/
def drbgBlocks (key : Bytes) : Nat → Nat → Bytes
  | 0, _ => []
  | n + 1, v => aesEnc key (beBytes ((v + 1) % 2 ^ 128) 16) ++ drbgBlocks key n (v + 1)

/-- CTR_DRBG_Update (SP 800-90A, 10.2.1.2). -/
def Drbg.update (g : Drbg) (key v provided : Bytes) : Drbg :=
  let t := xorBytes (drbgBlocks key 3 (beNat v)) provided
  { g with key := t.take 32, v := t.drop 32 }

/-- DRBG `i` is instantiated (R288): entropy input, nonce, and the serial with its number as personalisation string. -/
def Drbg.instantiate (g : Drbg) (i : Nat) (entropy nonce : Bytes) : Drbg :=
  { g with inst := true, input := none }.update (zeros 32) (zeros 16) (drbgDerive (entropy ++ nonce ++ leBytes Config.serial 8 ++ leBytes i 1))

/-- A DRBG reseeds with one conditioned output (R288). -/
def Drbg.reseed (g : Drbg) (c : Nat) (entropy : Bytes) : Drbg :=
  { g with requests := 0, reseedAll := false, last := some c }.update g.key g.v (drbgDerive entropy)

/-- One generate request (R288): 1,024 bytes, and the state after it. -/
def Drbg.generate (g : Drbg) : Bytes × Drbg :=
  (drbgBlocks g.key 64 (beNat g.v), { g with requests := g.requests + 1 }.update g.key (beBytes ((beNat g.v + 64) % 2 ^ 128) 16) (zeros 48))

/-- The first DRBG that a conditioned output of channel `c` can go to, in DRBG order from number `i` on: its entropy input, then from another
channel its nonce (R288, R295). -/
def giveInst (c : Nat) (out : Bytes) : Nat → List Drbg → List Drbg
  | _, [] => []
  | i, g :: r =>
    if g.inst then g :: giveInst c out (i + 1) r
    else match g.input with
      | none => { g with input := some (c, out) } :: r
      | some (a, entropy) => if a = c then g :: giveInst c out (i + 1) r else g.instantiate i entropy out :: r

/-- The first due DRBG that may reseed from channel `c` (R288): not from the channel of its last reseed while two are online. Answers
whether one did. -/
def giveReseed (c : Nat) (out : Bytes) (many : Bool) : List Drbg → List Drbg × Bool
  | [] => ([], false)
  | g :: r =>
    if g.due && !g.stopped && !(many && g.last == some c) then (g.reseed c out :: r, true)
    else
      let (r', b) := giveReseed c out many r
      (g :: r', b)

/-- One conditioned output of channel `c` (R287, R288): for an instantiation, or for a reseed; else it is discarded. -/
def Entropy.output (n : Entropy) (c : Nat) (out : Bytes) : Entropy :=
  match n.state with
  | .starting | .reinst => if n.katBad then n else { n with drbgs := giveInst c out 0 n.drbgs, chanRot := (c + 1) % 14 }
  | .ready | .low =>
    let (gs, b) := giveReseed c out (2 ≤ n.online) n.drbgs
    if b then { n with drbgs := gs, chanRot := (c + 1) % 14, reseeds := satAdd 32 n.reseeds 1 } else n
  | _ => n

/-- A conditioner's output (R287): SHA3-256 of the 1,024 bits of a block, eight samples a byte, the first the lowest (DESIGN CHOICE of the order,
log entry 95). -/
def conditioned (b : BitVec 1024) : Bytes := hash 5 (leBytes b.toNat 128)

/-- The channels that yielded an output, with the pin that gave it, in rotation order (R288). -/
def Entropy.rotation (n : Entropy) (cs : List (Nat × Nat)) : List (Nat × Nat) := sortBy (fun c => [(c.1 + 14 - n.chanRot) % 14]) cs

/-- The bits of the captured pin join the raw buffer, untested (R297). -/
def Entropy.record (n : Entropy) (blocks : List (BitVec 1024)) : Entropy :=
  if n.rawActive && n.raw.length < 8192 then { n with raw := n.raw ++ [nth blocks n.rawPin 0] } else n

/-- Stage 3 pauses the recalibration of a pin between its blocks (R403). -/
def Device.recalPaused (d : Device) (p : Nat) : Bool :=
  3 ≤ d.power.applied && d.mi.running.any fun r => r.op == 0x10 && r.args.head? == some p

/-- NOISE_BLOCK_END (R283): tests, channels, masters, outputs, and the output state; a re-trimmed pin begins its startup block. -/
def Device.noiseBlock (d : Device) (blocks : List (BitVec 1024)) : Device :=
  let (d1, ends) := (List.range 32).foldl (fun (a : Device × List BlockEnd) p =>
    let (d', e) := a.1.pinBlock p (nth blocks p 0)
    (d', a.2 ++ [e])) (d, [])
  let r (p : Nat) : BlockEnd := nth ends p .untested
  let (d2, outs) := (List.range 14).foldl (fun (a : Device × List (Nat × Nat)) c =>
    let (p1, p2) := chanPins c
    let (d', o) := a.1.chanBlock c (r p1) (r p2)
    (d', match o with
      | some p => a.2 ++ [(c, p)]
      | none => a.2)) (d1, [])
  let d3 := (List.range 4).foldl (fun d m => if r (8 * m) = .passed then d.setPin (8 * m) .active else d) d2
  let passed := (List.range 4).filter fun m => r (8 * m) = .passed
  let d4 := d3.onNs fun n => { n.record blocks with masters := passed.map fun m => (m, conditioned (nth blocks (8 * m) 0)) }
  let d5 := d4.stopDue
  let d6 := d5.onNs fun n => (n.rotation outs).foldl (fun n o => n.output o.1 (conditioned (nth blocks o.2 0))) n
  let d7 := d6.onNs fun n => { n with pins := n.pins.zipIdx.map fun e =>
    if e.1.state == .restarting && e.1.trimmed && !d6.recalPaused e.2 then { e.1 with startup := true, trimmed := false } else e.1 }
  d7.nsEval

/-- Sampling runs: the housekeeping PLL is locked and the block is not in reset (R295, R299). -/
def Device.sampling (d : Device) : Bool := d.power.hkPll && !d.fc.resets.contains .entropy

/-- NOISE_BLOCK_END (R283). -/
def execNoiseBlockEnd (blocks : List (BitVec 1024)) (s : State) : Host.Outcome State Fault Refusal :=
  run s (s.dev.sampling && blocks.length == 32) (s.dev.noiseBlock blocks)

/-- PIN_RETRIM_DONE (R284): the startup block begins at the next boundary. -/
def execPinRetrimDone (p : Nat) (s : State) : Host.Outcome State Fault Refusal :=
  let x := s.dev.ns.pin p
  run s (s.dev.sampling && p < 32 && x.state == .restarting && !x.trimmed && !x.startup)
    (s.dev.onNs fun n => n.onPin p fun x => { x with trimmed := true })

/-- The DRBG whose turn it is in a region's rotation (R288). -/
def Entropy.nextDrbg (n : Entropy) (internal : Bool) : Option Nat :=
  let base := if internal then 48 else 0
  let count := if internal then 16 else 48
  let rot := if internal then n.rotInternal else n.rotWindow
  ((List.range count).map fun i => base + (rot - base + i) % count).find? fun g => !(nth n.drbgs g {}).stopped

/-- The next DRBG can serve a generate request into 16 free lines (R288). -/
def Device.canGenerate (d : Device) (internal : Bool) : Bool :=
  let n := d.ns
  !n.notReady && (if internal then n.internal.length + 16 ≤ 256 else n.window.length + 16 ≤ 768) &&
  (match n.nextDrbg internal with
  | some g => let x := nth n.drbgs g {}; x.inst && !x.due
  | none => false)

/-- The prefetch register of module m (R290). -/
def Entropy.pre (n : Entropy) (m : Nat) : Option Bytes := if m = 1 then n.pre1 else n.pre0

/-- The entropy block with a prefetch register set. -/
def Entropy.setPre (n : Entropy) (m : Nat) (line : Option Bytes) : Entropy :=
  if m = 1 then { n with pre1 := line } else { n with pre0 := line }

/-- An empty prefetch register takes the next window line (R290). -/
def Entropy.prefetchOne (n : Entropy) (m : Nat) : Entropy :=
  match n.pre m, n.window with
  | none, x :: r => { n.setPre m (some x) with window := r }
  | _, _ => n

/-- Both prefetch registers take their lines, that of the oldest held read first (R289, R290). -/
def Entropy.prefetch (n : Entropy) : Entropy :=
  match n.held with
  | (1, _) :: _ => (n.prefetchOne 1).prefetchOne 0
  | _ => (n.prefetchOne 0).prefetchOne 1

/-- 16 lines of one generate request in their region (R288, R289). -/
def Entropy.fill (n : Entropy) (internal : Bool) (bs : Bytes) : Entropy :=
  let new := (List.range 16).map fun i => slice bs (64 * i) 64
  if internal then { n with internal := n.internal ++ new } else { n with window := n.window ++ new }.prefetch

/-- DRBG_GENERATE (R288, R289): 16 lines more; hinge work that waits for internal lines is served, then turns. -/
def Device.generate (d : Device) (internal : Bool) : Device :=
  match d.ns.nextDrbg internal with
  | none => d
  | some g =>
    let base := if internal then 48 else 0
    let count := if internal then 16 else 48
    let next := base + (g - base + 1) % count
    let (bs, x) := (nth d.ns.drbgs g {}).generate
    let d1 := d.onNs fun n => { n.fill internal bs with drbgs := modifyAt n.drbgs g fun _ => x,
                                                        rotWindow := if internal then n.rotWindow else next,
                                                        rotInternal := if internal then next else n.rotInternal }
    let d2 := if internal then d1.hingePoll.serveDraws else d1
    d2.nsEval

/-- DRBG_GENERATE (R288). -/
def execDrbgGenerate (internal : Bool) (s : State) : Host.Outcome State Fault Refusal :=
  run s (s.dev.canGenerate internal) (s.dev.generate internal)

/-! ### Root material (R285, R286) -/

/-- Root material can be formed: every master pin passed its block of the last period, and none is restarting or captured (R286). -/
def Entropy.rootReady (n : Entropy) : Bool :=
  n.masters.length == 4 && (List.range 4).all fun m => (n.pin (8 * m)).state == .active

/-- Root material (R286): SHA3-256 of the four outputs of one block period, pin 0 first. -/
def Entropy.rootMaterial (n : Entropy) : Bytes := hash 5 (n.masters.foldr (fun e r => e.2 ++ r) [])

/-- ROOT_MATERIAL_REQUEST (R285, R286): the four conditioned outputs are combined by SHA3-256 for the requester. While root key
generation is blocked the requester gets ENTROPY_UNAVAILABLE and no material. -/
def Device.rootRequest (d : Device) : Device :=
  if d.ns.rootBlocked then
    let d1 := d.onNs fun n => { n with rootWanted := false }
    match d.kw.cmd.job with
    | some x => if x.op = 1 && x.phase == .waiting then d1.finish .keyway St.entropyUnavailable else d1
    | none => d1
  else d.onNs fun n => { n with root := some n.rootMaterial, rootWanted := false }

/-! ### Waiting consumers -/

/-- ENTROPY_READY_TIMEOUT (R295, R299): source 1384. -/
def execEntropyReadyTimeout (s : State) : Host.Outcome State Fault Refusal :=
  run s (!s.dev.ns.timedOut && s.dev.ns.state != .ready && s.dev.power.rstN)
    ((s.dev.onNs fun n => { n with timedOut := true }).raiseSrc 1384)

/-- The waiting instruction ends at the next edge (R296). -/
def Device.waitOver (d : Device) (slot : Nat) : Bool :=
  match Map.get? d.turns slot with
  | some t => t.phase == .waitEntropy && t.op.isNone && t.due.isNone &&
      (d.ns.state == .failed || (d.ns.notReady && max 1 d.ns.waitLimit * 4096 ≤ (d.sc.beat + 2 ^ 48 - t.entropyWait) % 2 ^ 48))
  | none => false

/-- ENTROPY_WAIT_EXPIRY (R296). -/
def execEntropyWaitExpiry (slot : Nat) (s : State) : Host.Outcome State Fault Refusal :=
  run s (s.dev.waitOver slot) (s.dev.onTurn slot fun t => t.setDue St.entropyUnavailable)

/-- A line of a prefetch register is served (R289, R290): the register takes the next one. -/
def Entropy.serveLine (n : Entropy) (m : Nat) : Entropy := { n.setPre m none with lines := wrapAdd 48 n.lines 1 }.prefetch

/-- RANDOM_READ_RELEASE (R289, R291): the oldest held read of the module completes with a line, or with zeros if NOT_READY has become 1 while it
was held. -/
def Device.releaseRead (d : Device) (m : Nat) : Option Device :=
  match d.ns.held.find? fun h => h.1 == m with
  | none => none
  | some h =>
    let d1 := d.onNs fun n => { n with held := n.held.erase h }
    if d.ns.notReady || h.2.2 = 0 then some (d1.emit (.readData 0))
    else match d.ns.pre m with
      | some line => some ((d1.onNs fun n => n.serveLine m).emit (.readData (leNat (line.take h.2.2))))
      | none => none

/-- RANDOM_READ_RELEASE (R291). -/
def execRandomReadRelease (m : Nat) (s : State) : Host.Outcome State Fault Refusal :=
  run s (s.dev.releaseRead m).isSome ((s.dev.releaseRead m).getD s.dev)

/-! ### Pins leaving their channel: maintenance and raw captures (R297, R298, R400) -/

/-- An ordinary pin stops serving its channel: an active one switches to its standby as a failure would, or the channel goes offline. -/
def Device.leaveChan (d : Device) (p : Nat) : Device :=
  if isMaster p then d
  else
    let (c, _) := chanOf p
    let (a, b) := d.ns.active c
    if !(d.ns.chan c).online || a ≠ p || (d.ns.pin p).state != .active then d
    else if (d.ns.pin b).state = .standby then d.chanSwitch c
    else d.chanDown c

/-- A pin restarts (R284): re-trim, then a startup block. -/
def Device.restartPin (d : Device) (p : Nat) : Device :=
  d.onNs fun n => n.onPin p fun x => { x with state := .restarting, trimmed := false, startup := false, run := 0 }

/-- PIN_RECAL of an ordinary pin (R298, R400). -/
def Device.recalPin (d : Device) (p : Nat) : Device := ((d.leaveChan p).restartPin p).nsEval

/-- PIN_RETIRE of an ordinary pin (R400). -/
def Device.retirePin (d : Device) (p : Nat) : Device := ((d.leaveChan p).setPin p .retired).nsEval

/-- RAW_CAPTURE_START (R297): the state becomes RAW, the output stops, and the pin leaves its channel. -/
def Device.rawStart (d : Device) (p : Nat) : Device :=
  let d1 := d.leaveChan p
  let d2 := d1.onNs fun n => { n with rawWait := none, rawPin := p, rawActive := true, rawDone := false, raw := [],
                                      rawPrev := (d.ns.pin p).state }
  ((d2.setPin p .raw).nsGo .raw).raiseSrc 1383

/-- RAW_CAPTURE_START (R297): at the first boundary in READY or LOW, below stage 3 (R403). -/
def execRawCaptureStart (s : State) : Host.Outcome State Fault Refusal :=
  match s.dev.ns.rawWait with
  | some p => run s (!s.dev.ns.notReady && s.dev.sampling && s.dev.power.applied < 3) (s.dev.rawStart p)
  | none => run s false s.dev

/-- RAW_CAPTURE_END (R297): RAW_DONE; the pin restarts, but one that was HELD or RETIRED stays so (R285, R400); the output is
reinstantiated once two channels are online (R293). -/
def Device.rawEnd (d : Device) : Device :=
  let p := d.ns.rawPin
  let keep := d.ns.rawPrev == .held || d.ns.rawPrev == .retired
  let d1 := if keep then d.setPin p d.ns.rawPrev else d.restartPin p
  let d2 := (d1.onNs fun n => { n with rawActive := false, rawDone := true }).nsEvt 0x200
  (d2.nsGo .stopped).nsEval

/-- RAW_CAPTURE_END (R297). -/
def execRawCaptureEnd (s : State) : Host.Outcome State Fault Refusal := run s s.dev.ns.rawActive s.dev.rawEnd

/-- Raw samples may be taken and read (R297, R320): RAW_NOISE, or Maker or Integrator. -/
def Device.rawAllowed (d : Device) : Bool := d.right 4 || d.hasp == 0 || d.hasp == 2

/-- Debug access without the right (R333). -/
def Device.denied (d : Device) : Device := (d.hsEvt 0x20).raiseSrc 1492

/-- The word of NS_RAW_DATA (R297): zero where no bit has been captured since the buffer was zeroised. -/
def Entropy.rawData (n : Entropy) : Nat := field (n.raw.getD (n.rawAddr / 32) 0).toNat (32 * (n.rawAddr % 32)) 32

/-- A read that reaches NS_RAW_DATA (R297, R300, R333): its value, and the device after it. -/
def Device.rawCore (d : Device) : Nat × Device :=
  if !d.rawAllowed then (0, d.denied) else (d.ns.rawData, d.onNs fun n => { n with rawAddr := (n.rawAddr + 1) % 2 ^ 18 })

/-- NS_RAW_DATA_READ (R297, R300): the word, and WORD advances; without the right the read returns 0 (R333). -/
def Device.rawRead (d : Device) : Device :=
  if !d.serves 0 then d.unserved 0
  else if d.shackled || d.scrapped || d.mc.romOnly || d.fc.resets.contains .entropy then d.emit (.readData 0)
  else d.rawCore.2.emit (.readData d.rawCore.1)

/-- NS_RAW_DATA_READ (R300). -/
def execNsRawDataRead (s : State) : Host.Outcome State Fault Refusal := run s true s.dev.rawRead

/-! ### Mask and blinding generators (R209, R252, R260) -/

/-- A generator. -/
def Device.maskGen (d : Device) : GenId → MaskGen
  | .tumbler n => (d.tumbler n).mask
  | .bolt n => (d.bolt n).mask
  | .bank => d.bb.mask

/-- The device with a generator changed. -/
def Device.onGen (d : Device) (g : GenId) (f : MaskGen → MaskGen) : Device :=
  match g with
  | .tumbler n => d.onTu n fun e => { e with mask := f e.mask }
  | .bolt n => d.onBo n fun e => { e with mask := f e.mask }
  | .bank => { d with bb := { d.bb with mask := f d.bb.mask } }

/-- The generator exists. -/
def genExists : GenId → Bool
  | .tumbler n => n < 32
  | .bolt n => n < 16
  | .bank => true

/-- Beats since a reseed became due. -/
def MaskGen.overdue (g : MaskGen) (beat : Nat) : Nat := if met beat g.due then (beat + 2 ^ 48 - g.due) % 2 ^ 48 else 0

/-- Bytes of a seed: 256 bits (R209, R252, R260). -/
def seedBytes : Nat := 32

/-- A generator with a fresh seed (R209, R252, R260). The first seed is not counted as a reseed. -/
def MaskGen.reseed (g : MaskGen) (beat : Nat) (seed : Bytes) : MaskGen :=
  { seeded := true, seed := seed, ctr := 0, starved := false, due := (beat + 4096) % 2 ^ 48, reseeds := satAdd 16 g.reseeds (b2n g.seeded) }

/-- MASK_RESEED (R209, R289): a fresh seed from the internal region; while none can be served the reseed stays due. What waits behind it is looked
at again. -/
def execMaskReseed (gen : GenId) (s : State) : Host.Outcome State Fault Refusal :=
  let g := s.dev.maskGen gen
  run s (genExists gen && s.dev.canDraw seedBytes && (!g.seeded || g.starved || met s.dev.sc.beat g.due))
    ((s.dev.takeLines seedBytes).onGen gen fun g => g.reseed s.dev.sc.beat (s.dev.ns.lineBytes seedBytes)).hingePoll.serveDraws

/-- The generator is starved (R209, R252, R260). -/
def Device.starve (d : Device) (gen : GenId) : Device :=
  let d1 := d.onGen gen fun g => { g with starved := true }
  match gen with
  | .tumbler n => (d1.tuEvt n 0x8).raiseSrc (24 * n + 6)
  | .bolt n => (d1.boEvt n 0x8).raiseSrc (768 + 12 * n + 9)
  | .bank => ({ d1 with bb := { d1.bb with evt := d1.bb.evt ||| 4 } } : Device).raiseSrc 1001

/-- MASK_STARVED (R209): 65,536 beats after the due beat with no reseed. -/
def execMaskStarved (gen : GenId) (s : State) : Host.Outcome State Fault Refusal :=
  let g := s.dev.maskGen gen
  run s (genExists gen && g.seeded && !g.starved && 65536 ≤ g.overdue s.dev.sc.beat) (s.dev.starve gen)

end Sys2Proof.Machine
end

