-- ==== Sys2Proof/Machine/NvCore.lean ====
section
/-! DEFINITION. The counter journal (R368 to R377): its records, the values that a commit changes, and its lines with copy-forward. -/

namespace Sys2Proof.Machine

/-! ### Records (R368, R369) -/

/-- One bit of the CRC-32C register. -/
def crc32cBit (r : Nat) : Nat := if r % 2 = 1 then (r / 2) ^^^ 0x82F63B78 else r / 2

/-- CRC-32C of a byte string (R369, R379; the Castagnoli polynomial, PRESUMED from its standard name). -/
def crc32c (bs : Bytes) : Nat :=
  (bs.foldl (fun r b => (List.range 8).foldl (fun r _ => crc32cBit r) (r ^^^ b.toNat)) 0xFFFFFFFF) ^^^ 0xFFFFFFFF

/-- The body of a record, bytes 0 to 47 of its line (R369). -/
def JRec.body (r : JRec) : Bytes :=
  leBytes r.seq 6 ++ leBytes r.kind 1 ++ leBytes (b2n r.copy + 2 * b2n r.second) 1 ++ leBytes r.index 2 ++ zeros 2 ++ leBytes r.value 8 ++
  leBytes r.gen 4 ++ leBytes (b2n r.live) 1 ++ zeros 15 ++ leBytes r.hwm 8

/-- The line of a record, with its seal (R369). -/
def JRec.bytes (r : JRec) : Bytes :=
  let b := r.body ++ leBytes r.hwm 8 ++ leBytes r.seq 4
  b ++ leBytes (crc32c b) 4

/-- The record of a leaf (R368): TYPE 0x01. -/
def leafRecord (l cut gen : Nat) (live : Bool) : JRec := { kind := 1, index := l, value := cut, gen := gen, live := live }

/-- The two records of a duplex counter under the keys `k` and `k + 1` (R368, R369). -/
def duplexRecords (k kind index value : Nat) : List (Option Nat × JRec) :=
  [(some k, { kind := kind, index := index, value := value }), (some (k + 1), { kind := kind, index := index, value := value, second := true })]

/-- The counter of a leaf after a commit (R59): never below the one it has. -/
def Nv.raised (n : Nv) (l c : Nat) : Nat := max (c % 2 ^ 64) (Map.getD n.cuts l 0)

/-- The journal records that a commit writes, each with the counter whose latest record it is (R368): the skip marker names none, and a sealed
blob writes no journal line. -/
def Nv.records (n : Nv) : CommitVal → List (Option Nat × JRec)
  | .cut l v => [(some l, leafRecord l (v % 2 ^ 64) (Map.getD n.gens l 0) (n.lives.contains l))]
  | .leafGen l g alive c => [(some l, leafRecord l (n.raised l c) g alive)]
  | .bootCount v => [(some 4096, { kind := 2, value := min v (2 ^ 32 - 1) })]
  | .fwVersion v => duplexRecords 4097 3 0 v
  | .patchVersion c v => duplexRecords (4099 + 2 * c) 4 c v
  | .epoch v => duplexRecords 4107 5 0 v
  | .skipMarker => [(none, { kind := 6 })]
  | .intkeys _ => []
  | .clear => []

/-! ### Lines (R373) -/

/-- Puts a record at the head of the ring as the next SEQ; its HWM takes in its own counter (R369, R373). -/
def Nv.put (n : Nv) (key : Option Nat) (r : JRec) : Nv :=
  let s := (n.seq + 1) % 2 ^ 48
  let h := if r.kind = 1 then max n.hwm r.value else n.hwm
  { n with seq := s, hwm := h, journal := Map.set n.journal (s % 65536) { r with seq := s, hwm := h }, jidx := match key with
    | some k => Map.set n.jidx k s
    | none => n.jidx }

/-- The latest record of a counter, as a copy (R373). -/
def Nv.copyOf (n : Nv) (k : Nat) : JRec :=
  { Map.getD n.journal (Map.getD n.jidx k 0 % 65536) { kind := 0 } with copy := true }

/-- Copy-forward (R373): while the line after the head holds the latest record of a counter, a copy of it is first written at the head. -/
def Nv.copyForward : Nat → Nv → Nv
  | 0, n => n
  | fuel + 1, n =>
    let after := (n.seq + 2) % 65536
    match n.jidx.find? fun e => e.2 % 65536 == after with
    | none => n
    | some (k, _) => Nv.copyForward fuel { n.put (some k) (n.copyOf k) with bucket := n.bucket - 32 }

/-- One journal line (R373). -/
def Nv.line (n : Nv) (key : Option Nat) (r : JRec) : Nv := (n.copyForward 4200).put key r

/-- Fills the group that the head stands in with copies of the latest record of a counter (R366, R368; log entry 105). -/
def Nv.fillGroup (k : Nat) : Nat → Nv → Nv
  | 0, n => n
  | fuel + 1, n =>
    if (n.seq + 1) % 8 = 0 then n else Nv.fillGroup k fuel (({ n with bucket := n.bucket - 32 } : Nv).line (some k) (n.copyOf k))

/-- The next line of a commit: the second record of a duplex pair goes into another group than the first, and draws on the budget too (R368, R372). -/
def Nv.commitLine (n : Nv) (key : Option Nat) (r : JRec) : Nv :=
  if r.second then
    let m := n.fillGroup (key.getD 1 - 1) 8
    ({ m with bucket := m.bucket - 32 } : Nv).line key r
  else n.line key r

/-- The lines of a commit (R368, R373). -/
def Nv.lines (n : Nv) (ks : List (Option Nat × JRec)) : Nv := ks.foldl (fun m k => m.commitLine k.1 k.2) n

/-- Every live record is copied forward (R373). -/
def Nv.compact (n : Nv) : Nv := (n.jidx.map Prod.fst).foldl (fun m k => m.line (some k) (m.copyOf k)) n

/-- The boot scan loses the record with a SEQ (R375): the counter of a leaf as the other records give it. -/
def Nv.recovered (n : Nv) (lost l : Nat) : Nat :=
  if Map.getD n.jidx l 0 = lost then
    (n.journal.filter fun e => e.2.kind == 1 && e.2.index == l && e.2.seq != lost).foldl (fun h e => max h e.2.value) 0
  else Map.getD n.cuts l 0

/-- The highest HWM among the recovered records and readable seals (R375); `sealed` says that the seal of the lost record can be read. -/
def Nv.highest (n : Nv) (lost : Nat) (sealed : Bool) : Nat :=
  (n.journal.filter fun e => sealed || e.2.seq != lost).foldl (fun h e => max h e.2.hwm) 0

/-! ### Commits (R370, R377) -/

/-- A commit would lower a counter that only rises (R377). -/
def Device.lowers (d : Device) : CommitVal → Bool
  | .fwVersion n => n < d.nv.fwVer
  | .patchVersion c n => n < nth d.nv.patchVer c 0
  | .epoch n => n < d.kw.epoch
  | _ => false

/-- The value takes effect: the SRAM value and the index are updated (R370). -/
def Device.applyCommit (d : Device) (v : CommitVal) : Device :=
  let d1 : Device := { d with nv := d.nv.lines (d.nv.records v) }
  match v with
  | .cut l n => { d1 with nv := { d1.nv with cuts := Map.set d1.nv.cuts l (n % 2 ^ 64) } }
  | .leafGen l g alive c =>
    let lives := if alive then insertNew d1.nv.lives l else d1.nv.lives.filter (· != l)
    { d1 with nv := { d1.nv with gens := Map.set d1.nv.gens l g, cuts := Map.set d1.nv.cuts l (d.nv.raised l c), lives := lives } }
  | .bootCount n => { d1 with hs := { d1.hs with boot := min n (2 ^ 32 - 1) } }
  | .fwVersion n => { d1 with nv := { d1.nv with fwVer := n } }
  | .patchVersion c n => { d1 with nv := { d1.nv with patchVer := modifyAt d1.nv.patchVer c fun _ => n } }
  | .epoch n => { d1 with kw := { d1.kw with epoch := n } }
  | .intkeys bs => { d1 with hs := { d1.hs with intkeys := bs } }
  | .skipMarker => { d1 with nv := { d1.nv with skips := satAdd 16 d1.nv.skips 1 } }
  | .clear => d1

/-- A commit at once, for the boot steps that finish before the first access (R40, R77, R329). -/
def Device.commitNow (d : Device) (v : CommitVal) : Device := if d.lowers v then d else d.applyCommit v

/-- The budget refilled up to now (R372): 1,024 × (RATE + 1) commits a second are (RATE + 1) ÷ 32 commits a tick. -/
def Device.refill (d : Device) : Device :=
  let n := d.nv
  let ticks := (d.aon.rtc + 2 ^ 48 - n.bucketAt) % 2 ^ 48
  { d with nv := { n with bucket := min 2097152 (n.bucket + ticks * (n.rate + 1)), bucketAt := d.aon.rtc } }

/-- The NV controller after CHIP reset: what MRAM holds stays, the rest has its reset values (R370, R384). -/
def Nv.reset (n : Nv) (inhibit : Bool) : Nv :=
  { inhibit := inhibit, seq := n.seq, jidx := n.jidx, journal := n.journal, hwm := n.hwm, cuts := n.cuts, gens := n.gens, lives := n.lives, fwVer := n.fwVer, patchVer := n.patchVer,
    relocs := n.relocs, skips := n.skips, tailCut := n.tailCut, evl := n.evl, evHead := n.evHead, evSeq := n.evSeq, evWraps := n.evWraps, evPinned := n.evPinned }

end Sys2Proof.Machine
end

