-- ==== Sys2Proof/Machine/Reset.lean ====
section
/-! DEFINITION. Effective calibration values (R425 to R427), what a CHIP reset, a BLOCK reset and the shackle state do (R77, R197, R198,
R299, R353, R354, R359, R370, R417, R443, R453), and the ring frames of an alarm (R448, R450). -/

namespace Sys2Proof.Machine

/-! ### Calibration values -/

/-- Instances of a calibration item (R425); 0 for a reserved code. -/
def calInstances (code : Nat) : Nat := nth [32, 32, 32, 1, 8, 8, 2, 10, 1, 8, 8, 32, 10, 3, 2] code 0

/-- Items that may carry an overlay (R425). -/
def calOverlayed (code : Nat) : Bool := [0x02, 0x08, 0x0A, 0x0B, 0x0C].contains code

/-- The key of an instance. -/
def calKey (code inst : Nat) : Nat := code * 64 + inst

/-- The nominal value of an item (R418, R347; for the others a value of the part, log entry 13). -/
def calNominal (code inst : Nat) : Bytes :=
  fit 32 (if code = 0x08 then leBytes 0x706A 2
    else if code = 0x0B then leBytes (nth tamperDefaults inst {}).cfg 4
    else Config.calFactory code inst)

/-- The factory value (R426, R427). -/
def Cal.factoryValue (c : Cal) (code inst : Nat) : Bytes :=
  match Map.get? c.factory (calKey code inst) with
  | some r => fit 32 r.value
  | none => calNominal code inst

/-- The effective value: the overlay if present, else the factory value (R427). -/
def Cal.effective (c : Cal) (code inst : Nat) : Bytes :=
  match Map.get? c.overlay (calKey code inst) with
  | some r => fit 32 r.value
  | none => c.factoryValue code inst

/-- The line of a record copy (R426). -/
def calLine (overlay : Bool) (k copy : Nat) : Nat := b2n overlay * 4096 + 2 * k + copy

/-- The copy of a record that a reader takes (R426): of two that can be read, the one whose SEQ is higher. -/
def Cal.copyOf (c : Cal) (overlay : Bool) (k : Nat) : Option (Nat × CalLine) :=
  match Map.get? c.lines (calLine overlay k 0), Map.get? c.lines (calLine overlay k 1) with
  | some a, some b => if a.seq < b.seq then some (1, b) else some (0, a)
  | some a, none => some (0, a)
  | none, some b => some (1, b)
  | none, none => none

/-- A record is written to the copy that is not in force, with SEQ + 1 (R426); the first one to copy 0 with SEQ 1 (DESIGN CHOICE, log entry 13). -/
def Cal.write (c : Cal) (overlay : Bool) (k : Nat) (valid : Bool) (v : Bytes) : Cal :=
  let (copy, seq) := match c.copyOf overlay k with
    | some (i, x) => (1 - i, x.seq + 1)
    | none => (0, 1)
  { c with lines := Map.set c.lines (calLine overlay k copy) { seq := seq, valid := valid, value := fit 32 v } }

/-- A line that cannot be read (R426, R427): where it was in force, the other copy is, or none. -/
def Cal.loseLine (c : Cal) (overlay : Bool) (line : Nat) : Cal :=
  let k := line / 2
  let c1 := { c with lines := Map.erase c.lines (calLine overlay k (line % 2)), factoryBad := c.factoryBad || !overlay,
                     overlayBad := c.overlayBad || overlay }
  let spare := match c.copyOf overlay k with
    | some (i, _) => i != line % 2
    | none => false
  if spare then c1
  else
    let next := (c1.copyOf overlay k).filter fun x => x.2.valid
    let put (m : Map CalRec) : Map CalRec := match next with
      | some x => Map.set m k { value := x.2.value }
      | none => Map.erase m k
    if overlay then { c1 with overlay := put c.overlay }
    else { c1 with factory := put c.factory, lost := if next.isSome then c.lost else insertNew c.lost k }

/-- The bytes of a line (R426). -/
def CalLine.bytes (x : CalLine) (k : Nat) : Bytes :=
  let b := leBytes (k / 64) 2 ++ leBytes (k % 64) 1 ++ leBytes (b2n x.valid) 1 ++ leBytes x.seq 4 ++ fit 32 x.value ++ zeros 20
  b ++ leBytes (crc32c b) 4

/-- The thermal limits come into force (R430). -/
def Device.loadThermal (d : Device) : Device :=
  let v := d.ca.effective 0x08 0
  { d with power := { d.power with warn := u8 v 0, crit := u8 v 1 } }

/-- The cutoffs of the health tests come into force (R283, R425): a stored factory record, whose bytes 0 to 3 are the NS_TEST word (DESIGN CHOICE
of the layout, log entry 13), else the nominal values of R283 (R427). -/
def Device.loadCutoffs (d : Device) : Device :=
  match Map.get? d.ca.factory (calKey 0x03 0) with
  | some r => d.onNs fun n => { n with test := u32 r.value 0 / 256 * 256 }
  | none => d.onNs fun n => { n with test := 0x60CB7D00 }

/-! ### Rails -/

/-- Every main rail is good (R408, R409). -/
def Power.railsGood (p : Power) : Bool := p.core && p.sram && p.ucie && p.io && !p.off

/-- The device is held in reset no longer: rails good, RST_N high, the thermal trip left (R409, R417, R419, R443). -/
def Power.released (p : Power) : Bool := p.railsGood && p.rstN && p.thermal != 4 && p.sensed != 4

/-! ### The entropy block restarts (R299) -/

/-- The entropy block as a reset leaves it; with `keep` a HELD or RETIRED pin stays so, and so do LOCK and WAIT_LIMIT (R20, R299). -/
def Entropy.restart (n : Entropy) (keep : Bool) : Entropy :=
  { waitLimit := if keep then n.waitLimit else 0x40, lock := keep && n.lock, test := n.test, rootWanted := keep && n.rootWanted,
    pins := n.pins.map fun p => if keep && (p.state == .held || p.state == .retired) then { state := p.state } else {},
    held := if keep then n.held else [], rootBlocked := n.rootBlocked }

/-! ### CHIP reset -/

/-- The code of FC_CAUSE.LAST_RESET (R363). -/
def resetCode : ResetCause → Nat
  | .powerUp => 0
  | .rstN => 1
  | .collector => 2
  | .stage4 => 3

/-- Whether the commit under way completes at a reset: MRAM writes are not inhibited (R370). -/
def Device.settleCommit (d : Device) : Device :=
  match d.nv.current with
  | some c => if 685 ≤ d.power.mv then d.commitNow c.val else d
  | none => d

/-- The tamper block after a reset: everything held in the always-on island stays (R342, R420). -/
def Tamper.reset (t : Tamper) : Tamper := { t with lock := false, rekeyWanted := false, evt := 0, wardLast := 0 }

/-- The collector after a reset: the always-on record and raises not yet synchronised stay (R356, R357, R360, R363). -/
def Collector.reset (c : Collector) (cause : Nat) : Collector :=
  { sticky := c.sticky, incoming := c.incoming, firstValid := c.firstValid, first := c.first, cause := cause, causeSrc := c.causeSrc,
    shackled := c.shackled, shValid := c.shValid, shSrc := c.shSrc }

/-- CHIP reset (R353, R370, R443): leaves, turns and every volatile value are lost; fuses, MRAM, the always-on island, held rights and, but
for a power cycle, the blocking of root material stay (R285), and the pass path closes (R453). -/
def Device.chipReset (d : Device) (cause : ResetCause) : Device :=
  let d0 := d.settleCommit
  let p := d0.power
  let p1 : Power := { off := p.off, core := p.core, sram := p.sram, ucie := p.ucie, io := p.io, vbatOk := p.vbatOk, vbat := p.vbat, mv := p.mv,
                      sensed := p.sensed, applied := p.sensed, thermal := if p.thermal = 4 then 4 else 0, rstN := p.rstN }
  let d1 : Device :=
    { perm := d0.perm,
      power := { p1 with boot := b2n p1.released },
      ns := { d0.ns.restart false with rootBlocked := d0.ns.rootBlocked && cause != .powerUp },
      kw := { epoch := d0.kw.epoch, cert := d0.kw.cert, blob := d0.kw.blob, blobBad := d0.kw.blobBad, digest := d0.kw.digest, pubs := d0.kw.pubs },
      hs := { rights := d0.hs.rights, boot := d0.hs.boot, intkeys := d0.hs.intkeys },
      tp := d0.tp.reset,
      fc := d0.fc.reset (resetCode cause),
      nv := d0.nv.reset (p.mv < 685),
      vault := d0.vault,
      mc := { verA := d0.mc.verA, verB := d0.mc.verB, classes := d0.mc.classes.map fun c => { verA := c.verA, verB := c.verB, secA := c.secA, secB := c.secB } },
      ca := { factory := d0.ca.factory, overlay := d0.ca.overlay, lines := d0.ca.lines, erased := d0.ca.erased, lost := d0.ca.lost,
              factoryBad := d0.ca.erased || !d0.ca.lost.isEmpty },
      jt := d0.jt, aon := d0.aon, out := d0.out, fresh := d0.fresh }
  d1.loadThermal.loadCutoffs

/-! ### Ring frames (R448) -/

/-- A frame: type, destination, sender, hops left, payload, and the CRC over them. -/
def ringFrame (ty dest src hop : Nat) (payload : Bytes) : Bytes :=
  let b := leBytes ty 1 ++ leBytes dest 1 ++ leBytes src 1 ++ leBytes hop 1 ++ leBytes payload.length 1 ++ payload
  b ++ beBytes (crc16 b) 2

/-- The node's address: 0x00 and 0xFF act as 0x10 (R458). -/
def Ring.node (r : Ring) : Nat := if r.addr = 0 ∨ r.addr = 0xFF then 0x10 else r.addr

/-- The ALARM frame of a level (R450). -/
def Device.alarmFrame (d : Device) (level : Nat) : Bytes :=
  ringFrame 0x01 0xFF d.lr.node 16 (leBytes level 1 ++ leBytes d.fc.first 2)

/-- An own frame joins the queue; ALARM frames go ahead of RESPONSE frames (R449). -/
def Ring.queueOwn (r : Ring) (alarm : Bool) (f : Bytes) : Ring :=
  if alarm then
    let isAlarm (x : Bytes) : Bool := u8 x 0 == 1
    { r with own := r.own.filter isAlarm ++ [f] ++ r.own.filter fun x => !isAlarm x }
  else { r with own := r.own ++ [f] }

/-- ALIVE stops and, with TOKEN_EN, the alarm is sent (R358, R450). -/
def Device.stopAlive (d : Device) (level : Nat) : Device :=
  let d1 : Device := { d with fc := { d.fc with alive := false, aliveStopped := true } }
  if d.lr.tokenEn then { d1 with lr := { (d1.lr.queueOwn true (d.alarmFrame level)) with alarmActive := true } } else d1

/-! ### BLOCK reset (R354) -/

/-- The blocks that a BLOCK reaction of a source resets (R354). -/
def blocksOf (s : Nat) : List BlockId :=
  if s < 768 then [.tumbler (s / 24)]
  else if s < 960 then [.bolt ((s - 768) / 12)]
  else if s < 1024 then [.bank]
  else if s < 1088 then [.blockArray]
  else if s < 1120 then [.digest]
  else if 1184 ≤ s ∧ s < 1216 then [.link ((s - 1184) / 16), .dma ((s - 1184) / 16)]
  else if 1216 ≤ s ∧ s < 1232 then [.link ((s - 1216) / 8), .dma ((s - 1216) / 8)]
  else if 1248 ≤ s ∧ s < 1280 then [.sched]
  else if 1328 ≤ s ∧ s < 1392 then [.entropy]
  else if 1456 ≤ s ∧ s < 1488 then [.mgmt]
  else []

/-- Aborts the turns that a condition names at the next edge (R117). -/
def Device.abortTurns (d : Device) (s : Status) (p : Turn → Bool) : Device :=
  { d with turns := Map.mapVals d.turns fun _ t => if t.ending.isNone && p t then t.setDue s else t }

/-- The turn holds an engine that a condition names. -/
def Turn.holdsAny (t : Turn) (p : EngineId → Bool) : Bool :=
  match t.op with
  | some o => o.engines.any p
  | none => false

/-- The turn has its home, its stroke or its operation's frame on a home engine (R198). -/
def Turn.onEngine (t : Turn) (e : EngineId) : Bool :=
  (t.home.any fun n => homeId t.bolt n == e) || t.holds e || (t.op.any fun o => o.unit == some e)

/-- A home engine is reset or retired (R65, R198, R258, R397): every turn on it is aborted with ENGINE_RESET, and hinge work on it loses its
working state. -/
def Device.abortOn (d : Device) (e : EngineId) : Device :=
  (d.abortTurns St.engineReset fun t => t.onEngine e).failWork fun x => x.unit == some e || x.inStroke == some e

/-- A home engine after a BLOCK reset (R198): its registers, its generator and its whole store are zero. -/
def Engine.reset (e : Engine) : Engine :=
  { retired := e.retired, parked := e.parked, stopped := e.stopped, failed := e.failed, sect := e.sect, inReset := true }

/-- A shared array after a BLOCK reset. -/
def Array'.reset (a : Array') : Array' :=
  { stopped := a.stopped, outA := a.outA, outB := a.outB, sect := a.sect, inReset := true }

/-- A BLOCK reset of one block (R25, R27, R198, R254, R299, R354): its registers take their reset values, and the turns on it are
aborted. A module that was up then retrains, which is counted and raises its source (R43, R56, R57); UL_MOD_CTL takes its reset value, which
enables a disabled module again (R25): it stands where NO_PARTNER_TIMEOUT or the partner's sideband find it (DESIGN CHOICE, log entry 96). -/
def Device.resetOne (d : Device) (b : BlockId) : Device :=
  match b with
  | .tumbler n => (d.abortOn (.tumbler n)).onTu n Engine.reset
  | .bolt n => (d.abortOn (.bolt n)).onBo n Engine.reset
  | .bank =>
    { d.abortTurns St.engineReset fun t => t.holdsAny (fun e => match e with
        | .plainBarrel _ | .maskedBarrel _ => true
        | _ => false) with bb := d.bb.reset }
  | .blockArray =>
    { d.abortTurns St.engineReset fun t => t.holdsAny (fun e => match e with
        | .aes _ | .mult _ => true
        | _ => false) with bk := d.bk.reset }
  | .digest =>
    { d.abortTurns St.engineReset fun t => t.holdsAny (fun e => match e with
        | .sha256 _ | .sha512 _ => true
        | _ => false) with
        dg := d.dg.reset, slots := { d.slots with sel := 0, base := 0, count := 0, refused := false, pend := none } }
  | .sched =>
    let c := d.sc
    { d.abortTurns St.engineReset fun _ => true with
        sc := { beat := c.beat, beatB := c.beatB, tick := c.tick, lock := c.lock, gap := c.gap, blank := c.blank, nextStamp := c.nextStamp,
                nextFetch := c.nextFetch, fetchList := c.fetchList, entering := c.entering } }
  | .link m =>
    let up := d.linkUp m
    let d1 := d.onLink m fun k =>
      { state := if up then .retrain else if k.state = .disabled then .downNoPartner else k.state, partner := k.partner, wasUp := k.wasUp, msixEn := k.msixEn, mps := k.mps,
        cfg := k.cfg, retrains := b2n up }
    d1.when up (·.raiseSrc (1184 + 16 * m + 1))
  | .dma m => d.onDma m fun k => { nextTag := k.nextTag, reads := k.reads, writes := k.writes }
  | .entropy =>
    let d1 : Device := { d with ns := d.ns.restart true }
    { d1 with turns := Map.mapVals d1.turns fun _ t => if t.phase == .waitEntropy && !d.ns.notReady then { t with entropyWait := d.sc.beat } else t }
  | .mgmt => { d with mc := { d.mc with halted := false, healthy := false } }
  | .vaultHalf _ | .ring => d

/-- A BLOCK reset: the block is held in reset until its self-test has run (R27, R354). -/
def Device.blockReset (d : Device) (b : BlockId) : Device :=
  let d1 := d.resetOne b
  { d1 with fc := { d1.fc with resets := insertNew d1.fc.resets b } }

/-! ### The shackle state (R359) -/

/-- Every maintenance activity stops, and queue and tickets are emptied (R403). -/
def Device.stopActivities (d : Device) : Device :=
  { d with mi := { d.mi with queue := [], running := [], tickets := [], done := 0, cmd := { d.mi.cmd with job := none } },
           mc := { d.mc with pass := none, swapping := none }, hs := { d.hs with trans := none, wipeStep := 0, wipeTarget := 0 },
           ns := { d.ns with rawWait := none }, tp := { d.tp with rekeyWanted := false } }

/-- What leaves the die for turns is no longer issued (R359). -/
def Device.dropTraffic (d : Device) : Device :=
  let f (k : Dma) : Dma := { k with reads := [], writes := [] }
  (d.onDma 0 f).onDma 1 f

/-- A home engine's store is zeroised (R322, R359): nothing waits to be zeroised any more, and the blank area is not filled. -/
def Engine.emptied (e : Engine) : Engine := { e with blankData := none, dirtyBytes := 0, dirtyFrames := 0 }

/-- An evidence record that goes ahead of the shackle state's own or beside it (R344, R346, R375; log entry 77): a tamper trigger's, a backup
trigger's, and that of the forward skip. -/
def Evidence.stays (e : Evidence) : Bool := [1, 2, 8].contains e.kind

/-- What follows the entry to the shackle state (R359, R360): turns end with no record, stores, vault memory, the entropy output and the
identity keys are zeroised, and one evidence record is written. -/
def Device.enterShackle (d : Device) : Device :=
  let d1 : Device := { d with fc := { d.fc with shackled := true } }
  let d2 := (d1.stopAlive 3).stopActivities.dropTraffic
  let d3 : Device :=
    { d2 with turns := [], leaves := [], vault := [], slots := {}, tu := d2.tu.map Engine.emptied, bo := d2.bo.map Engine.emptied,
              sc := { d2.sc with plan := [], fetchList := [], entering := [] },
              hg := { d2.hg with cmd := { d2.hg.cmd with job := none }, blobs := [] },
              kw := { d2.kw with cmd := { d2.kw.cmd with job := none }, valid := false, root := [], seeds := [] },
              hs := { d2.hs with cmd := { d2.hs.cmd with job := none } },
              nv := { d2.nv with queue := [], evq := d2.nv.evq.filter Evidence.stays, scrubActive := false, ufBusy := 0 },
              ca := { d2.ca with jobs := [] }, mc := { d2.mc with traceEn := false } }
  let d4 := d3.evidence 0x04 d3.fc.shSrc [2 ^ 31 * b2n d3.fc.shValid + d3.fc.shSrc]
  if d4.ns.notReady then d4.onNs fun n => n.cleared else d4.nsGo .stopped

/-- Entry to the shackle state (R359): `src` is the lowest source of the entry whose effective set holds the shackle state; FC_SHACKLE takes it
unless it holds an entry already. -/
def Device.shackle (d : Device) (src : Nat) : Device :=
  ({ d with fc := { d.fc with shValid := true, shSrc := if d.fc.shValid then d.fc.shSrc else src } } : Device).enterShackle

end Sys2Proof.Machine
end

