-- ==== Sys2Proof/Machine/Interlock.lean ====
section
/-! DEFINITION. The maintenance interlock (R400 to R403, R406) and the activities it runs: live patches (R395, R396), retirement (R397),
firmware swaps (R398, R399), pins, reseeds, scrubs, images (R391, R392), the ward key (R338) and tamper recalibration (R347, R430). -/

namespace Sys2Proof.Machine

/-! ### Requests, exclusions, tickets -/

/-- The internal opcode of a transition request, which R400 does not list. -/
def opTransition : Nat := 0x100

/-- The class of an activity (R400); FW_SWAP has none of its own and is exclusive. -/
def reqClass (op : Nat) : ActClass :=
  if op = opTransition then .life
  else if op = 0x03 then .fwSwap
  else if op < 0x10 then .compute
  else if op < 0x20 then .entropy
  else if op < 0x30 then .nv
  else .sense

/-- LIFE and FW_SWAP start alone, and nothing starts beside them (R398, R401). -/
def exclusive (c : ActClass) : Bool := c == .life || c == .fwSwap

/-- Two activities may run together (R401). -/
def compatible (a b : ActClass) : Bool :=
  a != b && !exclusive a && !exclusive b && !(a == .entropy && b == .sense) && !(a == .sense && b == .entropy)

/-- The exclusions allow the request to start now (R401, R403). -/
def Device.canStart (d : Device) (c : ActClass) : Bool :=
  d.power.applied < 3 && d.mi.running.all fun r => compatible c r.cls

/-- The next free ticket (R402): upward from the last one given, wrapping. -/
def Inter.freeTicket (m : Inter) : Option Nat :=
  ((List.range 255).map fun i => (m.lastTicket + i) % 255 + 1).find? fun t => (Map.get? m.tickets t).isNone

/-- The device with the interlock changed. -/
def Device.onMi (d : Device) (f : Inter → Inter) : Device := { d with mi := f d.mi }

/-- A ticket finishes (R402): its status is kept, its MI_DONE bit is set, and vector 2 is sent where MI_EVT.TICKET_DONE rises (R51). -/
def Device.ticketDone (d : Device) (t : Nat) (s : Status) : Device :=
  (d.onMi fun m => { m with tickets := Map.modify m.tickets t fun x => { x with state := 3, status := s.toNat },
                            done := m.done ||| 2 ^ t, evt := m.evt ||| 1 }).when (rises d.mi.evt 1) (·.hingeMsi 2)

/-- A running activity ends: its ticket finishes (R402). -/
def Device.endReq (d : Device) (r : Req) (s : Status) : Device :=
  (d.onMi fun m => { m with running := m.running.filter fun x => x.ticket != r.ticket }).ticketDone r.ticket s

/-- The work of the running activity with this opcode has ended with a status; ACTIVITY_END finishes it. -/
def Device.markEnded (d : Device) (op : Nat) (s : Status) : Device :=
  d.onMi fun m => { m with running := m.running.map fun r => if r.op = op then { r with ended := some s.toNat } else r }

/-! ### Engine classes and patches -/

/-- The version of a class's section in a bank (R392, R393). -/
def McClass.ver (c : McClass) (b : Bool) : Option Nat := if b then c.verB else c.verA

/-- The firmware version in a bank. -/
def Micro.ver (m : Micro) (b : Bool) : Option Nat := if b then m.verB else m.verA

/-- The engine as a patch pass counts it. -/
def Device.engineOf (d : Device) (cls n : Nat) : Engine :=
  match cls with
  | 0 => d.tumbler n
  | 1 => d.bolt n
  | 2 => { inService := !d.bb.stopped, stopped := d.bb.stopped, sect := d.bb.sect }
  | _ => { inService := !d.bk.stopped, stopped := d.bk.stopped, sect := d.bk.sect }

/-- How many engines a sequencer class has (R385). -/
def classSize (cls : Nat) : Nat := nth [32, 16, 1, 1] cls 0

/-- Stops an engine for a patch, or lets it take strokes again (R395). -/
def Device.setStopped (d : Device) (cls n : Nat) (stop : Bool) : Device :=
  match cls with
  | 0 => d.onTu n fun e => { e with stopped := stop, inService := !stop }
  | 1 => d.onBo n fun e => { e with stopped := stop, inService := !stop }
  | 2 => { d with bb := { d.bb with stopped := stop } }
  | _ => { d with bk := { d.bk with stopped := stop } }

/-- The turn holds a started operation on the engine (R395): its working frame; for the bank controller a node
buffer or a running stroke; for the block array a GHM run or a running stroke. -/
def Turn.startedOn (t : Turn) (cls n : Nat) : Bool :=
  match t.op with
  | none => false
  | some o =>
    o.started && (match cls with
    | 0 => t.op.any fun o => o.unit == some (.tumbler n)
    | 1 => t.op.any fun o => o.unit == some (.bolt n)
    | 2 => o.shape == .elastic || (o.active && o.cls == 2)
    | _ => o.z.kind == .ghash || o.z.kind == .xtsSeq || (o.active && o.cls == 3))

/-- The work holds the engine. -/
def Job.holds (x : Job) (cls n : Nat) : Bool :=
  match x.unit, cls with
  | some (.tumbler k), 0 => k == n
  | some (.bolt k), 1 => k == n
  | _, _ => false

/-- Hinge work holds the engine. -/
def Device.jobOn (d : Device) (cls n : Nat) : Bool := d.jobs.any fun x => x.holds cls n

/-- A home engine once retired (R397). -/
def Engine.retire (e : Engine) : Engine := { e with retired := true, inService := false, parked := false, stopped := false, blankData := none }

/-- Retires an engine (R397): out of service, its turns aborted, its store zeroised, source 1472. -/
def Device.retire (d : Device) (cls n : Nat) : Device :=
  match cls with
  | 0 => ((d.abortOn (.tumbler n)).onTu n Engine.retire).raiseSrc 1472
  | 1 => ((d.abortOn (.bolt n)).onBo n Engine.retire).raiseSrc 1472
  | 2 => { d.raiseSrc 1472 with bb := { d.bb with stopped := true } }
  | _ => { d.raiseSrc 1472 with bk := { d.bk with stopped := true } }

/-- The next engine of a pass (R395, R396): ascending, parked ones last, retired ones skipped; in a reverted pass the switched ones,
descending. -/
def Device.passNext (d : Device) (p : Pass) : Option (Nat × Nat) :=
  if p.revert then p.done.reverse.head?.map fun e => (e / 64, e % 64)
  else
    p.classes.findSome? fun c =>
      let left := (List.range (classSize c)).filter fun n => !p.done.contains (64 * c + n) && !(d.engineOf c n).retired
      match left.find? fun n => !(d.engineOf c n).parked with
      | some n => some (c, n)
      | none => left.head?.map fun n => (c, n)

/-- Ends a pass (R394, R396): a finished one gives its classes the new bank, and their counters rise. -/
def Device.passEnd (d : Device) (p : Pass) : Device :=
  let d1 := ({ d with mc := { d.mc with pass := none } } : Device).mcEvt 1
  if p.revert then d1.markEnded 0x01 St.engineFault
  else
    (p.classes.foldl (fun d c =>
      let k := nth d.mc.classes c {}
      let v := (k.ver p.toB).getD 0
      let d2 : Device := { d with mc := { d.mc with classes := modifyAt d.mc.classes c fun k => { k with bank := b2n p.toB, run := v } } }
      d2.when (nth d2.nv.patchVer c 0 < v) fun d => d.commit (.patchVersion c v) .none) d1).markEnded 0x01 St.done

/-- Goes on with a pass: the next engine drains, or the pass ends. -/
def Device.passStep (d : Device) (p : Pass) : Device :=
  match d.passNext p with
  | none => d.passEnd p
  | some (c, n) =>
    { d with mc := { d.mc with pass := some { p with cls := c, engine := n, drain := true, step := 0, late := false,
                                                     deadline := (d.sc.beat + (nth (d.mi.running.find? (·.op == 1) |>.map Req.args |>.getD []) 1 1) % 2 ^ 24) % 2 ^ 48 } } }

/-! ### Checks (R400, R402) -/

/-- An engine of class k runs a section from the bank (R392, R393). -/
def Device.classRuns (d : Device) (b : Bool) (k : Nat) : Bool :=
  (List.range (classSize k)).any fun n => let e := d.engineOf k n; e.sect == some b && !e.retired && !e.failed

/-- The bank is in use (R392): the management core runs from it, or a class runs a section from it. -/
def Device.bankUsed (d : Device) (firmware : Bool) (b : Nat) : Bool :=
  if firmware then d.mc.bank == b && !d.mc.romOnly else (List.range 4).any (d.classRuns (b == 1))

/-- In service or parked, and not retired. -/
def Engine.here (e : Engine) : Bool := (e.inService || e.parked || e.stopped) && !e.retired

/-- The checks of a request (R297, R398, R400): arguments, rights, state. -/
def Device.reqCheck (d : Device) (op : Nat) (args : List Nat) : Option Status :=
  let a0 := nth args 0 0
  let a1 := nth args 1 0
  let a3 := nth args 3 0
  match op with
  | 0x01 =>
    let toB := bitOf a0 8
    let cs := (List.range 4).filter fun c => bitOf a0 c
    if field a0 4 4 ≠ 0 ∨ field a0 9 23 ≠ 0 ∨ 2 ^ 24 ≤ a1 ∨ a1 = 0 then some St.badArgument
    else if cs.any fun c => ((nth d.mc.classes c {}).ver toB).isNone then some St.badArgument
    else if cs.any fun c => ((nth d.mc.classes c {}).ver toB).getD 0 < nth d.nv.patchVer c 0 then some St.rollback
    else none
  | 0x02 =>
    let bolt := bitOf a0 5
    let n := field a0 0 5
    let es := if bolt then d.bo else d.tu
    if 64 ≤ a0 ∨ (bolt ∧ 16 ≤ n) then some St.badArgument
    else if (nth es n {}).here && (es.filter Engine.here).length == 1 then some St.badArgument
    else none
  | 0x03 =>
    if 2 ≤ a0 ∨ a0 = d.mc.bank then some St.badArgument
    else match d.mc.ver (a0 == 1) with
      | none => some St.imageSignature
      | some v => if v < d.nv.fwVer then some St.rollback else none
  | 0x10 | 0x11 => if 32 ≤ a0 ∨ isMaster a0 then some St.badArgument else none
  | 0x12 => if 32 ≤ a0 then some St.badArgument else if !d.rawAllowed then some St.rightMissing else none
  | 0x13 | 0x20 | 0x21 | 0x23 | 0x30 => none
  | 0x22 =>
    let ty := field a3 8 2
    if field a3 1 7 ≠ 0 ∨ 2 ^ 10 ≤ a3 ∨ ty = 0 ∨ ty = 3 then some St.badArgument
    else if d.bankUsed (ty == 1) (field a3 0 1) then some St.badArgument
    else none
  | 0x31 => if !d.right 7 then some St.rightMissing else none
  | _ => some St.badArgument

/-! ### What an activity does when it starts -/

/-- The sources with a comparator that settles (R342): rail, temperature and light. -/
def settles (s : Nat) : Bool := (8 ≤ s && s < 16) || (18 ≤ s && s < 28)

/-- A word of TP_SRC_CFG of source s takes effect (R342): a change clears the source's count and window, and after a change of the threshold
a rail, temperature or light source settles. -/
def TSrc.setCfg (x : TSrc) (s w : Nat) : TSrc :=
  if x.cfg = w then x
  else { x with cfg := w, count := 0, openW := false, settling := x.settling || (settles s && field x.cfg 16 8 != field w 16 8) }

/-- A word of TP_SRC_CFG without its reserved bits (R349). -/
def tpCfgBits (w : Nat) : Nat := field w 29 3 * 2 ^ 29 + field w 0 24

/-- TAMPER_RECAL of one source (R347, R425, R430): its configuration; a changed sensor threshold settles for 20 µs (R342). -/
def Device.recalSource (d : Device) (s : Nat) : Device :=
  let w := tpCfgBits (u32 (d.ca.effective 0x0B s) 0)
  let thr := calKey 0x0C (s - 18)
  let moves := 18 ≤ s && s < 28 && d.ca.pend.contains thr
  let mine := [calKey 0x0B s] ++ (if s < 8 then [calKey 0x0A s] else []) ++ (if 18 ≤ s && s < 28 then [thr] else [])
  { d with tp := { d.tp with srcs := modifyAt d.tp.srcs s fun x => (let y := x.setCfg s w; { y with settling := y.settling || moves }) },
           ca := { d.ca with pend := d.ca.pend.filter fun k => !mine.contains k } }

/-- The activity's work starts (R400). -/
def Device.startWork (d : Device) (r : Req) : Device :=
  let a0 := nth r.args 0 0
  match r.op with
  | 0x01 =>
    let p : Pass := { ticket := r.ticket, classes := (List.range 4).filter fun c => bitOf a0 c, cls := 0, engine := 0, toB := bitOf a0 8,
                      drain := false, deadline := 0, step := 0 }
    d.passStep p
  | 0x02 => (d.retire (b2n (bitOf a0 5)) (field a0 0 5)).markEnded 0x02 St.done
  | 0x03 => { d with mc := { d.mc with swapping := some a0, halted := true, healthy := false } }
  | 0x10 =>
    let d1 := d.recalPin a0
    let d2 := d1.onMi fun m => { m with running := m.running.map fun x => if x.op = 0x10 then { x with args := [a0, (d.ns.pin a0).fails] } else x }
    { d2 with ca := { d2.ca with pend := d2.ca.pend.filter (· != calKey 0x02 a0) } }
  | 0x11 => (d.retirePin a0).markEnded 0x11 St.done
  | 0x12 => d.onNs fun n => { n with rawWait := some a0 }
  | 0x13 => d.onNs fun n => { n with drbgs := n.drbgs.map fun g => if g.inst then { g with reseedAll := true } else g }
  | 0x20 => { d with nv := { d.nv with scrubActive := true, scrubLine := 0 } }
  | 0x21 | 0x23 =>
    ({ d with nv := d.nv.compact } : Device).markEnded r.op St.done
  | 0x22 =>
    let d1 := d.begin_ .interlock { op := 0x22, args := r.args }
    d1.jobRead .interlock (a0 + 2 ^ 32 * nth r.args 1 0) (nth r.args 2 0)
  | 0x30 => { d with tp := { d.tp with rekeyWanted := true } }
  | 0x31 => (((List.range 32).filter fun s => bitOf a0 s).foldl Device.recalSource d).markEnded 0x31 St.done
  | _ => { d with hs := { d.hs with trans := some { target := r.target, ticket := r.ticket, step := 0 }, wipeTarget := r.target } }

/-- The request runs (R402). -/
def Device.startReq (d : Device) (r : Req) : Device :=
  (d.onMi fun m => { m with running := m.running ++ [r], tickets := Map.set m.tickets r.ticket { state := 2, op := r.op } }).startWork r

/-- Answers the submitter: its status, and the ticket in its RES register (R402). -/
def Device.answer (d : Device) (j : JobId) (s : Status) (ticket : Nat) : Device :=
  d.onUnit j fun u => { u with status := s.toNat, res := ticket, job := if j = .interlock then u.job else none }

/-- A request that has passed its checks (R402): a ticket, then it starts or is queued; INTERLOCK_FULL without a place or a ticket. -/
def Device.submit (d : Device) (j : JobId) (op : Nat) (args : List Nat) (target : Nat) : Device :=
  match d.mi.freeTicket, decide (8 ≤ d.mi.queue.length) with
  | some t, false =>
    let r : Req := { op := op, cls := reqClass op, ticket := t, args := args, target := target }
    let d1 := d.onMi fun m => { m with lastTicket := t }
    if d.canStart r.cls && !d.mi.queue.any fun q => exclusive q.cls then (d1.answer j St.done t).startReq r
    else
      (d1.onMi fun m => { m with queue := m.queue ++ [r], tickets := Map.set m.tickets t { state := 1, op := op } }).answer j St.queued t
  | _, _ =>
    let old := d.mi.evt
    ((d.onMi fun m => { m with evt := m.evt ||| 2 }).when (rises old 2) (·.hingeMsi 2)).answer j St.interlockFull 0

/-- A request through MI_CMD (R400, R402). -/
def Device.request (d : Device) (op : Nat) : Device :=
  match d.reqCheck op d.mi.cmd.args with
  | some s => (d.when (s == St.rightMissing) Device.denied).answer .interlock s 0
  | none => d.submit .interlock op d.mi.cmd.args 0

/-! ### The queue (R402, R403) -/

/-- The transition's checks when it starts (R323, R328). -/
def Device.transitionCheck (d : Device) (target : Nat) : Option Status :=
  let h := d.hasp
  let allowed := (h == 0 && target == 2) || (h == 2 && target == 4) || (h == 4 && target == 6) || (target == 8 && (h == 0 || h == 2 || h == 4 || h == 6))
  if !allowed then some St.stateForbidden
  else if d.leaves.any fun e => e.2.state != .free then some St.leafState
  else none

/-- The checks a queued request repeats when it starts (R402). -/
def Device.recheck (d : Device) (r : Req) : Option Status :=
  if r.op = opTransition then d.transitionCheck r.target else d.reqCheck r.op r.args

/-- One queued request that may start now, none queued before it holding it back. -/
def Device.startable (d : Device) : List Req → Option Req
  | [] => none
  | r :: rest => if d.canStart r.cls then some r else if exclusive r.cls then none else d.startable rest

/-- A queued request starts, or its repeated check finishes its ticket. -/
def Device.startQueued (d : Device) (r : Req) : Device :=
  let d1 := d.onMi fun m => { m with queue := m.queue.filter fun x => x.ticket != r.ticket }
  match d1.recheck r with
  | some s => (d1.when (s == St.rightMissing) Device.denied).ticketDone r.ticket s
  | none => d1.startReq r

/-- The scan of the queue (R402). -/
def Device.scan : Nat → Device → Device
  | 0, d => d
  | n + 1, d =>
    match d.startable d.mi.queue with
    | some r => Device.scan n (d.startQueued r)
    | none => d

/-- ACTIVITY_START (R402). -/
def execActivityStart (s : State) : Host.Outcome State Fault Refusal :=
  run s (s.dev.startable s.dev.mi.queue).isSome (Device.scan 8 s.dev)

/-- The status with which a running activity ends, once its work has ended. -/
def Device.reqEnd (d : Device) (r : Req) : Option Status :=
  match r.ended with
  | some s => some (BitVec.ofNat 16 s)
  | none =>
    let a0 := nth r.args 0 0
    match r.op with
    | 0x10 => let p := d.ns.pin a0; if p.state != .restarting || p.fails != nth r.args 1 0 then some St.done else none
    | 0x12 => if d.ns.rawWait.isNone && !d.ns.rawActive then some St.done else none
    | 0x13 => if d.ns.drbgs.any Drbg.reseedAll then none else some St.done
    | 0x20 => if d.nv.scrubActive then none else some St.done
    | 0x30 => if d.tp.rekeyWanted then none else some St.done
    | _ => none

/-- The running activity of a class. -/
def Device.activity (d : Device) (c : ActClass) : Option Req := d.mi.running.find? fun r => r.cls == c

/-- The running activity of the class has done its work. -/
def Device.activityOver (d : Device) (c : ActClass) : Option (Req × Status) :=
  match d.activity c with
  | some r => (d.reqEnd r).map fun s => (r, s)
  | none => none

/-- ACTIVITY_END (R402). -/
def execActivityEnd (cls : ActClass) (s : State) : Host.Outcome State Fault Refusal :=
  match s.dev.activityOver cls with
  | some (r, st) => run s true (s.dev.endReq r st)
  | none => run s false s.dev

/-! ### Live patches (R395, R396) -/

/-- The engine being patched holds no started operation and is not parked. -/
def Device.drained (d : Device) (p : Pass) : Bool :=
  !(d.engineOf p.cls p.engine).parked && !d.jobOn p.cls p.engine && !d.turns.any fun e => e.2.startedOn p.cls p.engine

/-- ENGINE_DRAIN_STOP (R395): the engine stops and its section is loaded; not while stage 3 pauses the pass (R403). -/
def execEngineDrainStop (s : State) : Host.Outcome State Fault Refusal :=
  match s.dev.mc.pass with
  | some p => run s (p.drain && p.step == 0 && s.dev.drained p && s.dev.power.applied < 3)
      ({ s.dev.setStopped p.cls p.engine true with mc := { s.dev.mc with pass := some { p with drain := false, step := 1 } } })
  | none => run s false s.dev

/-- The started operations of the engine that drains are aborted (R395): turns end with ENGINE_RESET, and hinge work starts again (R65). -/
def Device.drainAbort (d : Device) (p : Pass) : Device :=
  (d.abortTurns St.engineReset fun t => t.startedOn p.cls p.engine).failWork fun x => x.holds p.cls p.engine

/-- PATCH_DRAIN_DEADLINE (R395): the started operations are aborted, and source 1471 is raised. -/
def execPatchDrainDeadline (s : State) : Host.Outcome State Fault Refusal :=
  match s.dev.mc.pass with
  | some p => run s (p.drain && p.step == 0 && !p.late && met s.dev.sc.beat p.deadline && !s.dev.drained p && !(s.dev.engineOf p.cls p.engine).parked)
      (({ s.dev.drainAbort p with
            mc := { s.dev.mc with pass := some { p with late := true } } } : Device).raiseSrc 1471)
  | none => run s false s.dev

/-- An engine or array runs the section of a bank (R386, R393, R395). -/
def Device.setSect (d : Device) (cls n : Nat) (bank : Option Bool) : Device :=
  match cls with
  | 0 => d.onTu n fun e => { e with sect := bank }
  | 1 => d.onBo n fun e => { e with sect := bank }
  | 2 => { d with bb := { d.bb with sect := bank } }
  | _ => { d with bk := { d.bk with sect := bank } }

/-- The bank whose section the engines of a class ran before a pass; none for ROM only. -/
def McClass.before (k : McClass) : Option Bool := if k.run = 0 && (k.ver (k.bank == 1)).isNone then none else some (k.bank == 1)

/-- The self-test of a patched engine ends (R395, R396). -/
def Device.selftestEnd (d : Device) (p : Pass) (ok : Bool) : Device :=
  let key := 64 * p.cls + p.engine
  if ok then
    let p' := if p.revert then { p with done := p.done.filter (· != key) } else { p with done := p.done ++ [key] }
    let bank := if p.revert then (nth d.mc.classes p.cls {}).before else some p.toB
    ((d.setStopped p.cls p.engine false).setSect p.cls p.engine bank).passStep p'
  else if p.revert then (d.retire p.cls p.engine).passStep { p with done := p.done.filter (· != key) }
  else
    let d1 := (d.raiseSrc 1461).mcEvt 8
    { d1 with mc := { d1.mc with pass := some { p with revert := true, step := 1, drain := false } } }

/-- ENGINE_SELFTEST_END (R396). -/
def execEngineSelftestEnd (pass : Bool) (s : State) : Host.Outcome State Fault Refusal :=
  match s.dev.mc.pass with
  | some p => run s (p.step == 1) (s.dev.selftestEnd p pass)
  | none => run s false s.dev

/-! ### Firmware (R394, R399, R405) -/

/-- The running FW_SWAP. -/
def Device.swapReq (d : Device) : Option Req := d.mi.running.find? fun r => r.op == 0x03

/-- FW_HEALTHY (R399): the new bank runs, the counter rises behind a commit (R394), and the ticket ends DONE. -/
def Device.fwHealthy (d : Device) (b : Nat) (r : Req) : Device :=
  let v := (d.mc.ver (b == 1)).getD 0
  let d1 := ({ d with mc := { d.mc with bank := b, swapping := none, halted := false, healthy := true } } : Device).mcEvt 2
  (d1.when (d.nv.fwVer < v) fun d => d.commit (.fwVersion v) .none).endReq r St.done

/-- FW_HEALTHY (R399). -/
def execFwHealthy (s : State) : Host.Outcome State Fault Refusal :=
  match s.dev.mc.swapping, s.dev.swapReq with
  | some b, some r => run s true (s.dev.fwHealthy b r)
  | _, _ => run s false s.dev

/-- FW_SWAP_WATCHDOG (R399): the old bank runs again, source 1459, ENGINE_FAULT. -/
def Device.fwRevert (d : Device) (r : Req) : Device :=
  let d1 := ({ d with mc := { d.mc with swapping := none, halted := false, healthy := true } } : Device).mcEvt 4
  (d1.raiseSrc 1459).endReq r St.engineFault

/-- FW_SWAP_WATCHDOG (R399). -/
def execFwSwapWatchdog (s : State) : Host.Outcome State Fault Refusal :=
  match s.dev.mc.swapping, s.dev.swapReq with
  | some _, some r => run s true (s.dev.fwRevert r)
  | _, _ => run s false s.dev

/-- MGMT_WATCHDOG_EXPIRY (R405): outside a swap the core restarts from its bank, and source 1456 is raised. -/
def execMgmtWatchdogExpiry (s : State) : Host.Outcome State Fault Refusal :=
  run s (s.dev.mc.swapping.isNone && s.dev.power.boot == 4 && !s.dev.shackled)
    (s.dev.raiseSrc 1456)

/-! ### Images (R391, R392) -/

/-- The layout of an image (R391). -/
def imageLayout (b : Bytes) (ty : Nat) : Bool :=
  let l := u32 b 4
  u8 b 0 == 1 && u8 b 1 == ty && u8 b 2 == 0x11 && u8 b 3 == 0 && b.length == 4787 + l && slice b 52 12 == zeros 12 &&
  (if ty = 1 then l ≤ 2092365 && slice b 12 12 == zeros 12 else l ≤ 1043789)

/-- One section at the head of a payload (R391), and what follows it. The counts take four bytes each, a hook four bytes ([12:0] ROM address, [23:13]
patch address, [31] enable) and a word 24, low byte first (DESIGN CHOICE, log entry 97). -/
def takeSection (version : Nat) (b : Bytes) : Section × Bytes :=
  let n := u32 b 0
  let h := u32 b 4
  let hooks := (List.range (min h 64)).filterMap fun i =>
    let w := u32 b (8 + 4 * i)
    if bitOf w 31 then some (field w 0 13, field w 13 11) else none
  let words := (List.range (min n 2048)).map fun i => BitVec.ofNat 192 (leNat (slice b (8 + 4 * h + 24 * i) 24))
  (if n = 0 then {} else { version := version, hooks := hooks, words := words }, b.drop (8 + 4 * h + 24 * n))

/-- The sections of a payload, one for each version, in class index order (R391). -/
def takeSections : List Nat → Bytes → List Section
  | [], _ => []
  | v :: r, b => let (x, rest) := takeSection v b; x :: takeSections r rest

/-- The four sections of a patch image (R391). -/
def imageSections (b : Bytes) : List Section := takeSections ((List.range 4).map fun c => u32 b (8 + 4 * c)) ((imagePayload b).getD [])

/-- The version of class c's section in a patch image; none for ROM only (R391). -/
def sectionVer (b : Bytes) (c : Nat) : Option Nat := if (nth (imageSections b) c {}).words.isEmpty then none else some (u32 b (8 + 4 * c))

/-- The first failed check of an image (R392). -/
def Device.imageCheck (d : Device) (b : Bytes) (ty : Nat) : Option Status :=
  if !imageLayout b ty then some St.badArgument
  else if !(imageSigned ty (u32 b 4) b && (imagePayload b).isSome) then some St.imageSignature
  else if ty = 1 then (if u32 b 8 < d.nv.fwVer then some St.rollback else none)
  else if (List.range 4).any fun c => match sectionVer b c with
      | some v => v < nth d.nv.patchVer c 0
      | none => false then some St.rollback
  else none

/-- IMAGE_WRITE goes on after its transfer (R392), but not at stage 3 (R403, R415): the checks, then the bank holds the image; a refused image raises source 1460 and
changes nothing. -/
def Device.imageRead (d : Device) (x : Job) : Device :=
  let a3 := nth x.args 3 0
  let ty := field a3 8 2
  let toB := bitOf a3 0
  let d1 := d.onUnit .interlock fun u => { u with job := none }
  if 3 ≤ d.power.applied then d
  else if x.failed then d1.markEnded 0x22 St.dmaFault
  else match d.imageCheck x.data ty with
    | some s => (d1.raiseSrc 1460).markEnded 0x22 s
    | none =>
      let b := x.data
      let mc := d1.mc
      let mc' : Micro :=
        if ty = 1 then (if toB then { mc with verB := some (u32 b 8) } else { mc with verA := some (u32 b 8) })
        else { mc with classes := (List.range 4).map fun c =>
          let k := nth mc.classes c {}
          let x := nth (imageSections b) c {}
          if toB then { k with verB := sectionVer b c, secB := x } else { k with verA := sectionVer b c, secA := x } }
      ({ d1 with mc := mc' } : Device).markEnded 0x22 St.done

/-! ### The ward key (R338) -/

/-- The ward takes a new key (R338). -/
def Device.newWardKey (d : Device) : Device :=
  let (key, d1) := d.draw 16
  { d1 with tp := { d1.tp with rekeyWanted := false, wardKey := some key, rekeys := satAdd 16 d1.tp.rekeys 1 } }

/-- WARD_KEY_SWITCH (R338): at a period boundary, once the entropy state is READY or LOW. -/
def execWardKeySwitch (s : State) : Host.Outcome State Fault Refusal :=
  run s (s.dev.tp.rekeyWanted && !s.dev.ns.notReady) s.dev.newWardKey

/-! ### Rows -/

/-- IMAGE_WRITE from the host (R392): where the boot ROM serves, of firmware only (R393). -/
def Device.hostImage (d : Device) : Device :=
  if d.mc.romOnly && d.serves 0 && !d.shackled then
    (if field (nth d.mi.cmd.args 3 0) 8 2 = 1 then d.request 0x22 else d)
  else d.hostDo fun d => d.request 0x22

/-- A maintenance request from the host (R400, R406). -/
def Device.hostRequest (d : Device) (op : Nat) : Device := d.hostDo fun d => d.request op

/-- PATCH (R395). -/
def execMiPatch (s : State) : Host.Outcome State Fault Refusal := run s true (s.dev.hostRequest 0x01)
/-- RETIRE (R397). -/
def execMiRetire (s : State) : Host.Outcome State Fault Refusal := run s true (s.dev.hostRequest 0x02)
/-- FW_SWAP (R398). -/
def execMiFwSwap (s : State) : Host.Outcome State Fault Refusal := run s true (s.dev.hostRequest 0x03)
/-- PIN_RECAL (R400). -/
def execMiPinRecal (s : State) : Host.Outcome State Fault Refusal := run s true (s.dev.hostRequest 0x10)
/-- PIN_RETIRE (R400). -/
def execMiPinRetire (s : State) : Host.Outcome State Fault Refusal := run s true (s.dev.hostRequest 0x11)
/-- RAW_CAPTURE (R297). -/
def execMiRawCapture (s : State) : Host.Outcome State Fault Refusal := run s true (s.dev.hostRequest 0x12)
/-- RESEED_ALL (R298). -/
def execMiReseedAll (s : State) : Host.Outcome State Fault Refusal := run s true (s.dev.hostRequest 0x13)
/-- MRAM_SCRUB (R378). -/
def execMiMramScrub (s : State) : Host.Outcome State Fault Refusal := run s true (s.dev.hostRequest 0x20)
/-- WEAR_RELOCATE (R400). -/
def execMiWearRelocate (s : State) : Host.Outcome State Fault Refusal := run s true (s.dev.hostRequest 0x21)
/-- IMAGE_WRITE (R392). -/
def execMiImageWrite (s : State) : Host.Outcome State Fault Refusal := run s true s.dev.hostImage
/-- JOURNAL_COMPACT (R373). -/
def execMiJournalCompact (s : State) : Host.Outcome State Fault Refusal := run s true (s.dev.hostRequest 0x23)
/-- WARD_REKEY (R338). -/
def execMiWardRekey (s : State) : Host.Outcome State Fault Refusal := run s true (s.dev.hostRequest 0x30)
/-- TAMPER_RECAL (R430). -/
def execMiTamperRecal (s : State) : Host.Outcome State Fault Refusal := run s true (s.dev.hostRequest 0x31)
/-- An opcode that R400 does not list: BAD_ARGUMENT. -/
def execMiUnknownOpcode (_opcode : Byte) (s : State) : Host.Outcome State Fault Refusal :=
  run s true (s.dev.hostDo fun d => d.answer .interlock St.badArgument 0)

end Sys2Proof.Machine
end

