-- ==== Sys2Proof/Machine/Hasp.lean ====
section
/-! DEFINITION. The applied stage (R412), the vault key share (R312), opening and transition certificates (R329 to R334), the burns and
the wipe of a transition (R318, R322 to R328), and the commands of the hasp block (R336). -/

namespace Sys2Proof.Machine

/-! ### The applied stage (R411, R412, R419, R327) -/

/-- A wipe holds shedding (R327, R412). -/
def Device.wiping (d : Device) : Bool :=
  match d.hs.trans with
  | some t => 1 ≤ t.step && t.step ≤ 8
  | none => false

/-- The applied stage follows the sensed and the thermal stage (R412): every stage passed on a rise is raised and counted, a change sends
one message; a wipe holds it at 2. -/
def Device.restage (d : Device) : Device :=
  let want := min 3 (max d.power.sensed d.power.thermal)
  let hold := d.wiping && 3 ≤ want
  let new := if hold then 2 else want
  let old := d.power.applied
  let d1 : Device := { d with power := { d.power with applied := new, lifeHold := hold } }
  let bits := 2 * b2n (hold && !d.power.lifeHold) + b2n (decide (new ≠ old))
  let d2 := d1.when (hold && !d.power.lifeHold) (·.raiseSrc 1442)
  if new = old then d2.powerEvt bits
  else
    let passed := (List.range 3).filter fun k => old < k + 1 && k + 1 ≤ new
    let d3 := passed.foldl (fun d k =>
      ({ d with power := { d.power with stageCnt := modifyAt d.power.stageCnt k fun c => satAdd 16 c 1 } } : Device).raiseSrc (1424 + k)) d2
    d3.powerEvt bits

/-! ### The vault key share (R310, R312) -/

/-- The vault key share is zeroised with main power present (R312): the identity is no longer valid, source 1506. -/
def Device.zeroiseShare (d : Device) : Device :=
  if d.aon.share.isEmpty then d
  else
    ({ d with aon := { d.aon with share := [] },
              kw := { d.kw with valid := false, root := [], seeds := [], evt := d.kw.evt ||| 8 } } : Device).raiseSrc 1506

/-! ### Certificates (R329 to R332) -/

/-- Certificate length (R329). -/
def openLen : Nat := 4787

/-- The id_digest that KW_IDDIG shows (R315). -/
def Device.idDigest (d : Device) : Bytes := if d.kw.valid then fit 32 d.kw.digest else zeros 32

/-- The current certificate of the identity is installed (R312, R315). -/
def Device.certCurrent (d : Device) : Bool := d.kw.valid && !d.kw.cert.isEmpty && u32 d.kw.cert 12 == d.kw.epoch

/-- Step 1 of R330. -/
def certForm (c : Bytes) (transition : Bool) : Bool :=
  let target := u8 c 2
  c.length == openLen && u8 c 0 == 1 && field (u8 c 3) 5 3 == 0 && u8 c 5 == 0 && u16 c 6 == 0 && u64 c 56 == 0 &&
  (if transition then [2, 4, 6, 8].contains target && u8 c 4 == 0 else target == 0xFF)

/-- The signer of a state (R320): 0 vendor, 1 integrator. -/
def signerOf (hasp : Nat) : Option Nat :=
  match hasp with
  | 0 | 6 => some 0
  | 2 | 4 => some 1
  | _ => none

/-- Steps 1 to 3 of R330, before any signature work. -/
def Device.certEarly (d : Device) (c : Bytes) (transition : Bool) : Option Status :=
  if !certForm c transition then some St.badArgument
  else if d.hasp % 2 = 1 then some St.lifeBusy
  else if signerOf d.hasp ≠ some (u8 c 1) ∨ (u8 c 1 = 1 ∧ d.hs.intkeys.isEmpty) then some St.stateForbidden
  else none

/-- Steps 4 to 6 of R330, and the transition's own check (R323, R334). -/
def Device.certLate (d : Device) (c : Bytes) (transition : Bool) : Option Status :=
  let id := slice c 16 32
  let signed := openingSigned (if u8 c 1 = 0 then Config.vendorKeys else d.hs.intkeys) c
  let target := u8 c 2
  if !signed then some St.certInvalid
  else if u64 c 8 ≠ Config.serial % 2 ^ 64 ∨ !(id == zeros 32 || id == d.idDigest) ∨ (u8 c 1 = 1 ∧ id == zeros 32) ∨
      !(u32 c 48 ≤ d.hs.boot && d.hs.boot ≤ u32 c 52) ∨ !bitOf (u8 c 3) (d.hasp / 2) then some St.certScope
  else if bitOf (u8 c 4) 3 && d.hasp == 4 then some St.stateForbidden
  else if transition && d.transitionCheck target == some St.stateForbidden then some St.stateForbidden
  else if transition && target == 4 && !(d.certCurrent && !d.hs.intkeys.isEmpty) then some St.stateForbidden
  else none

/-- A refused certificate changes no right and raises source 1493 (R330). -/
def Device.certRefused (d : Device) : Device := (d.hsEvt 2).raiseSrc 1493

/-- The rights of an accepted certificate are added (R333). -/
def Device.grant (d : Device) (c : Bytes) : Device :=
  (({ d with hs := { d.hs with rights := d.hs.rights ||| u8 c 4 } } : Device).hsEvt 1).raiseSrc 1494

/-- OPEN of a certificate that has been presented in full (R330, R333): the status, and the device after it. -/
def Device.openCert (d : Device) (c : Bytes) : Status × Device :=
  match (d.certEarly c false).or (d.certLate c false) with
  | some s => (s, d.certRefused)
  | none => (St.done, d.grant c)

/-! ### Burns and wipes -/

/-- Burns a position of the fuses in the first `n` of its three rows, in turn (R317, R324). -/
def Perm.burnRows (p : Perm) (i n : Nat) : Perm :=
  let b : BitVec 8 := BitVec.ofNat 8 (2 ^ i)
  { p with row0 := if 1 ≤ n then p.row0 ||| b else p.row0, row1 := if 2 ≤ n then p.row1 ||| b else p.row1,
           row2 := if 3 ≤ n then p.row2 ||| b else p.row2 }

/-- Burns a position of the fuses in all three rows (R317, R324). -/
def Perm.burn (p : Perm) (i : Nat) : Perm := p.burnRows i 3

/-- Positions whose rows disagree (R318, R336). -/
def Perm.disagree (p : Perm) : Nat :=
  ((p.row0 ^^^ p.row1) ||| (p.row1 ^^^ p.row2)).toNat

/-- The boot ROM burns every row that is unburned at a position that reads as burned (R318). -/
def Perm.repair (p : Perm) : Perm :=
  (List.range 8).foldl (fun q i => if p.burned i then q.burn i else q) p

/-- The wipe steps of a transition, by its target (R319, R322). -/
def wipeSteps (target : Nat) : List Nat :=
  match target with
  | 2 => [4]
  | 6 => [1, 2, 3, 4]
  | 8 => [1, 2, 3, 4, 5, 6, 7, 8]
  | _ => []

/-- One wipe step (R322). -/
def Device.wipe (d : Device) (step : Nat) : Device :=
  match step with
  | 1 => d.zeroiseShare
  | 2 =>
    { d with kw := { d.kw with valid := false, root := [], seeds := [] }, vault := [], slots := { d.slots with slots := [] }, tu := d.tu.map Engine.emptied, bo := d.bo.map Engine.emptied }
  | 3 => { d with kw := { d.kw with blob := [], cert := [], digest := [], pubs := [], seeds := [] }, hs := { d.hs with intkeys := [] } }
  | 4 => { d with perm := { d.perm with flash := [] } }
  | 5 => { d with perm := { d.perm with secretBurned := true } }
  | 6 => { d with ca := { d.ca with overlay := [], factory := [], lines := [], erased := true } }
  | 7 => { d with nv := { d.nv with seq := 0, jidx := [], journal := [], hwm := 0, cuts := [], gens := [], lives := [], fwVer := 0, patchVer := [0, 0, 0, 0], skips := 0,
                                    evl := [], evq := [], evHead := 0, evSeq := 0, evWraps := 0, evPinned := 0 },
                  hs := { d.hs with boot := 0 }, kw := { d.kw with epoch := 0 } }
  | _ => { d with mc := { d.mc with verA := none, verB := none, classes := d.mc.classes.map fun c => { c with verA := none, verB := none, secA := {}, secB := {} } } }

/-- The step after `step` in a wipe; 9 is the even burn. -/
def nextStep (target step : Nat) : Nat := ((wipeSteps target).find? fun s => step < s).getD 9

/-- The transition goes on with a step. -/
def Device.atStep (d : Device) (t : Trans) (step : Nat) : Device :=
  ({ d with hs := { d.hs with trans := some { t with step := step, tries := 0 }, wipeStep := if step ≤ 8 then step else 0 } } : Device).restage

/-- The transition stops where it stands (R322, R324); the spec does not say which word of the table its ticket
shows (R121). -/
def Device.transStops (d : Device) (src : Nat) : Device :=
  let d1 := ({ d with hs := { d.hs with trans := none, wipeStep := 0, wipeTarget := 0 } } : Device).raiseSrc src
  (d1.markEnded opTransition (nth St.table (Config.stoppedTransition % St.table.length) St.engineFault)).restage

/-- HASP_ODD_BURN (R324): the odd value is burned row by row, every right is cleared, and COMMITTED is set. With fewer than three rows that
pass their check, the next row has failed 3 attempts: source 1489, and the transition stops where it stands (R326). -/
def Device.oddBurn (d : Device) (t : Trans) (rows : Nat) : Device :=
  if rows < 3 then ({ d with perm := d.perm.burnRows (t.target - 2) rows, hs := { d.hs with rights := 0 } } : Device).transStops 1489
  else
    let old := d.hasp
    let d1 : Device := { d with perm := d.perm.burn (t.target - 2), hs := { d.hs with rights := 0 } }
    let d2 := ((d1.hsEvt 4).raiseSrc 1495).evidence 0x05 0xFFFF [old + 256 * (t.target - 1)]
    d2.atStep t (nextStep t.target 0)

/-- A burn may start: the applied stage is 0 or 1 (R327). -/
def Device.mayBurn (d : Device) : Bool := d.power.applied ≤ 1 && !d.shackled

/-- HASP_ODD_BURN (R324). -/
def execHaspOddBurn (rows : Nat) (s : State) : Host.Outcome State Fault Refusal :=
  match s.dev.hs.trans with
  | some t => runPerm s (t.step == 0 && s.dev.mayBurn) (s.dev.oddBurn t rows)
  | none => run s false s.dev

/-- WIPE_STEP (R322): the target is zeroed and checked; the third failed check raises source 1491 and the transition stops. -/
def Device.wipeStep (d : Device) (t : Trans) (ok : Bool) : Device :=
  if ok then (d.wipe t.step).atStep t (nextStep t.target t.step)
  else if 2 ≤ t.tries then d.transStops 1491
  else { d with hs := { d.hs with trans := some { t with tries := t.tries + 1 } } }

/-- WIPE_STEP (R322). -/
def execWipeStep (ok : Bool) (s : State) : Host.Outcome State Fault Refusal :=
  match s.dev.hs.trans with
  | some t => runPerm s (1 ≤ t.step && t.step ≤ 8) (s.dev.wipeStep t ok)
  | none => run s false s.dev

/-- HASP_EVEN_BURN (R324): the even value is burned and TRANSITION_DONE is set; the completion is recorded unless the log was wiped. A row
that fails stops the transition where it stands (R326). -/
def Device.evenBurn (d : Device) (t : Trans) (rows : Nat) : Device :=
  if rows < 3 then ({ d with perm := d.perm.burnRows (t.target - 1) rows } : Device).transStops 1489
  else
    let d1 : Device := { d with perm := d.perm.burn (t.target - 1), hs := { d.hs with trans := none, wipeStep := 0, wipeTarget := 0 } }
    let d2 := (d1.hsEvt 8).raiseSrc 1496
    let d3 := if t.target = 8 then d2 else d2.evidence 0x06 0xFFFF [t.target - 1 + 256 * t.target]
    (d3.markEnded opTransition St.done).restage

/-- HASP_EVEN_BURN (R324). -/
def execHaspEvenBurn (rows : Nat) (s : State) : Host.Outcome State Fault Refusal :=
  match s.dev.hs.trans with
  | some t => runPerm s (t.step == 9 && s.dev.mayBurn) (s.dev.evenBurn t rows)
  | none => run s false s.dev

/-! ### Commands (R336) -/

/-- The certificate is refused: the command ends (R330). -/
def Device.haspRefuse (d : Device) (s : Status) : Device := d.certRefused.finish .hasp s

/-- OPEN and TRANSITION (R323, R330): a wrong length refuses the certificate, else it is read. -/
def Device.haspCert (d : Device) (op : Nat) : Device :=
  if d.arg .hasp 2 ≠ openLen then d.haspRefuse St.badArgument
  else (d.begin_ .hasp { op := op, args := d.hs.cmd.args }).jobRead .hasp (d.arg64 .hasp 0) openLen

/-- DROP_RIGHTS (R333). -/
def Device.dropRights (d : Device) : Device := ({ d with hs := { d.hs with rights := 0 } } : Device).finish .hasp St.done

/-- INTKEY_INSTALL (R328, R334). -/
def Device.intkeyInstall (d : Device) : Device :=
  if d.hasp % 2 = 1 then d.finish .hasp St.lifeBusy
  else if d.hasp ≠ 2 then d.finish .hasp St.stateForbidden
  else if d.arg .hasp 2 ≠ 2688 then d.finish .hasp St.badArgument
  else (d.begin_ .hasp { op := 4, args := d.hs.cmd.args }).jobRead .hasp (d.arg64 .hasp 0) 2688

/-- A hasp command goes on after its reads: the checks before the signatures, then the signature work (R330, R331). -/
def Device.haspRead (d : Device) (x : Job) : Device :=
  if x.failed then d.finish .hasp St.dmaFault
  else if x.op = 4 then
    (d.onJob .hasp fun j => { j with phase := .committing }).commit (.intkeys x.data) (.job .hasp)
  else match d.certEarly x.data (x.op == 3) with
    | some s => d.haspRefuse s
    | none => d.jobWork .hasp certWork

/-- A hasp command goes on after its signature work (R323, R330). -/
def Device.haspWorked (d : Device) (x : Job) : Device :=
  let c := x.data
  if x.op = 1 then
    (let (s, d1) := d.openCert c; d1.finish .hasp s)
  else match (d.certEarly c true).or (d.certLate c true) with
    | some s => d.haspRefuse s
    | none =>
      match d.transitionCheck (u8 c 2) with
      | some s => d.finish .hasp s
      | none => d.submit .hasp opTransition [] (u8 c 2)

/-- INTKEY_INSTALL ends with its commit (R334). -/
def Device.haspCommitted (d : Device) (ok : Bool) : Device := d.finish .hasp (if ok then St.done else St.nvFault)

/-- OPEN (R330). -/
def execHsOpen (s : State) : Host.Outcome State Fault Refusal := run s true (s.dev.command .hasp fun d => d.haspCert 1)
/-- DROP_RIGHTS (R333). -/
def execHsDropRights (s : State) : Host.Outcome State Fault Refusal := run s true (s.dev.command .hasp Device.dropRights)
/-- TRANSITION (R323). -/
def execHsTransition (s : State) : Host.Outcome State Fault Refusal := run s true (s.dev.command .hasp fun d => d.haspCert 3)
/-- INTKEY_INSTALL (R334). -/
def execHsIntkeyInstall (s : State) : Host.Outcome State Fault Refusal := run s true (s.dev.command .hasp Device.intkeyInstall)
/-- An opcode that R336 does not list: BAD_ARGUMENT. -/
def execHsUnknownOpcode (_opcode : Byte) (s : State) : Host.Outcome State Fault Refusal :=
  run s true (s.dev.command .hasp fun d => d.finish .hasp St.badArgument)

end Sys2Proof.Machine
end

