-- ==== Sys2Proof/Machine/KeywayAdmin.lean ====
section
/-! DEFINITION. Keyway admin and identity (R310 to R315): IDGEN with its root material (R286), certificates and attestation. -/

namespace Sys2Proof.Machine

/-- The bytes 0 to 4,327 of an identity certificate (R313). -/
def Device.certHead (d : Device) : Bytes :=
  leBytes 1 4 ++ leBytes Config.serial 8 ++ leBytes d.kw.epoch 4 ++ fit 4312 d.kw.pubs

/-- IDGEN (R285, R286, R311): the state, the hasp value, the leaves; then it asks for root material. -/
def Device.idgen (d : Device) : Device :=
  if d.hasp % 2 = 1 then d.finish .keyway St.lifeBusy
  else if d.hasp ≠ 2 then d.finish .keyway St.stateForbidden
  else if d.leaves.any fun e => e.2.state != .free then d.finish .keyway St.leafState
  else if d.ns.rootBlocked then d.finish .keyway St.entropyUnavailable
  else (d.begin_ .keyway { op := 1, args := d.kw.cmd.args }).onNs fun n => { n with rootWanted := true }

/-- CERT_INSTALL (R313): the length, then the certificate is read. -/
def Device.certInstall (d : Device) : Device :=
  if d.arg .keyway 2 ≠ certLen then d.finish .keyway St.badArgument
  else (d.begin_ .keyway { op := 2, args := d.kw.cmd.args }).jobRead .keyway (d.arg64 .keyway 0) certLen

/-- CERT_READ (R315). -/
def Device.certRead (d : Device) : Device :=
  if d.kw.cert.isEmpty then d.finish .keyway St.stateForbidden
  else (d.begin_ .keyway { op := 3, args := d.kw.cmd.args }).jobWrite .keyway (d.arg64 .keyway 0) d.kw.cert

/-- ATTEST (R314): the challenge is read. -/
def Device.attest (d : Device) : Device :=
  if !d.kw.valid then d.finish .keyway St.stateForbidden
  else (d.begin_ .keyway { op := 4, args := d.kw.cmd.args }).jobRead .keyway (d.arg64 .keyway 0) 32

/-- The version of the section that an engine of class k runs from a bank; 0 for ROM only (R385, R407). -/
def McClass.version (c : McClass) : Option Bool → Nat
  | none => 0
  | some toB => if toB then c.secB.version else c.secA.version

/-- The lowest version of a section running on an in-service engine of class k (R394, R407). -/
def Device.runVer (d : Device) (k : Nat) : Nat :=
  let vs := ((List.range (classSize k)).filter fun n => (d.engineOf k n).inService).map fun n =>
    (nth d.mc.classes k {}).version (d.engineOf k n).sect
  vs.foldl min (vs.headD 0)

/-- The statement of an attestation before its signatures (R314). -/
def Device.statement (d : Device) (challenge : Bytes) : Bytes :=
  let vs := (List.range 4).map d.runVer
  challenge ++ leBytes Config.serial 8 ++ leBytes d.kw.epoch 4 ++ leBytes d.hasp 1 ++ zeros 3 ++ leBytes d.hs.boot 4 ++
  leBytes d.nv.fwVer 4 ++ leBytes (vs.foldl min (vs.headD 0)) 4

/-- CERT_INSTALL's checks (R313). -/
def Device.certMine (d : Device) (c : Bytes) : Bool :=
  identitySigned c && u8 c 0 == 1 && u64 c 4 == Config.serial % 2 ^ 64 && u32 c 12 == d.kw.epoch && d.kw.valid &&
  slice c 16 4312 == fit 4312 d.kw.pubs

/-- The strokes of ATTEST (R314): one ML-DSA-87 signature of so many attempts and one of P-384 (log entry 30). -/
def attestWork (attempts : Nat) : List Seg := [dsaWork (9 * attempts) true, boltWork 36 2 true]

/-- The strokes of IDGEN (R311): ML-KEM-1024, ML-DSA-87, X448 and P-384 key generation (log entry 30). -/
def idgenWork : List Seg := [kemWork 4, dsaWork 9 true, boltWork 36 3 true, boltWork 32 2 true]

/-- ATTEST's signing begins (R65, R314): the statement stands, and fresh random values are drawn. -/
def Device.attestSign (d : Device) (x : Job) : Device :=
  let st := d.statement (fit 32 x.data)
  let (rnd, d1) := d.draw 88
  let n := (identitySign d.kw.seeds st rnd (d.tumbler 0).mask.source).1.2
  (d1.onJob .keyway fun j => { j with out := st ++ rnd }).jobWork .keyway (attestWork n)

/-- A keyway command goes on after its reads: engine work (R65, R315). -/
def Device.keywayRead (d : Device) (x : Job) : Device :=
  if x.failed then d.finish .keyway St.dmaFault
  else if x.op = 2 then d.jobWork .keyway certWork
  else d.attestSign x

/-- A keyway command goes on after its engine work (R311, R313, R314). -/
def Device.keywayWorked (d : Device) (x : Job) : Device :=
  match x.op with
  | 1 => (d.onJob .keyway fun j => { j with phase := .committing }).commit (.epoch (d.kw.epoch + 1)) (.job .keyway)
  | 2 =>
    if d.certMine x.data then
      ({ d with kw := { d.kw with cert := x.data, evt := d.kw.evt ||| 2 } } : Device).finish .keyway St.done
    else d.finish .keyway St.identityRejected
  | _ =>
    if !d.kw.valid then d.finish .keyway St.stateForbidden
    else
      let st := x.out.take 60
      let (sigs, d1) := d.jobMasks x (identitySign d.kw.seeds st (x.out.drop 60))
      d1.jobWrite .keyway (nth x.args 2 0 + 2 ^ 32 * nth x.args 3 0) (st ++ sigs.1)

/-- IDGEN's commit (R311): the new identity is in force; the old certificate and the integrator key are void (R334); then the head of the
new certificate is written for the vendor. -/
def Device.keywayCommitted (d : Device) (x : Job) (ok : Bool) : Device :=
  if !ok then d.finish .keyway St.nvFault
  else
    let (share, seeds) := identitySeeds x.out
    let (pubs, d0) := d.jobMasks x (identityPublic seeds)
    let d1 : Device := { d0 with aon := { d0.aon with share := share }, hs := { d0.hs with intkeys := [] } }
    let root := d1.rootKey
    let d2 : Device :=
      { d1 with kw := { d1.kw with blob := sealRoot root d1.kw.epoch seeds, root := root, seeds := seeds, blobBad := false, valid := true,
                                   cert := [], pubs := pubs, digest := hash 5 (fit 4312 pubs) } }
    d2.jobWrite .keyway (nth x.args 0 0 + 2 ^ 32 * nth x.args 1 0) d2.certHead

/-- A keyway command ends after its writes (R315). -/
def Device.keywayWritten (d : Device) (x : Job) : Device :=
  if x.failed then d.finish .keyway St.dmaFault
  else
    let d1 := d.finish .keyway St.done
    if x.op = 1 then { d1 with kw := { d1.kw with evt := d1.kw.evt ||| 1 } } else d1

/-- ROOT_MATERIAL_REQUEST for IDGEN (R285, R286, R311): the material is formed and the key generation begins, or ENTROPY_UNAVAILABLE. -/
def Device.rootForKeyway (d : Device) : Device :=
  let d1 := d.rootRequest
  match d1.ns.root, d1.kw.cmd.job with
  | some r, some x =>
    if x.op = 1 && x.phase == .waiting then
      let d2 := (d1.onNs fun n => { n with root := none }).onJob .keyway fun j => { j with out := r }
      d2.jobWork .keyway idgenWork
    else d1
  | _, _ => d1

/-- ROOT_MATERIAL_REQUEST (R286): it waits while a master pin restarts or is captured. -/
def execRootMaterialRequest (s : State) : Host.Outcome State Fault Refusal :=
  run s (s.dev.ns.rootWanted && (s.dev.ns.rootBlocked || s.dev.ns.rootReady)) s.dev.rootForKeyway

/-- IDGEN (R311). -/
def execKwIdgen (s : State) : Host.Outcome State Fault Refusal := run s true (s.dev.command .keyway Device.idgen)
/-- CERT_INSTALL (R313). -/
def execKwCertInstall (s : State) : Host.Outcome State Fault Refusal := run s true (s.dev.command .keyway Device.certInstall)
/-- CERT_READ (R315). -/
def execKwCertRead (s : State) : Host.Outcome State Fault Refusal := run s true (s.dev.command .keyway Device.certRead)
/-- ATTEST (R314). -/
def execKwAttest (s : State) : Host.Outcome State Fault Refusal := run s true (s.dev.command .keyway Device.attest)
/-- An opcode that R315 does not list: BAD_ARGUMENT. -/
def execKwUnknownOpcode (_opcode : Byte) (s : State) : Host.Outcome State Fault Refusal :=
  run s true (s.dev.command .keyway fun d => d.finish .keyway St.badArgument)

end Sys2Proof.Machine
end

