-- ==== Sys2Proof/Machine/Jobs.lean ====
section
/-! DEFINITION. How the commands of the command blocks go on after their reads, engine work, commits and writes (R61, R62, R65), the beat
edge and the end of strokes with hinge work (R65, R171, R180), and the outcome of a commit for its requester (R143, R307, R370). -/

namespace Sys2Proof.Machine

/-! ### The course of a job -/

/-- The reads of a job have come. -/
def Device.jobHasRead (d : Device) (j : JobId) : Device :=
  match d.job j with
  | none => d
  | some x =>
    if x.awaiting ≠ 0 ∨ x.phase ≠ .reading then d
    else match j with
      | .hinge => d.hingeRead x
      | .keyway => d.keywayRead x
      | .hasp => d.haspRead x
      | .interlock => d.imageRead x

/-- The engine work of a job is done. -/
def Device.jobHasWorked (d : Device) (j : JobId) : Device :=
  match d.job j with
  | none => d
  | some x =>
    match j with
    | .hinge => d.hingeWorked x
    | .keyway => d.keywayWorked x
    | .hasp => d.haspWorked x
    | .interlock => d

/-- The writes of a job have ended. -/
def Device.jobHasWritten (d : Device) (j : JobId) : Device :=
  match d.job j with
  | none => d
  | some x =>
    if x.awaiting ≠ 0 ∨ x.phase ≠ .writing then d
    else match j with
      | .hinge => d.hingeWritten x
      | .keyway => d.keywayWritten x
      | .hasp => d
      | .interlock => d

/-- The commit of a job is durable, or has failed. -/
def Device.jobHasCommitted (d : Device) (j : JobId) (ok : Bool) : Device :=
  match d.job j with
  | none => d
  | some x =>
    match j with
    | .hinge => d.hingeCommitted x ok
    | .keyway => d.keywayCommitted x ok
    | .hasp => d.haspCommitted ok
    | .interlock => d

/-- The outcome of a commit for its requester (R143, R307, R308, R370): a keyway change waits for its edge, or its turn ends with
NV_FAULT; the change of an aborted turn is over. -/
def Device.commitResult (d : Device) (w : CommitWhy) (ok : Bool) : Device :=
  match w with
  | .none => d
  | .job j => d.jobHasCommitted j ok
  | .keyway l =>
    match (d.leaf l).change with
    | none => d
    | some c =>
      if c.change.isNone then d.onLeaf l fun x => { x with change := none }
      else if ok then
        (d.onLeaf l fun x => { x with change := some { c with durable := true } }).onTurn c.slot fun t =>
          if t.leaf = l ∧ t.phase = .waitCommit then { t with phase := .waitEdge } else t
      else
        let d1 := d.onLeaf l fun x => { x with change := none }
        match Map.get? d1.turns c.slot with
        | some t => if t.leaf = l ∧ t.phase = .waitCommit then d1.endTurn c.slot St.nvFault t.pc else d1
        | none => d1

/-! ### Hinge work at the end of strokes (R65) -/

/-- The end of a stroke of hinge work (R65): the segment's last stroke frees the engine and its frame; after the last segment the job goes on. -/
def Device.jobStroke (d : Device) (j : JobId) : Device :=
  match d.job j with
  | some x =>
    (match x.phase, x.inStroke with
    | .working (g :: r), some _ =>
      let d0 := d.onJob j fun y => { y with inStroke := none }
      if x.failed || g.n ≠ 0 then d0
      else
        let d1 := (d0.dropUnit j).onJob j fun y => { y with phase := .working r }
        if r.isEmpty then d1.jobHasWorked j else d1
    | _, _ => d)
  | none => d

/-! ### Restarts (R65) -/

/-- Hinge work starts again (R65): its working state is zeroised and its frame released; work that draws random values draws fresh ones. -/
def Device.restartWork (d : Device) (j : JobId) (x : Job) : Device :=
  let d1 := d.dropUnit j
  match j, x.op with
  | .hinge, 12 => d1.exportWork
  | .keyway, 4 => d1.attestSign x
  | _, _ => d1.jobWork j x.plan

/-- Hinge work has lost its working state. -/
def Device.workLost (d : Device) (j : JobId) : Bool :=
  match d.job j with
  | some x => x.failed && (match x.phase with
    | .working _ => true
    | _ => false)
  | none => false

/-- HINGE_WORK_RESTART (R65): every work that has lost its working state. -/
def execHingeWorkRestart (s : State) : Host.Outcome State Fault Refusal :=
  run s (jobIds.any s.dev.workLost) (jobIds.foldl (fun d j => match d.job j with
    | some x => if d.workLost j then d.restartWork j x else d
    | none => d) s.dev)

/-! ### The rows of the beat -/

/-- A patch that drains does not count the beats in which shedding stops dispatch (R395). -/
def Device.holdDeadline (d : Device) : Device :=
  match d.mc.pass with
  | some p =>
    if p.drain && p.step == 0 && 3 ≤ d.sc.stage then
      { d with mc := { d.mc with pass := some { p with deadline := (p.deadline + 1) % 2 ^ 48 } } }
    else d
  | none => d

/-- BEAT_EDGE with what waits on it: hinge work whose class has no engine left ends (R65), a hinge command that waits goes on, and so does an image
write that stage 3 held (R403). -/
def Device.edgeRow (d : Device) (beatB : Option (BitVec 48)) : Device :=
  (((d.workPoll.beatEdge beatB).holdDeadline).hingePoll).jobHasRead .interlock

/-- BEAT_EDGE (R180): once the strokes of the beat have ended, or as the first edge after the PLL has locked (R167). -/
def execBeatEdge (beatB : Option (BitVec 48)) (s : State) : Host.Outcome State Fault Refusal :=
  run s (s.dev.sc.tick == .ended && s.dev.power.engPll) (s.dev.edgeRow beatB)

/-- STROKE_END with hinge work (R65, R171). -/
def Device.strokeRow (d : Device) (errs : List StrokeError) : Device := jobIds.foldl Device.jobStroke (d.strokeEnd errs)

/-- STROKE_END (R171): after the freeze point of the beat. -/
def execStrokeEnd (errs : List StrokeError) (s : State) : Host.Outcome State Fault Refusal :=
  run s (s.dev.sc.tick == .frozen) (s.dev.strokeRow errs)

end Sys2Proof.Machine
end

