-- ==== Sys2Proof/Machine/Dma.lean ====
section
/-! DEFINITION. The two DMA engines: read data and its failures (R48, R49, R56, R57, R96, R233, R244), posted writes handed to the link or
failed (R50, R72, R83, R84, R113, R140, R459), and the turn record with its message (R113, R115, R120). -/

namespace Sys2Proof.Machine

/-! ### Reads -/

/-- The read with this tag that is issued on the link. -/
def Dma.issuedRead (k : Dma) (tag : Nat) : Option DmaRead := k.reads.find? fun r => r.tag == tag && r.issued

/-- The read leaves the list of reads, and waiting ones take its place (R57). -/
def Device.readOver (d : Device) (m tag : Nat) : Device :=
  (d.onDma m fun k => { k with reads := k.reads.filter fun r => r.tag != tag }).issueReads m

/-- One part of a turn's data has come. -/
def Turn.gotPart (t : Turn) (off : Nat) (bs : Bytes) : Turn := { t with parts := Map.set t.parts off bs, awaiting := t.awaiting - 1 }

/-- The whole program has come: decode (R96). -/
def Device.gotProg (d : Device) (slot : Nat) : Device :=
  match Map.get? d.turns slot with
  | some t => if t.awaiting = 0 ∧ t.phase = .progRead ∧ t.due.isNone then d.decodeTurn slot (readWords t.joined t.hdr.len) else d
  | none => d

/-- The whole cell of a LOAD has come (R48, R138): LOAD returns DONE. -/
def Device.gotLoad (d : Device) (slot : Nat) : Device :=
  match Map.get? d.turns slot with
  | some t =>
    if t.awaiting = 0 ∧ t.phase = .waitDma ∧ t.due.isNone then
      match t.prog[t.pc]? with
      | some z => ((d.onTurn slot fun t => { t.write z.dst t.joined with parts := [] }).cellWrite slot).returns slot St.done
      | none => d
    else d
  | none => d

/-- The blocks of the next stroke of a stream have come (R186, R244). -/
def Device.gotStream (d : Device) (slot : Nat) : Device :=
  match Map.get? d.turns slot with
  | some t =>
    (match t.op with
    | some o => if t.phase = .waitDma ∧ t.dataReady o then d.onTurn slot fun t => { t with phase := .ready } else d
    | none => d)
  | none => d

/-- A slice that arrives short or out of order (R233): source 24n + 19, and ENGINE_FAULT at the next edge. -/
def Device.sliceBad (d : Device) (slot : Nat) : Device :=
  let d1 := d.endDue slot St.engineFault
  match (Map.get? d.turns slot).bind Turn.home with
  | some n => (d1.tuEvt n 0x10).raiseSrc (24 * n + 19)
  | none => d1

/-- A part of a public-key slice has come: the parts follow one another (R233). -/
def Device.gotSlice (d : Device) (slot off : Nat) (bs : Bytes) : Device :=
  match Map.get? d.turns slot with
  | some t => if prefixLen t.parts 0 = off then d.onTurn slot fun t => t.gotPart off bs else d.sliceBad slot
  | none => d

/-- Where the data of a read goes (R48, R65, R84, R96). -/
def Device.readData (d : Device) (why : ReadWhy) (bs : Bytes) : Device :=
  match why with
  | .entries slots => (slots.zipIdx).foldl (fun d e => d.entryArrived e.1 (slice bs (128 * e.2) 128)) d
  | .prog s off => (d.onTurn s fun t => t.gotPart off bs).gotProg s
  | .load s off => (d.onTurn s fun t => t.gotPart off bs).gotLoad s
  | .stream s off => (d.onTurn s fun t => t.gotPart off bs).gotStream s
  | .slice s off => d.gotSlice s off bs
  | .job j off => (d.onJob j fun x => { x with parts := Map.set x.parts off bs, awaiting := x.awaiting - 1 }).jobHasRead j
  | .dlog l =>
    match (d.leaf l).dlog.upd with
    | u :: _ => d.writeReq 0 { pasid := none, addr := u.addr, data := leBytes (leNat bs ||| u.mask) 8, why := .dlog l }
    | [] => d
  | .dropped => d

/-! ### Dirty-log updates (R50, R83, R84) -/

/-- One write of a turn is visible or has failed: its record may follow (R50, R113). -/
def Device.writeEnded (d : Device) (slot bytes : Nat) : Device :=
  (d.onTurn slot fun t => { t with pendingW := t.pendingW - 1, stored := wrapAdd 32 t.stored bytes }).recordStep slot

/-- The update under way of a leaf's bitmap has ended: the turn that waits for it, the next update, a harvest that waits (R50, R84). -/
def Device.dlogEnded (d : Device) (l : Nat) : Device :=
  match (d.leaf l).dlog.upd with
  | [] => d
  | u :: rest =>
    let d1 := d.onLeaf l fun x => { x with dlog := { x.dlog with upd := rest, harvestLeft := x.dlog.harvestLeft - 1 } }
    let d2 := match u.slot with
      | some s => d1.writeEnded s 0
      | none => d1
    (d2.dlogStart l).hingeDlog l

/-! ### Read failures (R49) -/

/-- A read of a job has failed: its command ends with DMA_FAULT once its other reads have ended (R62). -/
def Device.jobReadFailed (d : Device) (j : JobId) : Device :=
  (d.onJob j fun x => { x with failed := true, awaiting := x.awaiting - 1 }).jobHasRead j

/-- What a failed read does to its requester (R49, R62, R96): a turn ends with the status at the next edge, a command with DMA_FAULT; an
update of a dirty bitmap is dropped. -/
def Device.readFailed (d : Device) (why : ReadWhy) (s : Status) : Device :=
  match why with
  | .entries slots => slots.foldl (fun d slot => d.onTurn slot fun t => ({ t with phase := .progRead } : Turn).setDue s) d
  | .prog slot _ | .load slot _ | .stream slot _ | .slice slot _ => d.onTurn slot fun t => t.setDue s
  | .job j _ => d.jobReadFailed j
  | .dlog l => d.dlogEnded l
  | .dropped => d

/-- A read has failed with an error: its event bit, the count, its source (R49, R56, R57). -/
def Device.readError (d : Device) (m bit : Nat) : Device :=
  ((d.onDma m fun k => { k with errcnt := satAdd 16 k.errcnt 1 }).dmaEvt m (2 ^ bit)).raiseSrc (1216 + 8 * m + bit)

/-- Fewer or more bytes than requested (R49): for a stream LENGTH_MISMATCH (R244); a short slice is R233's, a long one R49's (log entry 57). -/
def Device.wrongCount (d : Device) (m : Nat) (why : ReadWhy) (short : Bool) : Device :=
  let d1 := d.onDma m fun k => { k with errcnt := satAdd 16 k.errcnt 1 }
  match why with
  | .stream _ _ => d.readFailed why St.lengthMismatch
  | .slice slot _ => if short then d1.sliceBad slot else d1.readFailed why St.dmaFault
  | .dropped => d
  | _ => d1.readFailed why St.dmaFault

/-- The data of a read has come, of the length asked for or not (R48, R49). -/
def Device.readDone (d : Device) (m : Nat) (r : DmaRead) (bs : Bytes) : Device :=
  let d1 := d.readOver m r.tag
  if bs.length = r.len then d1.readData r.why bs else d1.wrongCount m r.why (bs.length < r.len)

/-- DMA_READ_COMPLETE (R48). -/
def execDmaReadComplete (m tag : Nat) (data : Bytes) (s : State) : Host.Outcome State Fault Refusal :=
  match (s.dev.dma m).issuedRead tag with
  | some r => run s (m < 2 && s.dev.linkUp m) (s.dev.readDone m r data)
  | none => run s false s.dev

/-- DMA_READ_ERROR (R49): Unsupported Request, Completer Abort, poisoned data, or a wrong byte count. -/
def Device.readErrorRow (d : Device) (m : Nat) (r : DmaRead) (kind : ReadError) : Device :=
  match kind with
  | .ur => ((d.readOver m r.tag).readError m 0).readFailed r.why St.dmaFault
  | .ca => ((d.readOver m r.tag).readError m 1).readFailed r.why St.dmaFault
  | .poison => ((d.readOver m r.tag).readError m 3).readFailed r.why St.dmaFault
  | .byteCount got => d.readDone m r got

/-- DMA_READ_ERROR (R49). -/
def execDmaReadError (m tag : Nat) (kind : ReadError) (s : State) : Host.Outcome State Fault Refusal :=
  match (s.dev.dma m).issuedRead tag with
  | some r => run s (m < 2 && s.dev.linkUp m) (s.dev.readErrorRow m r kind)
  | none => run s false s.dev

/-- DMA_COMPLETION_TIMEOUT (R49): the timeout runs from the first issue and goes on through a reissue. -/
def execDmaCompletionTimeout (m tag : Nat) (s : State) : Host.Outcome State Fault Refusal :=
  match (s.dev.dma m).reads.find? fun r => r.tag == tag && r.timed with
  | some r => run s (m < 2) (((s.dev.readOver m tag).readError m 2).readFailed r.why St.dmaFault)
  | none => run s false s.dev

/-! ### Records (R72, R113, R115) -/

/-- A turn is gone with its record written or lost: fenced turns of its queue are looked at again (R115), and a waiting DESTROY (R76). -/
def Device.turnGone (d : Device) (slot : Nat) (t : Turn) : Device :=
  ((({ d with turns := Map.erase d.turns slot } : Device).wakeFences t.leaf t.queue).joinFetch t.leaf t.queue).hingePoll

/-- The record is written: then the queue's message is sent (R8, R113). -/
def Device.recordWritten (d : Device) (slot : Nat) : Device :=
  match Map.get? d.turns slot with
  | some t => (d.leafMsi t.leaf (d.leaf t.leaf).module ((d.leaf t.leaf).queue t.queue).vector).turnGone slot t
  | none => d

/-- The record is lost (R72): RECORD_LOST, the queue number, the cause. Its completion slot is consumed. -/
def Device.recordLost (d : Device) (slot : Nat) : Device :=
  match Map.get? d.turns slot with
  | some t =>
    let d1 := d.onLeaf t.leaf fun x => { x with recLostQ := t.queue }
    ((d1.leafStatus t.leaf 0x10).leafCause t.leaf 0x80).turnGone slot t
  | none => d

/-! ### Writes (R459) -/

/-- One write of a job has ended. -/
def Device.jobWriteEnded (d : Device) (j : JobId) (ok : Bool) : Device :=
  (d.onJob j fun x => { x with awaiting := x.awaiting - 1, failed := x.failed || !ok }).jobHasWritten j

/-- A write of a turn's result. -/
def WriteWhy.ofTurn (w : WriteWhy) (slot : Nat) : Bool := w == .result slot

/-- A result write has failed (R113, R140): the later writes of the turn are dropped; an ended turn reports DMA_FAULT, a running one ends
with it at the next edge. -/
def Device.resultFailed (d : Device) (m slot : Nat) : Device :=
  let gone := ((d.dma m).writes.filter fun w => w.why.ofTurn slot).length
  let d1 := d.onDma m fun k => { k with writes := k.writes.filter fun w => !w.why.ofTurn slot }
  (d1.onTurn slot fun t =>
    let u := { t with pendingW := t.pendingW - 1 - gone }
    match u.ending with
    | some (_, pc) => { u with ending := some (St.dmaFault, pc) }
    | none => u.setDue St.dmaFault).recordStep slot

/-- What a write that has been handed to its link lets go on (R50, R84, R113). -/
def Device.writeDone (d : Device) (w : DmaWrite) : Device :=
  match w.why with
  | .result slot => d.writeEnded slot w.data.length
  | .record slot => d.recordWritten slot
  | .dlog l => d.dlogEnded l
  | .job j => d.jobWriteEnded j true

/-- What a failed write does (R72, R113, R140, R459). -/
def Device.writeFailed (d : Device) (m : Nat) (w : DmaWrite) : Device :=
  match w.why with
  | .result slot => d.resultFailed m slot
  | .record slot => d.recordLost slot
  | .dlog l => d.dlogEnded l
  | .job j => d.jobWriteEnded j false

/-- The head of the write queue leaves it. -/
def Device.popWrite (d : Device) (m : Nat) : Device := d.onDma m fun k => { k with writes := k.writes.tail }

/-- DMA_WRITE_HANDED (R459): the oldest queued write goes out. -/
def execDmaWriteHanded (m : Nat) (s : State) : Host.Outcome State Fault Refusal :=
  match (s.dev.dma m).writes with
  | w :: _ => run s (m < 2 && s.dev.linkUp m) (((s.dev.popWrite m).emit (.dmaWrite m w.pasid w.addr w.data)).writeDone w)
  | [] => run s false s.dev

/-- DMA_WRITE_FAIL (R459): the oldest queued write is dropped; WR_FAIL, the count and source 1216 + 8m + 5. -/
def execDmaWriteFail (m : Nat) (s : State) : Host.Outcome State Fault Refusal :=
  match (s.dev.dma m).writes with
  | w :: _ =>
    run s (m < 2)
      (((((s.dev.popWrite m).onDma m fun k => { k with errcnt := satAdd 16 k.errcnt 1 }).dmaEvt m 0x10).raiseSrc (1216 + 8 * m + 5)).writeFailed m w)
  | [] => run s false s.dev

end Sys2Proof.Machine
end

