-- ==== Sys2Proof/Machine/Links.lean ====
section
/-! DEFINITION. The UCIe modules (R37 to R46, R55 to R57), configuration space (R31, R40, R51) and the leaf vector table (R52, R53). -/

namespace Sys2Proof.Machine

/-! ### Link states -/

/-- The PHY and the configuration functions are out of reset: rails good, RST_N high (R42, R443). -/
def Device.running (d : Device) : Bool := d.power.boot != 0 && d.power.released

/-- A module that a Scrapped device does not train (R321). -/
def Device.trains (d : Device) (m : Nat) : Bool := m < 2 && !(d.scrapped && m == 1)

/-- Messages that waited for module m are sent (R44, R53, R459); a masked entry keeps its message pending. -/
def Device.sendWaiting (d : Device) (m : Nat) : Device :=
  let d1 := d.ul.lvt.foldl (fun d e =>
    if e.2.wait && (d.leaf (e.1 / 4)).module == m then
      let v := { e.2 with wait := false }
      if e.2.mask then { d with ul := { d.ul with lvt := Map.set d.ul.lvt e.1 { v with pend := true } } }
      else ({ d with ul := { d.ul with lvt := Map.set d.ul.lvt e.1 v } } : Device).emit (.msix m e.1 e.2.addr e.2.data)
    else d) d
  if m ≠ 0 then d1
  else d1.ul.msix.foldl (fun d e =>
    if e.2.wait then
      let v := { e.2 with wait := false }
      if e.2.mask then { d with ul := { d.ul with msix := Map.set d.ul.msix e.1 { v with pend := true } } }
      else ({ d with ul := { d.ul with msix := Map.set d.ul.msix e.1 v } } : Device).emit (.msix 0 e.1 e.2.addr e.2.data)
    else d) d1

/-- A retrain or a down is counted (R57). -/
def Link.counted (k : Link) : Link := { k with retrains := satAdd 16 k.retrains 1 }

/-- The module begins to train if its partner is there (R42). -/
def Device.beginTraining (d : Device) (m : Nat) : Device :=
  d.onLink m fun k => { k with state := if k.partner then .training else .reset }

/-- PARTNER_SIDEBAND_ACTIVE (R42): training starts. -/
def execPartnerSidebandActive (m : Nat) (s : State) : Host.Outcome State Fault Refusal :=
  let k := s.dev.link m
  run s (s.dev.trains m && s.dev.running && !k.partner)
    (s.dev.onLink m fun k => { k with partner := true, state := if k.state = .reset ∨ k.state = .downNoPartner then .training else k.state })

/-- NO_PARTNER_TIMEOUT (R42): DOWN_NO_PARTNER; the module keeps listening. -/
def execNoPartnerTimeout (m : Nat) (s : State) : Host.Outcome State Fault Refusal :=
  run s (s.dev.trains m && s.dev.running && !(s.dev.link m).partner && (s.dev.link m).state == .reset)
    (s.dev.onLink m fun k => { k with state := .downNoPartner })

/-- The greatest rate that the module tries (R57); 8 GT/s in a Scrapped device (R321). -/
def Device.topRate (d : Device) (m : Nat) : Nat := if d.scrapped || d.ca.lost.contains (calKey 0x0E m) then 2 else min 2 (d.link m).maxRate

/-- The module comes up (R37, R43, R44, R56, R57): rate, spare lanes, events; reads are issued again and waiting messages sent. -/
def Device.comeUp (d : Device) (m rate badTx badRx : Nat) : Device :=
  let k := d.link m
  let top := d.topRate m
  let got := max rate top
  let again := k.wasUp || k.retrains != 0
  let repaired := k.sparesTx < badTx || k.sparesRx < badRx
  let d1 := d.onLink m fun k => { k with state := .active, rate := got, sparesTx := badTx, sparesRx := badRx, wasUp := true }
  let d2 := d1.modEvt m (2 * b2n again + 4 * b2n (top < got) + 8 * b2n repaired)
  let d3 := d2.when (top < got) (·.raiseSrc (1184 + 16 * m + 2))
  let d4 := d3.when repaired (·.raiseSrc (1184 + 16 * m + 3))
  (d4.issueReads m).sendWaiting m

/-- Reads outstanding are abandoned, to be issued again after link up (R44). -/
def Dma.abandon (k : Dma) : Dma := { k with reads := k.reads.map fun r => { r with issued := false } }

/-- More failed lanes than lane repair can replace (R38): DOWN_REPAIR, and after a retrain the reads outstanding are abandoned (R44). -/
def Device.repairExhausted (d : Device) (m : Nat) : Device :=
  (((d.onLink m fun k => { k with state := .downRepair }).onDma m Dma.abandon).modEvt m 0x10).raiseSrc (1184 + 16 * m + 4)

/-- LINK_TRAINED (R37, R38): the highest common rate, and the failed lanes of each direction. With REPAIR_EN 0 lane repair is not allowed (R57), and
any failed lane leads to DOWN_REPAIR (DESIGN CHOICE of that state, log entry 98). -/
def execLinkTrained (m rate badTx badRx : Nat) (s : State) : Host.Outcome State Fault Refusal :=
  let k := s.dev.link m
  let fits := (k.repairEn && badTx ≤ 4 && badRx ≤ 4) || (badTx == 0 && badRx == 0)
  run s (m < 2 && rate < 3 && badTx ≤ 68 && badRx ≤ 68 && k.partner && (k.state == .training || k.state == .retrain))
    (if fits then s.dev.comeUp m rate badTx badRx else s.dev.repairExhausted m)

/-- A retrain from ACTIVE (R43, R56): it is counted and its source raised; what goes over the link waits. -/
def Device.retrain (d : Device) (m : Nat) : Device :=
  (d.onLink m fun k => ({ k with state := .retrain } : Link).counted).raiseSrc (1184 + 16 * m + 1)

/-- LINK_RETRAIN (R43): a partner starts a retrain. -/
def execLinkRetrain (m : Nat) (s : State) : Host.Outcome State Fault Refusal :=
  run s (m < 2 && s.dev.linkUp m) (s.dev.retrain m)

/-- LINK_DOWN (R44, R56): the module goes down and is counted (R57). R44 names no state: the model takes the partner as gone and enters
DOWN_NO_PARTNER, from which the partner's sideband trains it again (DESIGN CHOICE, log entry 98). -/
def execLinkDown (m : Nat) (s : State) : Host.Outcome State Fault Refusal :=
  run s (m < 2 && ((s.dev.link m).state == .active || (s.dev.link m).state == .retrain))
    (((((s.dev.onLink m fun k => ({ k with state := .downNoPartner, partner := false } : Link).counted).onDma m Dma.abandon).modEvt m 0x1)).raiseSrc
      (1184 + 16 * m))

/-- REPLAY_THRESHOLD (R56, R57). -/
def execReplayThreshold (m : Nat) (s : State) : Host.Outcome State Fault Refusal :=
  run s (m < 2 && s.dev.linkUp m) ((s.dev.modEvt m 0x20).raiseSrc (1184 + 16 * m + 5))

/-! ### UL_MOD_CTL (R38, R55, R57) -/

/-- UL_MOD_CTL.RETRAIN (R38, R43): from ACTIVE a retrain; from DOWN_REPAIR the module trains again. In any other state the write does nothing: no
rule says what it does there (DESIGN CHOICE, log entry 98). -/
def Device.retrainNow (d : Device) (m : Nat) : Device :=
  let k := d.link m
  match k.state with
  | .active => d.retrain m
  | .downRepair => (d.onLink m fun k => ({ k with state := .training } : Link).counted).raiseSrc (1184 + 16 * m + 1)
  | _ => d

/-- A leaf in ACTIVE, QUIESCING or QUIESCED is bound to module 1 (R55). -/
def Device.boundToOne (d : Device) : Bool := d.leaves.any fun e => e.2.module == 1 && e.2.serves

/-- UL_MOD_CTL.ENABLE of module 1 (R55). A module that is disabled does not count in UL_MOD_RETRAINS, since R55 names no down for it (DESIGN CHOICE,
log entry 98). -/
def Device.enableOne (d : Device) (on : Bool) : Device :=
  if on then
    if d.link1.enable then d
    else
      let d1 := d.onLink 1 fun k => { k with enable := true }
      if d1.link1.state = .disabled then d1.beginTraining 1 else d1
  else if !d.link1.enable then d
  else if d.boundToOne then d.modEvt 1 0x40
  else (d.onLink 1 fun k => { k with enable := false, state := .disabled }).onDma 1 Dma.abandon

/-- A write of UL_MOD_CTL of module m, field by field (R18, R57). -/
def Device.modCtl (d : Device) (m v : Nat) : Device :=
  let d1 := d.onLink m fun k => { k with repairEn := bitOf v 4, maxRate := field v 2 2 }
  let d2 := if bitOf v 1 then d1.retrainNow m else d1
  if m = 1 then d2.enableOne (bitOf v 0) else d2

/-- MODULE_RETRAIN (R43, R57): a write of UL_MOD_CTL of module m. -/
def execModuleRetrain (m : Nat) (value : Word) (s : State) : Host.Outcome State Fault Refusal :=
  run s (m < 2) (s.dev.hostDoAt (.link m) fun d => d.modCtl m value.toNat)

/-- MODULE_ENABLE_WRITE (R55): a write of UL_MOD_CTL of module 1. -/
def execModuleEnableWrite (value : Word) (s : State) : Host.Outcome State Fault Refusal :=
  run s true (s.dev.hostDoAt (.link 1) fun d => d.modCtl 1 value.toNat)

/-! ### Configuration space (R31, R39, R40, R47, R51, R360) -/

/-- The configuration requests of module m are answered (R40, R42, R321). -/
def Device.cfgServed (d : Device) (m : Nat) : Bool :=
  (d.link m).state == .active && d.trains m

/-- A configuration register of the function on module m: the vendor and part codes at 0 (R31, R39), else what the host wrote (PRESUMED
PCIe, log entry 14). -/
def Device.cfgValue (d : Device) (m reg : Nat) : Nat := if reg = 0 then 0x10007C3A else Map.getD (d.link m).cfg reg 0

/-- CONFIG_READ (R40): Retry Status until boot firmware has finished; none in the shackle state (R360). -/
def execConfigRead (m reg : Nat) (s : State) : Host.Outcome State Fault Refusal :=
  let d := s.dev
  run s (m < 2) (if !d.cfgServed m then d.unserved m
    else if d.power.boot ≠ 4 ∧ !d.shackled then d.emit .retryStatus
    else d.emit (.configData (word (d.cfgValue m reg))))

/-- A configuration write takes effect (R47, R51). -/
def Device.cfgWrite (d : Device) (m : Nat) : CfgWrite → Device
  | .msixEnable on => d.onLink m fun k => { k with msixEn := on }
  | .maxPayload n => d.onLink m fun k => { k with mps := min 512 (max 128 n) }
  | .other reg v => d.onLink m fun k => { k with cfg := Map.set k.cfg reg v.toNat }

/-- CONFIG_WRITE (R40, R51). -/
def execConfigWrite (m : Nat) (fld : CfgWrite) (s : State) : Host.Outcome State Fault Refusal :=
  let d := s.dev
  run s (m < 2) (if !d.cfgServed m then d.unserved m
    else if d.power.boot ≠ 4 ∧ !d.shackled then d.emit .retryStatus
    else d.cfgWrite m fld)

/-! ### The leaf vector table (R52, R53, R57) -/

/-- An entry of the leaf vector table. -/
def Device.vec (d : Device) (i : Nat) : Vec := Map.getD d.ul.lvt i {}

/-- The device with an entry set. -/
def Device.setVec (d : Device) (i : Nat) (v : Vec) : Device := { d with ul := { d.ul with lvt := Map.set d.ul.lvt i v } }

/-- A write of UL_LVT_INDEX loads the staging registers with the entry (R57). -/
def Device.lvtIndex (d : Device) (v : Nat) : Device :=
  let i := field v 0 14
  let e := d.vec i
  { d with ul := { d.ul with index := i, addrLo := field e.addr 0 32, addrHi := field e.addr 32 32, data := e.data } }

/-- A mask bit of the leaf vector table (R53): unmasking sends one message if the entry is pending, and clears the bit. -/
def Device.maskVec (d : Device) (i : Nat) (mask : Bool) : Device :=
  let e := d.vec i
  let d1 := d.setVec i { e with mask := mask, pend := e.pend && mask }
  if e.pend && !mask then d1.leafMsi (i / 4) (d.leaf (i / 4)).module (i % 4) else d1

/-- A write of UL_LVT_CTL (R53, R57): COMMIT writes the staged address and data, and MASK takes effect at once. -/
def Device.lvtCtl (d : Device) (v : Nat) : Device :=
  let i := d.ul.index
  let d1 := if bitOf v 2 then d.setVec i { d.vec i with addr := d.ul.addrLo / 4 * 4 + 2 ^ 32 * d.ul.addrHi, data := d.ul.data } else d
  d1.maskVec i (bitOf v 0)

/-- LVT_INDEX_WRITE (R57). -/
def execLvtIndexWrite (value : Word) (s : State) : Host.Outcome State Fault Refusal :=
  run s true (s.dev.hostDo fun d => d.lvtIndex value.toNat)

/-- LVT_COMMIT (R53). -/
def execLvtCommit (value : Word) (s : State) : Host.Outcome State Fault Refusal :=
  run s true (s.dev.hostDo fun d => d.lvtCtl value.toNat)

/-- LVT_MASK_WRITE (R53). -/
def execLvtMaskWrite (value : Word) (s : State) : Host.Outcome State Fault Refusal :=
  run s true (s.dev.hostDo fun d => d.lvtCtl value.toNat)

end Sys2Proof.Machine
end

