-- ==== Sys2Proof/Machine/Collector.lean ====
section
/-! DEFINITION. The fault collector: the configuration of its sources (R350, R352, R354, R361, R362, R383, R405, R423), what the checks
behind a source do to turns and leaves (R201, R217, R237, R254, R268, R269, R279, R299, R316, R351, R405), one event of raises
(R353 to R359), traps, ALIVE and the parity scan. -/

namespace Sys2Proof.Machine

/-! ### Configuration -/

/-- Reaction bits; INT to PIN as in FC_SRC_CFG (R363), then the shackle state. -/
def rxInt : Nat := 1
/-- TRAP. -/
def rxTrap : Nat := 2
/-- BLOCK. -/
def rxBlock : Nat := 4
/-- CHIP. -/
def rxChip : Nat := 8
/-- PIN. -/
def rxPin : Nat := 16
/-- The shackle state. -/
def rxShackle : Nat := 32

/-- An FC_SRC_CFG word of a severity and extra reactions (R363). -/
def cfgWord (sev extra : Nat) : Nat := 256 * sev + extra

/-- Default of source k of a tumbler (R362): none where R218 and R237 reserve it. -/
def tumblerDefault (k : Nat) : Option Nat :=
  if k ≤ 1 then some (cfgWord 0 0)
  else if k = 4 ∨ k = 6 then some (cfgWord 1 0)
  else if k = 12 then some (cfgWord 3 0)
  else if k = 15 ∨ 22 ≤ k then none
  else some (cfgWord 2 0)

/-- Default of source k of a bolt (R362). -/
def boltDefault (k : Nat) : Nat :=
  if k = 0 then cfgWord 0 0 else if k = 2 ∨ k = 9 then cfgWord 1 0 else if k = 11 then cfgWord 3 0 else cfgWord 2 0

/-- Default of a source of the engine arrays and vault memory, 960 to 1183 (R254, R279, R351, R362). -/
def arrayDefault (s : Nat) : Option Nat :=
  if s = 1001 then some (cfgWord 1 0)
  else if s = 1002 ∨ s = 1056 ∨ s = 1057 ∨ s = 1106 ∨ s = 1128 ∨ s = 1129 then some (cfgWord 3 0)
  else if s ≤ 1003 ∨ (1024 ≤ s ∧ s ≤ 1059) ∨ (1088 ≤ s ∧ s ≤ 1105) ∨ s = 1107 ∨ s = 1108 then some (cfgWord 2 0)
  else if s = 1120 ∨ s = 1121 then some (cfgWord 0 0)
  else if 1122 ≤ s ∧ s ≤ 1125 then some (cfgWord 2 0)
  else if s = 1126 ∨ s = 1127 then some (cfgWord 1 0)
  else none

/-- Default of a source of the link, scheduler, NV and entropy ranges, 1184 to 1391 (R56, R191, R299, R362, R383). -/
def fabricDefault (s : Nat) : Option Nat :=
  if s < 1216 then (let k := (s - 1184) % 16; if k ≤ 5 then some (cfgWord 1 0) else if k = 6 then some (cfgWord 2 rxBlock) else none)
  else if s < 1232 then (let k := (s - 1216) % 8; if k = 4 then some (cfgWord 2 rxBlock) else if k ≤ 5 then some (cfgWord 1 0) else none)
  else if s = 1232 then some (cfgWord 1 0)
  else if s = 1233 ∨ s = 1256 then some (cfgWord 0 0)
  else if s = 1253 then some (cfgWord 3 0)
  else if 1248 ≤ s ∧ s ≤ 1255 then some (cfgWord 2 rxChip)
  else if s = 1280 ∨ (1291 ≤ s ∧ s ≤ 1293) then some (cfgWord 0 0)
  else if s = 1281 ∨ s = 1285 ∨ s = 1290 then some (cfgWord 1 0)
  else if s = 1284 then some (cfgWord 3 0)
  else if 1282 ≤ s ∧ s ≤ 1289 then some (cfgWord 2 0)
  else if (1328 ≤ s ∧ s ≤ 1359) ∨ s = 1383 then some (cfgWord 0 0)
  else if s = 1375 ∨ s = 1380 ∨ s = 1381 ∨ s = 1384 then some (cfgWord 2 0)
  else if 1376 ≤ s ∧ s ≤ 1379 then some (cfgWord 3 0)
  else if 1360 ≤ s ∧ s ≤ 1385 then some (cfgWord 1 0)
  else none

/-- Default of a source from 1392 on (R362, R405, R423). -/
def deviceDefault (s : Nat) : Option Nat :=
  if s < 1424 ∨ s = 1424 ∨ s = 1430 ∨ s = 1435 ∨ s = 1442 ∨ s = 1471 ∨ s = 1488 ∨ s = 1490 ∨ (1494 ≤ s ∧ s ≤ 1496) then some (cfgWord 0 0)
  else if s = 1425 ∨ s = 1431 ∨ s = 1434 ∨ s = 1438 ∨ s = 1439 ∨ s = 1460 ∨ s = 1472 ∨ s = 1492 ∨ s = 1493 ∨ s = 1497 ∨
      (1524 ≤ s ∧ s ≤ 1531) then some (cfgWord 1 0)
  else if s = 1433 ∨ s = 1458 ∨ s = 1462 ∨ s = 1473 ∨ s = 1509 ∨ (1520 ≤ s ∧ s ≤ 1523) then some (cfgWord 3 0)
  else if s = 1436 ∨ s = 1437 then some (cfgWord 2 rxChip)
  else if s ≤ 1441 ∨ (1456 ≤ s ∧ s ≤ 1470) ∨ (1489 ≤ s ∧ s ≤ 1498) ∨ (1504 ≤ s ∧ s ≤ 1508) then some (cfgWord 2 0)
  else none

/-- The default FC_SRC_CFG word of a source without PARITY (R362); none where the source is reserved and never raised (R350). -/
def srcDefault (s : Nat) : Option Nat :=
  if s < 768 then tumblerDefault (s % 24)
  else if s < 960 then some (boltDefault ((s - 768) % 12))
  else if s < 1184 then arrayDefault s
  else if s < 1392 then fabricDefault s
  else deviceDefault s

/-- A source that a chapter assigns (R350). -/
def assigned (s : Nat) : Bool := (srcDefault s).isSome

/-- FC_SRC_CFG of a source without PARITY. -/
def Collector.cfgOf (c : Collector) (s : Nat) : Nat := Map.getD c.cfg s ((srcDefault s).getD 0)

/-- Reactions that a severity implies (R352). -/
def implied (sev : Nat) : Nat := nth [0, 1, 3, 51] sev 0

/-- The effective set of a source (R352); source 1520 enters the shackle state whatever its word holds (R361). -/
def Collector.effective (c : Collector) (s : Nat) : Nat :=
  let w := c.cfgOf s
  let e := implied (field w 8 2) ||| field w 0 5
  if s = 1520 then e ||| rxShackle else e

/-- A write of FC_SRC_CFG (R354, R363): fixed and reserved words drop it; BLOCK stays 0 where no block is named. -/
def Collector.setCfg (c : Collector) (s v : Nat) : Collector :=
  if 1520 ≤ s ∧ s ≤ 1523 ∨ 1532 ≤ s then c
  else
    let w := cfgWord (field v 8 2) (field v 0 5)
    { c with cfg := Map.set c.cfg s (if (blocksOf s).isEmpty then clearBits w rxBlock else w) }

/-! ### What stands behind a source -/

/-- The engine is one that a source of the shared arrays names (R254, R279, R405): for a source of the whole bank, digest or block range, every
engine that it serves. -/
def atFault (s : Nat) : EngineId → Bool
  | .tumbler _ | .bolt _ => false
  | .plainBarrel n => s == 960 + n / 8 || s == 1002 || s == 1003 || s == 1105 || s == 1107
  | .maskedBarrel n => s == 984 + n / 4 || s == 1000 || s == 1002 || s == 1003
  | .sha256 n => s == 1088 + n / 4 || s == 1003 || s == 1105 || s == 1107
  | .sha512 n => s == 1096 + n / 4 || s == 1003 || s == 1105 || s == 1107
  | .aes n => s == 1024 + n / 4 || s == 1056 || s == 1057 || s == 1059
  | .mult n => s == 1040 + n || s == 1059

/-- The turn that a raise names ends with ENGINE_FAULT at the next edge if it holds a stroke on an engine at fault (R217, R254, R279). Of several
engines behind one source, the hardware knows the one at fault. -/
def Device.arrayFault (d : Device) (r : Raise) : Device :=
  match r.slot with
  | some x =>
    if (Map.get? d.turns x).any fun t => t.op.any fun o => o.active && o.engines.any (atFault r.source) then d.endDue x St.engineFault else d
  | none => d

/-- Where the stripe or row of a raise lies in the store of a home engine (R201, R218, R269): as the raise says, if that can be, else the cells of
the turn that it names, else free space. -/
def Device.raisedSpot (d : Device) (e : EngineId) (r : Raise) : StoreSpot :=
  match r.spot, r.slot with
  | some x, _ => if d.spotOn e x then x else .free
  | none, some s => if d.homedOn e s then .cells [s] else .free
  | none, none => .free

/-- The turn that a raise names ends at the next edge where a condition holds of its slot. -/
def Device.endNamed (d : Device) (r : Raise) (s : Status) (p : Nat → Bool) : Device :=
  match r.slot with
  | some x => if p x then d.endDue x s else d
  | none => d

/-- The turns that hold a stroke on engines that a sequencer at fault drives end with ENGINE_FAULT (R405). -/
def Device.sequencerFault (d : Device) (p : Op → Bool) : Device :=
  d.abortTurns St.engineFault fun t => t.op.any fun o => o.active && p o

/-- A leaf's keyway is cleared with its counter as it stands (R316, R351). -/
def Device.dropKeyway (d : Device) (l : Nat) : Device :=
  d.onLeaf l fun x => { x with kw := { gen := x.kw.gen } }

/-- The context of a leaf that is not FREE is lost (R58, R351): its turns end, its keyway is cleared, it is QUIESCED with CONTEXT_LOST. -/
def Device.contextLost (d : Device) (l : Nat) : Device :=
  if (d.leaf l).state = .free then d
  else
    let d1 := (d.abortTurns St.memoryFault fun t => t.leaf == l).dropKeyway l
    (d1.onLeaf l fun x => { x with state := .quiesced, deadline := none }).leafCause l 0x200

/-- A check of a tumbler (R200, R201, R217, R218, R237): a fault of its datapath, generator or sequencer ends the turn whose stroke runs on it, and
source 24n + 20 the turn that holds the spill units too. -/
def Device.tumblerCheck (d : Device) (n k : Nat) (r : Raise) : Device :=
  let me : EngineId := .tumbler n
  let uncorrectable : Device := (d.onTu n fun x => { x with ue := satAdd 16 x.ue 1 }).tuEvt n 4
  match k with
  | 0 => (d.onTu n fun x => { x with ce := satAdd 16 x.ce 1 }).tuEvt n 1
  | 1 => (d.onTu n fun x => { x with rs := satAdd 16 x.rs 1 }).tuEvt n 2
  | 2 | 3 => uncorrectable.storeEnds me (d.raisedSpot me r)
  | 4 => uncorrectable
  | 6 => (d.onGen (.tumbler n) fun g => { g with starved := true }).tuEvt n 8
  | 12 => d
  | 20 => ((d.tuEvt n 0x10).strokeEnds me).endNamed r St.engineFault fun x => (Map.get? d.slots.spill x).isSome
  | _ => (d.tuEvt n 0x10).strokeEnds me

/-- A bolt's invariant has failed (R266): the turn whose stroke runs on it ends with INVARIANT_FAULT after its full count and releases nothing; on a
refused path, and for an operation that has none, no invariant is checked. -/
def Op.invariantRaised (o : Op) : Op :=
  if o.z.kind.guarded && statusClass o.result.status ≠ 1 then { o with result := { status := St.invariantFault } } else o

/-- A check of a bolt (R258, R266, R268, R269). Source 9 stands for starvation where the reseed is 65,536 beats overdue, else for a repeated word. -/
def Device.boltCheck (d : Device) (n k : Nat) (r : Raise) : Device :=
  let me : EngineId := .bolt n
  let uncorrectable : Device := (d.onBo n fun x => { x with ue := satAdd 16 x.ue 1 }).boEvt n 2
  match k with
  | 0 => (d.onBo n fun x => { x with ce := satAdd 16 x.ce 1 }).boEvt n 1
  | 1 => uncorrectable.storeEnds me (d.raisedSpot me r)
  | 2 => uncorrectable
  | 8 =>
    let d1 := (d.onBo n fun x => { x with invariants := satAdd 16 x.invariants 1 }).boEvt n 4
    match d.striker me with
    | some x => d1.onTurn x fun t => { t with op := t.op.map Op.invariantRaised }
    | none => d1
  | 9 =>
    if 65536 ≤ (d.bolt n).mask.overdue d.sc.beat then (d.onGen (.bolt n) fun g => { g with starved := true }).boEvt n 8
    else (d.boEvt n 0x10).strokeEnds me
  | _ => (d.boEvt n 0x10).strokeEnds me

/-- A check of the bank, the block array, the digest cores or vault memory (R254, R276, R279, R351). -/
def Device.arrayCheck (d : Device) (s : Nat) (r : Raise) : Device :=
  let bb (b : Nat) : Device := { d with bb := { d.bb with evt := d.bb.evt ||| b } }
  let bk (b : Nat) : Device := { d with bk := { d.bk with evt := d.bk.evt ||| b } }
  let dg (b : Nat) : Device := { d with dg := { d.dg with evt := d.dg.evt ||| b } }
  if s < 984 then (bb 1).arrayFault r
  else if s ≤ 1000 then (bb 2).arrayFault r
  else if s = 1001 then (bb 4).onGen .bank fun g => { g with starved := true }
  else if s ≤ 1003 then d.arrayFault r
  else if 1024 ≤ s ∧ s < 1040 ∨ s = 1056 then (bk 1).arrayFault r
  else if 1040 ≤ s ∧ s < 1056 then (bk 2).arrayFault r
  else if s = 1057 ∨ s = 1059 ∨ s = 1105 ∨ s = 1107 then d.arrayFault r
  else if s = 1106 then d.endNamed r St.engineFault fun x => (Map.get? d.turns x).any fun t => t.opWord.any fun z => z.kind == .cmpCt
  else if s = 1058 then (match r.slot with
    | some x => (bk 4).contextRotten x
    | none => bk 4)
  else if 1088 ≤ s ∧ s < 1104 then (dg 2).arrayFault r
  else if s = 1104 then (match r.slot with
    | some x => (dg 4).keySlotRotten x
    | none => dg 4)
  else if s = 1122 ∨ s = 1123 then (match r.leaf with
    | some l => d.contextLost l
    | none => d)
  else if s = 1124 ∨ s = 1125 then d.endNamed r St.memoryFault fun x => (Map.get? d.slots.spill x).isSome
  else d

/-- The turn in a slot has its micro-state in a trap frame. -/
def Device.framed (d : Device) (x : Nat) : Bool := (Map.get? d.turns x).any fun t => t.op.any fun o => o.frame.isSome

/-- What a raise from outside the model's own operations shows in the registers of its block (R315, R336, R384, R407, R424): the event bit that names
the source, and the count of the journal's corrections. -/
def Device.shown (d : Device) (s : Nat) : Device :=
  if s = 1280 then { d with nv := { d.nv with ce := satAdd 16 d.nv.ce 1 } }
  else if s = 1281 then { d with nv := { d.nv with rs := satAdd 16 d.nv.rs 1 } }
  else if s = 1282 then ({ d with nv := { d.nv with ue := satAdd 16 d.nv.ue 1 } } : Device).nvEvt 0x10
  else if s = 1283 ∨ s = 1284 then d.nvEvt 0x40
  else if s = 1285 then d.nvEvt 0x20
  else if s = 1287 then d.nvEvt 0x8
  else if s = 1290 then d.nvEvt 0x4
  else if s = 1291 then d.nvEvt 0x2
  else if s = 1428 ∨ s = 1429 then d.powerEvt 0x8
  else if s = 1431 ∨ s = 1432 then d.powerEvt 0x4
  else if 1436 ≤ s ∧ s ≤ 1439 then d.powerEvt 0x10
  else if s = 1442 then d.powerEvt 0x2
  else if s = 1459 then d.mcEvt 0x4
  else if s = 1461 then d.mcEvt 0x8
  else if s = 1488 then d.hsEvt 0x40
  else if s = 1490 then d.hsEvt 0x10
  else if s = 1492 then d.hsEvt 0x20
  else if s = 1493 then d.hsEvt 0x2
  else if s = 1504 ∨ s = 1505 then { d with kw := { d.kw with evt := d.kw.evt ||| 4 } }
  else d

/-- A check of the scheduler, the entropy block, the sequencers or the keyway (R184, R191, R299, R316, R390, R405). -/
def Device.deviceCheck (d : Device) (s : Nat) (r : Raise) : Device :=
  let seqAt (x : Nat) : Option Nat := ((Map.get? d.turns x).bind Turn.op).bind fun o => if o.active then o.seq o.engines else none
  if s = 1251 then ({ d with sc := { d.sc with evt := d.sc.evt ||| 2 } } : Device).endNamed r St.memoryFault d.framed
  else if s = 1252 then { d with sc := { d.sc with evt := d.sc.evt ||| 4 } }
  else if s = 1380 ∨ s = 1381 then (d.onNs fun n => { n with katBad := true }).nsEvt 0x100
  else if s = 1382 then d.onNs fun n => if n.window.isEmpty then { n with internal := n.internal.drop 1 } else { n with window := n.window.drop 1 }
  else if 1463 ≤ s ∧ s ≤ 1465 then d.sequencerFault fun o => o.cls = 2 || o.shape == .elastic
  else if 1466 ≤ s ∧ s ≤ 1468 then d.sequencerFault fun o => o.cls = 3
  else if s = 1469 then (match r.slot.bind seqAt with
    | some q => d.sequencerFault fun o => o.seq o.engines == some q
    | none => d)
  else if s = 1470 then d.endNamed r St.engineFault d.framed
  else if s = 1507 then (match r.leaf with
    | some l => d.dropKeyway l
    | none => d)
  else d.shown s

/-- What the check that raised a source does in its own domain. -/
def Device.check (d : Device) (r : Raise) : Device :=
  if r.source < 768 then d.tumblerCheck (r.source / 24) (r.source % 24) r
  else if r.source < 960 then d.boltCheck ((r.source - 768) / 12) ((r.source - 768) % 12) r
  else if r.source < 1184 then d.arrayCheck r.source r
  else d.deviceCheck r.source r

/-! ### One collector event (R353 to R357) -/

/-- Distinct numbers of a list, rising. -/
def distinct (l : List Nat) : List Nat := sortBy (fun s => [s]) (l.foldl insertNew [])

/-- The union of the effective sets. -/
def Collector.unionOf (c : Collector) (l : List Nat) : Nat := l.foldl (fun u s => u ||| c.effective s) 0

/-- The sources of a list whose effective set holds a reaction. -/
def Collector.holding (c : Collector) (l : List Nat) (rx : Nat) : List Nat := l.filter fun s => c.effective s &&& rx != 0

/-- The sticky bits of an event (R355, R356): set, FC_FIRST while every bit was clear, and FC_COUNT for bits already set. -/
def Collector.record (c : Collector) (srcs : List Nat) : Collector :=
  let repeats := (srcs.filter fun s => c.sticky.getLsbD s).length
  let c1 := if c.sticky = 0 then { c with firstValid := true, first := srcs.headD 0 } else c
  { c1 with sticky := srcs.foldl (fun w s => w ||| BitVec.ofNat 1536 (2 ^ s)) c.sticky, count := satAdd 16 c.count repeats }

/-- FC_EVT bits of an event, and its one message (R363). -/
def Device.fcMessage (d : Device) (bits : Nat) : Device :=
  if bits = 0 then d else ({ d with fc := { d.fc with evt := d.fc.evt ||| bits } } : Device).hingeMsi 0

/-- The reactions of an event that are not subsumed (R353, R357), for its sources and those of them newly set. -/
def Device.react (d : Device) (srcs news : List Nat) : Device :=
  let c := d.fc
  let all := c.unionOf srcs
  let fresh := c.unionOf news
  let int := b2n (fresh &&& rxInt != 0)
  if all &&& rxShackle ≠ 0 then
    let src := (c.holding srcs rxShackle).headD 0
    (if c.shackled then d else d.shackle src).fcMessage int
  else if all &&& rxChip ≠ 0 then
    ({ d with fc := { d.fc with causeSrc := (c.holding srcs rxChip).headD 0 } } : Device).chipReset .collector
  else
    let blocks := (c.holding srcs rxBlock).foldl (fun l s => (blocksOf s).foldl insertNew l) []
    let d1 := blocks.foldl Device.blockReset d
    let pin := all &&& rxPin ≠ 0
    let d2 := if pin then d1.stopAlive 2 else d1
    let traps := if c.shackled then [] else c.holding news rxTrap
    let d3 : Device := { d2 with fc := { d2.fc with traps := traps.foldl insertNew d2.fc.traps } }
    d3.fcMessage (int + 4 * b2n pin)

/-- One collector event: the checks behind the raises, the sticky bits, the union of the reactions once (R357). -/
def Device.event (d : Device) (raises : List Raise) : Device :=
  let d1 := raises.foldl Device.check d
  let srcs := distinct ((d1.fc.incoming ++ raises).map Raise.source)
  let news := srcs.filter fun s => !d1.fc.sticky.getLsbD s
  let d2 : Device := { d1 with fc := { d1.fc with incoming := [] }.record srcs }
  if srcs.isEmpty then d2 else d2.react srcs news

/-- The collector runs (R11, R442): from the first lock of the housekeeping PLL after a reset on, through a loss of that lock. -/
def Device.collects (d : Device) : Bool := d.power.hkPll || 2 ≤ d.power.boot

/-- FAULT_RAISE (R357): the raises of one collector cycle, those that other commands left included. -/
def execFaultRaise (raises : List Raise) (s : State) : Host.Outcome State Fault Refusal :=
  run s (s.dev.collects && raises.all fun r => assigned r.source) (s.dev.event raises)

/-! ### Traps (R353) -/

/-- The management core takes traps: its firmware runs and is not halted, restarting or stopped (R353). -/
def Device.coreRuns (d : Device) : Bool :=
  3 ≤ d.power.boot && !d.mc.halted && !d.fc.resets.contains .mgmt && !d.shackled

/-- TRAP_DELIVERY (R353): an evidence record for each pending trap; TRAP_DELIVERED. -/
def execTrapDelivery (s : State) : Host.Outcome State Fault Refusal :=
  let d := s.dev
  let d1 := d.fc.traps.foldl (fun d n => d.evidence 0x03 n [field (d.fc.cfgOf n) 8 2]) d
  run s (!d.fc.traps.isEmpty && d.coreRuns) { d1 with fc := { d1.fc with traps := [], evt := d1.fc.evt ||| 2 } }

/-! ### ALIVE (R358) -/

/-- A sticky source's effective set holds PIN. -/
def Collector.pinStuck (c : Collector) : Bool :=
  (List.range 1536).any fun s => c.sticky.getLsbD s && c.effective s &&& rxPin != 0

/-- ALIVE starts again after a PIN reaction (R358, R450). -/
def Device.restartAlive (d : Device) : Device :=
  if !d.fc.aliveStopped || d.fc.pinStuck then d
  else { d with fc := { d.fc with alive := d.power.boot == 4, aliveStopped := false }, lr := { d.lr with alarmActive := false } }

/-- ALIVE_RESTART (R358). -/
def execAliveRestart (s : State) : Host.Outcome State Fault Refusal :=
  run s true (s.dev.hostDoIn true Device.restartAlive)

/-- FC_PARITY_SCAN (R361): a word whose PARITY does not hold raises source 1520. -/
def execFcParityScan (bad : List Nat) (s : State) : Host.Outcome State Fault Refusal :=
  run s s.dev.power.hkPll (if bad.isEmpty then s.dev else s.dev.raiseSrc 1520)

end Sys2Proof.Machine
end

