-- ==== Sys2Proof/Machine/NvRows.lean ====
section
/-! DEFINITION. The NV controller's rows: journal commits (R367, R370 to R373, R377), evidence records (R379 to R381), user flash (R382)
and the MRAM scrub (R364, R378). -/

namespace Sys2Proof.Machine

/-! ### Line writes (R367) -/

/-- An MRAM write fails (R367): source 1287 and COMMIT_FAIL. -/
def Device.nvFault (d : Device) : Device := (d.raiseSrc 1287).nvEvt 0x8

/-- A line that its rewrites did not mend is relocated (R367): a remap entry is used, or with a full table the write fails. The flag
says whether it went through. -/
def Device.relocate (d : Device) : Device × Bool :=
  if d.nv.relocs < 16384 then
    ((({ d with nv := { d.nv with relocs := d.nv.relocs + 1 } } : Device).raiseSrc 1285).nvEvt 0x20, true)
  else ((d.raiseSrc 1286).nvFault, false)

/-- One line write: the device, and whether the line is written. -/
def Device.lineWrite (d : Device) (verifyFails : Bool) : Device × Bool := if verifyFails then d.relocate else (d, true)

/-! ### Commits (R370 to R373, R377) -/

/-- The budget does not hold back the next commit (R372): boot-time commits and those at stage 3 bypass it. -/
def Device.inBudget (d : Device) : Bool := 32 ≤ d.refill.nv.bucket || 3 ≤ d.power.applied || d.power.boot != 4

/-- The next commit may start (R370, R372). -/
def Device.mayCommit (d : Device) : Bool :=
  d.nv.ready && d.nv.current.isNone && !d.nv.inhibit && !d.shackled && d.inBudget && !d.nv.queue.isEmpty

/-- COMMIT_START (R367, R370, R372, R377): the head of the queue is under way, or it is refused or fails with NV_FAULT. -/
def Device.commitStart (d : Device) (verifyFails : Bool) : Device :=
  match d.nv.queue with
  | [] => d
  | c :: rest =>
    let d1 : Device := { d.refill with nv := { d.refill.nv with queue := rest } }
    if d1.lowers c.val then (d1.nvFault).commitResult c.why false
    else
      let (d2, ok) := d1.lineWrite verifyFails
      if ok then { d2 with nv := { d2.nv with current := some c, bucket := d2.nv.bucket - 32 } } else d2.commitResult c.why false

/-- COMMIT_START (R370). -/
def execCommitStart (verifyFails : Bool) (s : State) : Host.Outcome State Fault Refusal :=
  run s s.dev.mayCommit (s.dev.commitStart verifyFails)

/-- COMMIT_DURABLE (R370): the value takes effect and the requester is told. -/
def Device.commitDurable (d : Device) (c : Commit) : Device :=
  (({ d with nv := { d.nv with current := none } } : Device).applyCommit c.val).commitResult c.why true

/-- COMMIT_DURABLE (R370). -/
def execCommitDurable (s : State) : Host.Outcome State Fault Refusal :=
  match s.dev.nv.current with
  | some c => run s true (s.dev.commitDurable c)
  | none => run s false s.dev

/-! ### Evidence (R379 to R381) -/

/-- The line of an evidence record (R379). -/
def Evidence.bytes (e : Evidence) : Bytes :=
  let body := leBytes e.seq 4 ++ leBytes e.kind 1 ++ leBytes (b2n e.pinned + 2 * b2n e.backup) 1 ++ leBytes e.src 2 ++
    leBytes (if e.backup then 0 else e.beat) 6 ++ zeros 2 ++ leBytes e.boot 4 ++ leBytes e.rtc 6 ++ zeros 2 ++
    fit 32 (e.data.foldr (fun w r => leBytes w 4 ++ r) [])
  body ++ leBytes (crc32c body) 4

/-- The types that go to the pinned part (R380); a trap only of a Grave source. -/
def Device.pinnedType (d : Device) (e : Evidence) : Bool :=
  [1, 2, 4, 5, 6, 8].contains e.kind || (e.kind == 3 && field (d.fc.cfgOf e.src) 8 2 == 3)

/-- Writes a record into the ring (R380): a wrap raises source 1291. -/
def Device.ringRecord (d : Device) (e : Evidence) : Device :=
  let n := d.nv
  let at' := n.evHead % 12288
  let wraps := at' = 12287
  let d1 : Device := { d with nv := { n with evl := Map.set n.evl (4096 + at') { e with seq := n.evSeq % 2 ^ 32 }, evSeq := n.evSeq + 1,
                                             evHead := (at' + 1) % 12288, evWraps := satAdd 16 n.evWraps (b2n wraps) } }
  if wraps then (d1.raiseSrc 1291).nvEvt 0x2 else d1

/-- Writes a record into the pinned part while it has room, else into the ring with source 1290 (R380). -/
def Device.pinnedRecord (d : Device) (e : Evidence) : Device :=
  let n := d.nv
  if n.evPinned < 4096 then
    { d with nv := { n with evl := Map.set n.evl n.evPinned { e with seq := n.evSeq % 2 ^ 32, pinned := true }, evSeq := n.evSeq + 1,
                            evPinned := n.evPinned + 1 } }
  else ((d.ringRecord e).raiseSrc 1290).nvEvt 0x4

/-- EVIDENCE_RECORD_WRITE (R367, R379, R380): the oldest waiting record. -/
def Device.evidenceWrite (d : Device) (e : Evidence) (verifyFails : Bool) : Device :=
  let d1 : Device := { d with nv := { d.nv with evq := d.nv.evq.tail } }
  let (d2, ok) := d1.lineWrite verifyFails
  if !ok then d2 else if d2.pinnedType e then d2.pinnedRecord e else d2.ringRecord e

/-- EVIDENCE_RECORD_WRITE (R379): behind any commit under way. -/
def execEvidenceRecordWrite (verifyFails : Bool) (s : State) : Host.Outcome State Fault Refusal :=
  match s.dev.nv.evq with
  | e :: _ => run s (!s.dev.nv.inhibit && s.dev.nv.current.isNone && (s.dev.nv.ready || s.dev.shackled)) (s.dev.evidenceWrite e verifyFails)
  | [] => run s false s.dev

/-- NV_EVL_INDEX (R381): NV_EVL_DATA takes the line as stored; a line never written reads 0 (log entry 17). -/
def Device.evlIndex (d : Device) (v : Nat) : Device :=
  let i := field v 0 14
  let bs := match Map.get? d.nv.evl i with
    | some e => e.bytes
    | none => zeros 64
  { d with nv := { d.nv with evIndex := i, evData := (List.range 16).map fun j => u32 bs (4 * j) } }

/-- EVL_INDEX_WRITE (R381). -/
def execEvlIndexWrite (value : Word) (s : State) : Host.Outcome State Fault Refusal :=
  run s true (s.dev.hostDo fun d => d.evlIndex value.toNat)

/-! ### User flash (R382) -/

/-- NV_UF_CTL.READ (R382): the buffer takes the line; with an uncorrectable line UE is set, source 1282 is raised (R378), and the buffer
holds free values. -/
def Device.ufRead (d : Device) (ue : Bool) : Device :=
  if ue then
    let (bs, d1) := d.draw 64
    (({ d1 with nv := { d1.nv with ufUe := true, ufBusy := 0, ue := satAdd 16 d1.nv.ue 1,
                                   ufBuf := (List.range 16).map fun j => u32 bs (4 * j) } } : Device).raiseSrc 1282).nvEvt 0x10
  else
    let bs := d.perm.flash.readN (64 * d.nv.ufLine) 64
    { d with nv := { d.nv with ufUe := false, ufBusy := 0, ufBuf := (List.range 16).map fun j => u32 bs (4 * j) } }

/-- UF_READ (R382). -/
def execUfRead (ue : Bool) (s : State) : Host.Outcome State Fault Refusal :=
  run s true (s.dev.hostDo fun d => d.ufRead ue)

/-- The line of the buffer (R382). -/
def Nv.ufBytes (n : Nv) : Bytes := n.ufBuf.foldr (fun w r => leBytes w 4 ++ r) []

/-- NV_UF_CTL.WRITE (R367, R382): the buffer is written to the line and verified. -/
def Device.ufWrite (d : Device) (verifyFails : Bool) : Device :=
  let (d1, ok) := d.lineWrite verifyFails
  let d2 : Device := { d1 with nv := { d1.nv with ufBusy := 0 } }
  if ok then { d2 with perm := { d2.perm with flash := d2.perm.flash.writeN (64 * d2.nv.ufLine) d2.nv.ufBytes } } else d2

/-- UF_WRITE (R382): a host write of NV_UF_CTL.WRITE, or the transfer of one that waits (BUSY 1). MRAM writes wait while the supply
inhibits them (R370). -/
def execUfWrite (verifyFails : Bool) (s : State) : Host.Outcome State Fault Refusal :=
  if s.dev.nv.ufBusy = 2 then runPerm s (!s.dev.nv.inhibit && !s.dev.shackled) (s.dev.ufWrite verifyFails)
  else runPerm s true (s.dev.hostDo fun d => if d.nv.inhibit then { d with nv := { d.nv with ufBusy := 2 } } else d.ufWrite verifyFails)

/-! ### The MRAM scrub (R364, R378) -/

/-- What a line that neither code can correct does to the owner of its region (R378, R427); the staging copies of sections stay (R392). -/
def Device.lostLine (d : Device) (line : Nat) : Device :=
  let a := 64 * line
  let drop (f : McClass → McClass) : Device := { d with mc := { d.mc with classes := d.mc.classes.map f } }
  if a < 0x200000 then { d with mc := { d.mc with verA := none } }
  else if a < 0x400000 then { d with mc := { d.mc with verB := none } }
  else if a < 0x500000 then drop fun c => { c with verA := none }
  else if a < 0x600000 then drop fun c => { c with verB := none }
  else if a < 0x640000 then { d with ca := d.ca.loseLine false ((a - 0x600000) / 64) }
  else if a < 0x680000 then { d with ca := d.ca.loseLine true ((a - 0x640000) / 64) }
  else if a < 0x690000 then { d with kw := { d.kw with blobBad := true } }
  else d

/-- A line of the journal or the evidence log, whose loss raises no source 1282 (R378). -/
def ownLine (line : Nat) : Bool := 0x800000 ≤ 64 * line && 64 * line < 0xD00000

/-- One group of a scrub pass (R365 to R367, R378): it is rewritten; a line that has needed the outer code is relocated, as one whose rewrite
fails is. -/
def Device.scrubGroup (d : Device) (result : EccResult) (line : Nat) (rewriteFails : Bool) : Device :=
  match result with
  | .clean => d
  | .corrected => (((({ d with nv := { d.nv with ce := satAdd 16 d.nv.ce 1 } } : Device).raiseSrc 1280).lineWrite rewriteFails).1)
  | .outerCorrected => (((({ d with nv := { d.nv with rs := satAdd 16 d.nv.rs 1 } } : Device).raiseSrc 1281).relocate).1)
  | .uncorrectable =>
    let d1 : Device := { d with nv := { d.nv with ue := satAdd 16 d.nv.ue 1 } }
    if ownLine line then d1 else ((d1.raiseSrc 1282).nvEvt 0x10).lostLine line

/-- The pass goes on to the next of its 65,536 groups; after the last one it ends (R378, R384). -/
def Device.scrubNext (d : Device) : Device :=
  if 65535 ≤ d.nv.scrubLine then
    ({ d with nv := { d.nv with scrubActive := false, scrubLine := 0, scrubPasses := satAdd 16 d.nv.scrubPasses 1 } } : Device).nvEvt 0x1
  else { d with nv := { d.nv with scrubLine := d.nv.scrubLine + 1 } }

/-- MRAM_SCRUB_GROUP (R378): not while stage 3 pauses the pass (R403). -/
def execMramScrubGroup (result : EccResult) (line : Nat) (rewriteFails : Bool) (s : State) : Host.Outcome State Fault Refusal :=
  run s (s.dev.nv.scrubActive && !s.dev.nv.inhibit && s.dev.power.applied < 3) ((s.dev.scrubGroup result line rewriteFails).scrubNext)

end Sys2Proof.Machine
end

