-- ==== Sys2Proof/Machine/Supply.lean ====
section
/-! DEFINITION. Supplies, shedding and the backup cell (R340, R374, R408 to R424): the sensed and the thermal stage, the loss and return
of rails, hand-over to VBAT and the always-on island, RST_N, and the PLLs. -/

namespace Sys2Proof.Machine

/-! ### Leaving and entering reset -/

/-- The rail and clock sensors are disarmed or armed, and their windows cleared (R340). -/
def Tamper.arm (t : Tamper) (on : Bool) : Tamper :=
  { t with srcs := t.srcs.zipIdx.map fun e => if 8 ≤ e.2 ∧ e.2 < 18 then { e.1 with armed := on, count := 0, openW := false } else e.1 }

/-- The sensors are armed once every main rail is good and the engine PLL has locked (R340). -/
def Device.armMain (d : Device) : Device :=
  if d.power.railsGood && d.power.engPll && d.tp.srcs.any fun x => !x.armed then { d with tp := d.tp.arm true } else d

/-- The internal reset is released once R409 is met. -/
def Device.leaveReset (d : Device) : Device :=
  if d.power.boot = 0 ∧ d.power.released then { d with power := { d.power with boot := 1 } } else d

/-- Stage 4 (R370, R409, R417): a CHIP reset; the tamper monitors learn that main power is going down (R340). -/
def Device.stage4 (d : Device) : Device :=
  let d1 := d.chipReset .stage4
  { d1 with tp := d1.tp.arm false, power := { d1.power with boot := 0 } }

/-- A loss of supply cuts the commit under way in a cycle of R370 (R374): the old value, a tail line that the next boot discards, or the
new value. A line whose write had begun raises source 1292 (R416). -/
def Device.cutCommit (d : Device) (cycle : Nat) : Device :=
  match d.nv.current with
  | none => d
  | some c =>
    let d1 : Device := { d with nv := { d.nv with current := none } }
    if cycle < 40 then d1
    else if 800 ≤ cycle then d1.commitNow c.val
    else
      let d2 := d1.raiseSrc 1292
      if cycle < 360 then
        { d2 with nv := { d2.nv with tailCut := !(d2.nv.records c.val).isEmpty, journal := Map.erase d2.nv.journal ((d2.nv.seq + 1) % 65536) } }
      else d2.commitNow c.val

/-! ### VDD_CORE (R411) -/

/-- The threshold of a sensed stage in mV (R411). -/
def stageBelow (k : Nat) : Nat := 725 - 10 * k

/-- The sensed stage after VDD_CORE has settled at `mv` (R411): entered below the threshold, left above it plus 10 mV. -/
def sensedAt (old mv : Nat) : Nat :=
  [1, 2, 3, 4].foldl (fun s k => if mv < stageBelow k ∨ (k ≤ old ∧ mv ≤ stageBelow k + 10) then k else s) 0

/-- VCORE_STAGE_CHANGE (R370, R411, R412, R416, R417): below 0.685 V the commit under way is cut at a cycle that the spec leaves open, a
free value. -/
def Device.vcore (d : Device) (mv : Nat) : Device :=
  let old := d.power.sensed
  let new := sensedAt old mv
  let d1 : Device := { d with power := { d.power with mv := mv, sensed := new, core := new != 4 }, nv := { d.nv with inhibit := mv < 685 } }
  if new = 4 ∧ old ≠ 4 then
    let (bs, d2) := d1.draw 2
    (d2.cutCommit (leNat bs % 800)).stage4
  else if old = 4 ∧ new ≠ 4 then ({ d1 with power := { d1.power with applied := new } } : Device).leaveReset
  else if d.power.boot = 0 then { d1 with power := { d1.power with applied := new } }
  else d1.restage

/-- VCORE_STAGE_CHANGE (R411). -/
def execVcoreStageChange (mv : Nat) (s : State) : Host.Outcome State Fault Refusal := run s (!s.dev.power.off) (s.dev.vcore mv)

/-! ### Temperature (R418, R419) -/

/-- The limits in force (R424): WARN that is not below CRIT acts as CRIT − 10. -/
def Power.limit (p : Power) (k : Nat) : Int :=
  match k with
  | 2 => if p.warn < p.crit then (p.warn : Int) else (p.crit : Int) - 10
  | 3 => p.crit
  | _ => 120

/-- The thermal stage after a sample (R419): entered at or above its limit, left 5 °C below it. -/
def Power.thermalAt (p : Power) (t : Int) : Nat :=
  [2, 3, 4].foldl (fun s k => if p.limit k ≤ t ∨ (k ≤ p.thermal ∧ p.limit k - 5 ≤ t) then k else s) 0

/-- THERMAL_SAMPLE (R417 to R419): every stage that is entered raises its source; TRIP is a stage 4. -/
def Device.thermal (d : Device) (t : Int) : Device :=
  let old := d.power.thermal
  let new := d.power.thermalAt t
  let d1 : Device := { d with power := { d.power with tempNow := t, tempMax := max d.power.tempMax t, thermal := new } }
  let d2 := [2, 3, 4].foldl (fun d k => if old < k ∧ k ≤ new then (d.raiseSrc (1429 + k)).when (k ≤ 3) (·.powerEvt 4) else d) d1
  if new = 4 ∧ old ≠ 4 then d2.stage4
  else if old = 4 ∧ new ≠ 4 then d2.leaveReset
  else if d.power.boot = 0 then d2
  else d2.restage

/-- THERMAL_SAMPLE (R419). -/
def execThermalSample (celsius : Int) (s : State) : Host.Outcome State Fault Refusal := run s (!s.dev.power.off) (s.dev.thermal celsius)

/-! ### The other rails (R409) -/

/-- A rail leaves good: stage 4 at once (R409, R417, R423). -/
def Device.railLoss (d : Device) (r : Rail) : Device :=
  match r with
  | .sram => ((({ d with power := { d.power with sram := false } } : Device).raiseSrc 1428).powerEvt 8).stage4
  | .ucie => ((({ d with power := { d.power with ucie := false } } : Device).raiseSrc 1429).powerEvt 8).stage4
  | .io => ({ d with power := { d.power with io := false } } : Device).stage4

/-- The rail is good. -/
def Power.railGood (p : Power) : Rail → Bool
  | .sram => p.sram
  | .ucie => p.ucie
  | .io => p.io

/-- RAIL_LOSS (R409). -/
def execRailLoss (rail : Rail) (s : State) : Host.Outcome State Fault Refusal :=
  run s (!s.dev.power.off && s.dev.power.railGood rail) (s.dev.railLoss rail)

/-- RAILS_GOOD (R340, R409): every main rail is good; reset is released, and with the engine PLL locked the sensors are armed. -/
def execRailsGood (s : State) : Host.Outcome State Fault Refusal :=
  let d := s.dev
  run s (!d.power.off && d.power.core && !d.aon.dead)
    (({ d with power := { d.power with sram := true, ucie := true, io := true } } : Device).leaveReset.armMain)

/-! ### The always-on island (R420 to R422) -/

/-- Everything that the always-on island holds is lost (R410, R420, R422). -/
def Device.aonLost (d : Device) : Device :=
  { d with aon := { tamperIn := d.aon.tamperIn, dead := true, por := false, owed := [] }, tp := {},
           fc := { d.fc with sticky := 0, firstValid := false, first := 0, causeSrc := 0, cause := 0, shValid := false, shSrc := 0, shackled := false },
           kw := { d.kw with valid := false, root := [], seeds := [] } }

/-- The island runs on VBAT from now on (R421): it carries everything over, and source 1430 is due at the next boot. -/
def Device.onVbat (d : Device) : Device :=
  { d with aon := { d.aon with onBackup := true, backupSeen := true, owed := insertNew d.aon.owed 1430 } }

/-- HANDOVER_TO_VBAT (R417, R421): VDD_IO leaves good, which is stage 4, and the island moves to VBAT. -/
def Device.handover (d : Device) : Device :=
  (if d.power.io && !d.power.off then d.railLoss .io else { d with power := { d.power with io := false } }).onVbat

/-- HANDOVER_TO_VBAT (R421). -/
def execHandoverToVbat (s : State) : Host.Outcome State Fault Refusal :=
  run s (s.dev.power.vbat && !s.dev.aon.onBackup && !s.dev.aon.dead) s.dev.handover

/-- HANDBACK_TO_VDD_IO (R421): VDD_IO has been good for 1 ms. -/
def execHandbackToVddIo (s : State) : Host.Outcome State Fault Refusal :=
  let d := s.dev
  run s d.aon.onBackup
    (({ d with aon := { d.aon with onBackup := false }, power := { d.power with io := true } } : Device).leaveReset)

/-- VBAT_LOW (R422): source 1434 is due at the next boot. -/
def execVbatLow (s : State) : Host.Outcome State Fault Refusal :=
  let d := s.dev
  run s (d.power.vbatOk && !d.aon.dead)
    { d with power := { d.power with vbatOk := false }, aon := { d.aon with vbatLow := true, owed := insertNew d.aon.owed 1434 } }

/-- AON_RETENTION_LOSS (R422): VBAT falls below its retention level while VDD_IO is absent, or VDD_IO leaves good without VBAT. -/
def Device.retentionLoss (d : Device) : Device :=
  let d1 := if d.power.io && !d.power.off then d.railLoss .io else d
  ({ d1 with power := { d1.power with io := false, vbat := false, vbatOk := false } } : Device).aonLost

/-- AON_RETENTION_LOSS (R422). -/
def execAonRetentionLoss (s : State) : Host.Outcome State Fault Refusal := run s (!s.dev.aon.dead) s.dev.retentionLoss

/-- AON_POWER_UP (R420): the first supply after both were absent, VBAT or VDD_IO. AON_POR, and source 1435 at the next boot. -/
def Device.aonUp (d : Device) (vbat : Bool) : Device :=
  { d with aon := { tamperIn := d.aon.tamperIn, onBackup := vbat, backupSeen := vbat }, tp := { lock := d.tp.lock },
           power := { d.power with io := d.power.io || !vbat, vbat := d.power.vbat || vbat, vbatOk := d.power.vbatOk || vbat } }

/-- AON_POWER_UP (R420). -/
def execAonPowerUp (vbat : Bool) (s : State) : Host.Outcome State Fault Refusal := run s s.dev.aon.dead (s.dev.aonUp vbat)

/-! ### Power cycles (R410) -/

/-- POWER_LOSS (R374, R410): VDD_CORE falls below its power-on-reset level; every volatile state is lost. Where VDD_IO falls too, the island
lives on VBAT or is lost. -/
def Device.powerLoss (d : Device) (ioFalls : Bool) (cycle : Nat) : Device :=
  let d1 := (d.cutCommit cycle).chipReset .powerUp
  let d2 : Device := { d1 with power := { d1.power with off := true, core := false, mv := 0, sensed := 0, thermal := 0, applied := 0, boot := 0 },
                               tp := d1.tp.arm false, vault := [], hs := { d1.hs with rights := 0 } }
  if !ioFalls || !d2.power.io then d2
  else
    let d3 : Device := { d2 with power := { d2.power with io := false } }
    if d3.power.vbat then d3.onVbat else d3.aonLost

/-- POWER_LOSS (R410). -/
def execPowerLoss (ioFalls : Bool) (commitCycle : Nat) (s : State) : Host.Outcome State Fault Refusal :=
  run s (!s.dev.power.off) (s.dev.powerLoss ioFalls commitCycle)

/-- POWER_UP (R333, R360, R410): VDD_CORE returns, at its nominal level (log entry 9); rights and SHACKLED are cleared, FC_SHACKLE stays. -/
def Device.powerUp (d : Device) : Device :=
  let d1 : Device := { d with power := { d.power with off := false, core := true, mv := 750 }, fc := { d.fc with shackled := false },
                              hs := { d.hs with rights := 0 }, jt := {} }
  (d1.chipReset .powerUp).leaveReset

/-- POWER_UP (R410). -/
def execPowerUp (s : State) : Host.Outcome State Fault Refusal := run s s.dev.power.off s.dev.powerUp

/-! ### RST_N and CHIP reset (R353, R443) -/

/-- RST_N goes low (R443): a CHIP reset while the device has power. -/
def Device.rstAssert (d : Device) : Device :=
  let d1 : Device := { d with power := { d.power with rstN := false } }
  if d.power.off then d1 else d1.chipReset .rstN

/-- RST_N_ASSERT (R370, R443). -/
def execRstNAssert (s : State) : Host.Outcome State Fault Refusal := run s s.dev.power.rstN s.dev.rstAssert

/-- RST_N_RELEASE (R409, R443): the housekeeping PLL starts once the rails are good. -/
def execRstNRelease (s : State) : Host.Outcome State Fault Refusal :=
  run s (!s.dev.power.rstN) (({ s.dev with power := { s.dev.power with rstN := true } } : Device).leaveReset)

/-- CHIP_RESET (R353): a CHIP reset from any cause. -/
def execChipReset (cause : ResetCause) (s : State) : Host.Outcome State Fault Refusal :=
  run s (!s.dev.power.off) (s.dev.chipReset cause)

/-! ### PLLs (R11, R167, R423) -/

/-- HOUSEKEEPING_PLL_LOCK (R11): the management core, the collector and the sensors run. -/
def execHousekeepingPllLock (s : State) : Host.Outcome State Fault Refusal :=
  run s (1 ≤ s.dev.power.boot && !s.dev.power.hkPll) { s.dev with power := { s.dev.power with hkPll := true } }

/-- ENGINE_PLL_LOCK (R167, R340): the beat timebase counts, and the rail and clock sensors are armed. -/
def execEnginePllLock (s : State) : Host.Outcome State Fault Refusal :=
  run s (1 ≤ s.dev.power.boot && s.dev.power.hkPll && !s.dev.power.engPll)
    (({ s.dev with power := { s.dev.power with engPll := true } } : Device).armMain)

/-- PLL_LOCK_LOSS (R423, R424): the source and PW_EVT.PLL; a UCIe module retrains. -/
def Device.pllLost (d : Device) (p : Pll) : Device :=
  match p with
  | .engine => ((({ d with power := { d.power with engPll := false } } : Device).raiseSrc 1436).powerEvt 0x10)
  | .housekeeping => ((({ d with power := { d.power with hkPll := false } } : Device).raiseSrc 1437).powerEvt 0x10)
  | .ucie m => (((if d.linkUp m then d.retrain m else d).raiseSrc (1438 + m)).powerEvt 0x10)

/-- The PLL is locked: a UCIe PLL is, once the module trains. -/
def Device.pllLocked (d : Device) : Pll → Bool
  | .engine => d.power.engPll
  | .housekeeping => d.power.hkPll
  | .ucie m => m < 2 && 1 ≤ d.power.boot && d.power.hkPll

/-- PLL_LOCK_LOSS (R423). -/
def execPllLockLoss (pll : Pll) (s : State) : Host.Outcome State Fault Refusal := run s (s.dev.pllLocked pll) (s.dev.pllLost pll)

end Sys2Proof.Machine
end

