-- ==== Sys2Proof/Machine/Boot.lean ====
section
/-! DEFINITION. Start-up: the boot ROM (R318, R325, R328, R393), boot firmware (R77, R312, R329, R338, R346, R347, R374, R375, R393, R394,
R423), its end (R40, R358, R363), and the release of a block from its BLOCK reset (R299, R354, R397). -/

namespace Sys2Proof.Machine

/-! ### The boot ROM -/

/-- The row repair (R318): source 1488 where a row is burned. -/
def Device.repairRows (d : Device) : Device :=
  let p := d.perm.repair
  if p = d.perm then d else (({ d with perm := p } : Device).raiseSrc 1488).hsEvt 0x40

/-- The wipe steps of a resumed transition, up to one whose check fails for the third time (R322, R325). -/
def Device.wipeAll (d : Device) (target : Nat) (fails : Option Nat) : Device :=
  ((wipeSteps target).takeWhile fun k => fails != some k).foldl Device.wipe d

/-- The wipe of this target meets the step whose check fails. -/
def wipeStops (target : Nat) (fails : Option Nat) : Bool := (wipeSteps target).any fun k => fails == some k

/-- A firmware bank that the boot ROM may run (R393): the higher valid version that is not below the counter, bank A of equal ones. -/
def Device.chooseFw (d : Device) : Option Nat :=
  let ok (v : Option Nat) : Option Nat := v.filter fun n => d.nv.fwVer ≤ n
  match ok d.mc.verA, ok d.mc.verB with
  | some a, some b => if a < b then some 1 else some 0
  | some _, none => some 0
  | none, some _ => some 1
  | none, none => none

/-- The boot ROM hands over (R321, R393): to the chosen firmware bank; or it serves itself, in a Scrapped device and, with source 1458,
where no bank qualifies. -/
def Device.romHandOver (d : Device) : Device :=
  let serve : Device := { d with power := { d.power with boot := 4 }, mc := { d.mc with romOnly := !d.scrapped } }
  if d.scrapped then serve
  else match d.chooseFw with
    | some b => { d with power := { d.power with boot := 2 }, mc := { d.mc with bank := b } }
    | none => serve.raiseSrc 1458

/-- BOOT_ROM_START (R318, R325, R328, R393): rows are repaired; an odd value is wiped from step 1 and burned even, but not before the power
cycle that ends the shackle state; a wipe or a burn that fails stops here. -/
def Device.romBoot (d : Device) (fails : Option Nat) (rows : Nat) : Device :=
  let d1 := d.repairRows
  if d1.hasp % 2 = 0 ∨ d1.shackled then d1.romHandOver
  else
    let target := d1.hasp + 1
    let d2 := ((d1.raiseSrc 1490).hsEvt 0x10).wipeAll target fails
    if wipeStops target fails then d2.raiseSrc 1491
    else
      let d3 := d2.evenBurn { target := target, ticket := 0, step := 9 } rows
      if rows < 3 then d3 else d3.romHandOver

/-- BOOT_ROM_START (R325, R327): an even burn waits for stage 0 or 1. -/
def execBootRomStart (wipeFails : Option Nat) (rows : Nat) (s : State) : Host.Outcome State Fault Refusal :=
  let d := s.dev
  runPerm s (d.power.boot == 1 && d.power.hkPll && (d.repairRows.hasp % 2 == 0 || d.shackled || d.power.applied ≤ 1)) (d.romBoot wipeFails rows)

/-! ### The journal at boot (R374, R375, R77) -/

/-- The record of a counter with its value now (R368, R375). -/
def Device.recordOf (d : Device) (k : Nat) : JRec :=
  let n := d.nv
  let duplex (kind index value : Nat) : JRec := { kind := kind, index := index, value := value, second := k % 2 == 0 }
  let r : JRec :=
    if k < 4096 then leafRecord k (Map.getD n.cuts k 0) (Map.getD n.gens k 0) (n.lives.contains k)
    else if k = 4096 then { kind := 2, value := d.hs.boot }
    else if k < 4099 then duplex 3 0 n.fwVer
    else if k < 4107 then duplex 4 ((k - 4099) / 2) (nth n.patchVer ((k - 4099) / 2) 0)
    else duplex 5 0 d.kw.epoch
  { r with copy := true }

/-- The forward skip (R375) for a lost record with this SEQ, whose seal can be read or not. -/
def Device.forwardSkip (d : Device) (seq : Nat) (sealed : Bool) : Device :=
  let n := d.nv
  let h := n.highest seq sealed
  let all := List.range 4096
  let n1 : Nv := { n with cuts := all.map fun l => (l, (max (n.recovered seq l) h + 2 ^ 32) % 2 ^ 64),
                          gens := all.map fun l => (l, min (Map.getD n.gens l 0 + 2 ^ 16) (2 ^ 32 - 1)), skipped := true }
  let d1 : Device := { d with nv := n1, hs := { d.hs with boot := min (d.hs.boot + 2 ^ 16) (2 ^ 32 - 1) } }
  let keys := all ++ [4096] ++ (n.jidx.map Prod.fst).filter fun k => 4096 < k
  let d2 : Device := { d1 with nv := keys.foldl (fun m k => m.line (some k) (d1.recordOf k)) n1 }
  (((d2.commitNow .skipMarker).evidence 0x08 1283 [h % 2 ^ 32, h / 2 ^ 32, seq % 2 ^ 32, seq / 2 ^ 32]).raiseSrc 1283).nvEvt 0x40

/-- A duplex version counter has lost both copies (R375): it takes the version of the highest-versioned image in its two banks. -/
def Device.duplexLost (d : Device) (k : Nat) : Device :=
  let top (a b : Option Nat) : Nat := max (a.getD 0) (b.getD 0)
  let c := nth d.mc.classes (k - 1) {}
  let d1 : Device :=
    if k = 0 then { d with nv := { d.nv with fwVer := top d.mc.verA d.mc.verB } }
    else { d with nv := { d.nv with patchVer := modifyAt d.nv.patchVer (k - 1) fun _ => top c.verA c.verB } }
  (d1.raiseSrc 1284).nvEvt 0x40

/-- The boot scan of the journal (R374, R375). -/
def Device.journalScan (d : Device) (r : BootReport) : Device :=
  let d1 : Device := { d with nv := { d.nv with ready := true, tailCut := false } }
  let d2 := d1.when d.nv.tailCut (·.raiseSrc 1293)
  let d3 := match r.lostSeq with
    | some q => d2.forwardSkip q r.sealRead
    | none => d2
  r.lostDuplex.foldl Device.duplexLost d3

/-- Live leaf numbers take the next generation and are FREE (R60, R77). -/
def Device.raiseLive (d : Device) : Device :=
  d.nv.lives.foldl (fun d l => d.commitNow (.leafGen l (min (d.gen l + 1) (2 ^ 32 - 1)) false (d.cut l))) d

/-- The boot count (R329, R377). -/
def Device.countBoot (d : Device) : Device := d.commitNow (.bootCount (min (d.hs.boot + 1) (2 ^ 32 - 1)))

/-! ### Identity, engines, calibration -/

/-- The root key is formed, the sealed blobs are opened with it and the identity keys tested (R310, R312, R316, R334). -/
def Device.openIdentity (d : Device) (ok : Bool) : Device :=
  let fail (d : Device) (n : Nat) : Device := ({ d with kw := { d.kw with evt := d.kw.evt ||| 4 } } : Device).raiseSrc n
  let root := if d.aon.share.isEmpty then [] else d.rootKey
  let seeds := if root.isEmpty || d.kw.blobBad || d.kw.blob.isEmpty then none else openRoot root d.kw.epoch d.kw.blob
  let d1 : Device := { d with kw := { d.kw with root := root, seeds := seeds.getD [], valid := seeds.isSome && ok } }
  let d2 := if d.kw.blob.isEmpty then d1 else if seeds.isNone then fail d1 1504 else if !ok then fail d1 1505 else d1
  if !d.hs.intkeys.isEmpty && seeds.isNone then ({ d2 with hs := { d2.hs with intkeys := [] } } : Device).raiseSrc 1498 else d2

/-- The bank of a class's section (R393): the higher valid version that is not below the counter; bank A of equal ones. -/
def McClass.choose (c : McClass) (counter : Nat) : Option (Nat × Nat) :=
  let ok (v : Option Nat) : Option Nat := v.filter fun n => counter ≤ n
  match ok c.verA, ok c.verB with
  | some a, some b => if a < b then some (1, b) else some (0, a)
  | some a, none => some (0, a)
  | none, some b => some (1, b)
  | none, none => none

/-- The version of the other bank, where that bank qualifies too (R393). -/
def McClass.other (c : McClass) (counter bank : Nat) : Option Nat :=
  (if bank = 0 then c.verB else c.verA).filter fun n => counter ≤ n

/-- The engines of a class enter service with a section, but for those in a list, which stay out of service or, with another section at hand, run
that one (R393). -/
def Device.serviceClass (d : Device) (cls : Nat) (bad : List Nat) (sect other : Option Bool) : Device :=
  let out := if other.isSome then [] else bad
  let put (es : List Engine) : List Engine := es.zipIdx.map fun e =>
    { e.1 with inService := !out.contains e.2, failed := out.contains e.2, stopped := false, sect := if bad.contains e.2 then other else sect }
  let bank := if bad.contains 0 then other else sect
  match cls with
  | 0 => { d with tu := put d.tu }
  | 1 => { d with bo := put d.bo }
  | 2 => { d with bb := { d.bb with stopped := out.contains 0, sect := bank } }
  | _ => { d with bk := { d.bk with stopped := out.contains 0, sect := bank } }

/-- A class loads its section and its engines are tested (R393, R394, R405): an engine that fails takes the other bank, if that one
qualifies, else it stays out of service; a class that may not run is held; the counter follows a section that every engine passed. -/
def Device.loadClass (d : Device) (bad : List (Nat × Nat)) (cls : Nat) : Device :=
  let c := nth d.mc.classes cls {}
  let counter := nth d.nv.patchVer cls 0
  let mine := (bad.filter fun e => e.1 == cls).map Prod.snd
  let put (d : Device) (f : McClass → McClass) : Device := { d with mc := { d.mc with classes := modifyAt d.mc.classes cls f } }
  let fail (d : Device) : Device := if mine.isEmpty then d else (d.raiseSrc 1461).mcEvt 8
  match c.choose counter with
  | some (b, v) =>
    match c.other counter b with
    | some w =>
      let run := if mine.isEmpty then v else min v w
      fail ((put d fun k => { k with bank := b, run := run, held := false }).serviceClass cls mine (some (b == 1)) (some (b == 0)))
    | none =>
      let d1 := fail ((put d fun k => { k with bank := b, run := v, held := false }).serviceClass cls mine (some (b == 1)) none)
      if counter < v then d1.commitNow (.patchVersion cls v) else d1
  | none =>
    if counter = 0 then fail ((put d fun k => { k with run := 0, held := false }).serviceClass cls mine none none)
    else (((put d fun k => { k with run := 0, held := true }).serviceClass cls (List.range (classSize cls)) none none).raiseSrc 1462)

/-- The counter of a class rises at boot where every engine passed with the chosen section of two that qualify (R394). -/
def Device.raiseClass (d : Device) (bad : List (Nat × Nat)) (cls : Nat) : Device :=
  let c := nth d.mc.classes cls {}
  if nth d.nv.patchVer cls 0 < c.run && !bad.any fun e => e.1 == cls then d.commitNow (.patchVersion cls c.run) else d

/-- A noise pin whose gain or offset is lost enters RETIRED (R427). -/
def Device.useTrims (d : Device) : Device :=
  let gone (p : Nat) : Bool := d.ca.lost.contains (calKey 0x00 p) || d.ca.lost.contains (calKey 0x01 p)
  d.onNs fun n => { n with pins := n.pins.zipIdx.map fun e => if gone e.2 then { e.1 with state := .retired } else e.1 }

/-- Calibration comes into force (R347, R425, R430): TP_SRC_CFG, the thermal limits, trims; TP_CTL.LOCK in Fielded. -/
def Device.loadCalibration (d : Device) : Device :=
  let d1 : Device := { d with tp := { d.tp with srcs := d.tp.srcs.zipIdx.map fun e => e.1.setCfg e.2 (tpCfgBits (u32 (d.ca.effective 0x0B e.2) 0)),
                                                lock := d.tp.lock || d.hasp == 4, rekeyWanted := true },
                              ca := { d.ca with pend := [] } }
  d1.loadThermal.useTrims

/-! ### Pending tamper reactions (R345, R346) -/

/-- The record of a backup trigger (R346, R379, R380): the time of the first or the last trigger where it is that source's. -/
def Device.backupRecord (d : Device) (s : Nat) : Device :=
  let t := d.tp
  let at' := if t.bkFirstSrc = s then t.bkFirst else if t.bkLastSrc = s then t.bkLast else d.aon.rtc
  { d with nv := { d.nv with evq := d.nv.evq ++ [{ kind := 0x02, src := 1392 + s, boot := d.hs.boot, rtc := at', data := [t.bktrig], backup := true }] } }

/-- R346, steps 1 to 5: delivered once for the backup triggers since the last delivery. -/
def Device.deliverBackup (d : Device) : Device :=
  if d.tp.bkCount = 0 then d
  else
    let bits := (List.range 32).filter fun s => bitOf d.tp.bktrig s
    let d1 := bits.foldl Device.backupRecord d
    let d2 := bits.foldl (fun d s => d.raiseSrc (1392 + s)) d1
    let d3 : Device := { d2 with tp := { d2.tp with evt := d2.tp.evt ||| (2 + b2n d.tp.pendInt), pendInt := false, pendShackle := false, bkCount := 0 } }
    let d4 := d3.when d.tp.pendInt (·.hingeMsi 1)
    if d.tp.pendShackle then d4.shackle (1392 + ((bits.find? fun s => field (nth d.tp.srcs s {}).cfg 29 2 == 3).getD (bits.headD 0))) else d4

/-- Sources that boot firmware raises (R361, R423): stage 4 before this boot, and what the always-on records owe. -/
def Device.bootRaises (d : Device) (r : BootReport) : Device :=
  let d1 := d.when (d.fc.cause == 3) (·.raiseSrc 1427)
  let d2 := d1.aon.owed.foldl Device.raiseSrc d1
  ({ d2 with aon := { d2.aon with owed := [] } } : Device).when r.reactionPathBad (·.raiseSrc 1523)

/-! ### Boot firmware -/

/-- BOOT_FIRMWARE_START (R40): the shackle state is entered again before anything else (R360); else the journal, the leaves, the boot
count, the identity, the engines, calibration, and what is owed from before. -/
def Device.firmwareBoot (d : Device) (r : BootReport) : Device :=
  let d0 : Device := { d with power := { d.power with boot := 3 } }
  if d0.shackled then d0.enterShackle
  else
    let d1 := (((d0.journalScan r).raiseLive).countBoot).openIdentity r.identityOk
    let d2 := [0, 1, 2, 3].foldl (fun d c => (d.loadClass r.badEngines c).raiseClass r.badEngines c) d1
    (d2.loadCalibration.bootRaises r).deliverBackup

/-- BOOT_FIRMWARE_START (R40). -/
def execBootFirmwareStart (report : BootReport) (s : State) : Host.Outcome State Fault Refusal :=
  run s (s.dev.power.boot == 2) (s.dev.firmwareBoot report)

/-- BOOT_COMPLETE (R40, R358, R363): accesses are served, ALIVE toggles unless something stops it, and the collector's reset is shown. -/
def Device.bootDone (d : Device) : Device :=
  { d with power := { d.power with boot := 4 }, mc := { d.mc with healthy := true },
           fc := { d.fc with alive := !d.fc.aliveStopped, evt := d.fc.evt ||| (8 * b2n (d.fc.cause == 2)) } }

/-- BOOT_COMPLETE (R40). -/
def execBootComplete (s : State) : Host.Outcome State Fault Refusal :=
  run s (s.dev.power.boot == 3 && !s.dev.shackled) s.dev.bootDone

/-! ### Release of a BLOCK reset (R354) -/

/-- The block is not in reset any more; an engine, bank or array takes strokes again. -/
def Device.releaseBlock (d : Device) (b : BlockId) : Device :=
  let d1 : Device := { d with fc := { d.fc with resets := d.fc.resets.filter (· != b) } }
  match b with
  | .tumbler n => d1.onTu n fun e => { e with inReset := false, inService := !e.retired && !(nth d.mc.classes 0 {}).held && !e.stopped }
  | .bolt n => d1.onBo n fun e => { e with inReset := false, inService := !e.retired && !(nth d.mc.classes 1 {}).held && !e.stopped }
  | .bank => { d1 with bb := { d1.bb with inReset := false } }
  | .blockArray => { d1 with bk := { d1.bk with inReset := false } }
  | .digest => { d1 with dg := { d1.dg with inReset := false } }
  | .mgmt => { d1 with mc := { d1.mc with healthy := true } }
  | _ => d1

/-- A block that fails its self-test stays out of service: an engine, the bank and the block array are retired (R354, R397). -/
def Device.failBlock (d : Device) (b : BlockId) : Device :=
  match b with
  | .tumbler n => (d.releaseBlock b).retire 0 n
  | .bolt n => (d.releaseBlock b).retire 1 n
  | .bank => (d.releaseBlock b).retire 2 0
  | .blockArray => (d.releaseBlock b).retire 3 0
  | _ => d

/-- BLOCK_RESET_RELEASE (R354). -/
def execBlockResetRelease (block : BlockId) (selfTestOk : Bool) (s : State) : Host.Outcome State Fault Refusal :=
  run s (s.dev.fc.resets.contains block) (if selfTestOk then s.dev.releaseBlock block else s.dev.failBlock block)

end Sys2Proof.Machine
end

