-- ==== Sys2Proof/Machine/TamperRows.lean ====
section
/-! DEFINITION. Tamper events (R339 to R348), the writes that change a source (R20, R342, R347, R349), and the polarity of the tamper
lines (R445, R446). -/

namespace Sys2Proof.Machine

/-! ### Counting (R341) -/

/-- The source counts events: enabled, armed, settled, its line not masked (R340, R342, R347, R446). -/
def Tamper.counts (t : Tamper) (s : Nat) : Bool :=
  let x := nth t.srcs s {}
  bitOf x.cfg 31 && x.armed && !x.settling && !(28 ≤ s && bitOf t.polMask (s - 28))

/-- The window of a source in ticks: W units of 32; W 0 acts as 1 (R341, R349). -/
def TSrc.ticks (x : TSrc) : Nat := 32 * max 1 (field x.cfg 0 16)

/-- The threshold; N 0 acts as 1 (R349). -/
def TSrc.need (x : TSrc) : Nat := max 1 (field x.cfg 16 8)

/-- Ticks since the window opened. -/
def TSrc.age (x : TSrc) (now : Nat) : Nat := (now + 2 ^ 48 - x.opened) % 2 ^ 48

/-- One event at a tick (R341): the source, and whether it triggers. -/
def TSrc.event (x : TSrc) (now : Nat) : TSrc × Bool :=
  let live := x.openW && x.age now < x.ticks
  let c := if live then x.count + 1 else 1
  if x.need ≤ c then ({ x with count := 0, openW := false }, true)
  else ({ x with count := c, openW := true, opened := if live then x.opened else now }, false)

/-- The sources of an event that trigger, rising, and the tamper block with their counts (R341, R344). -/
def Tamper.take (t : Tamper) (srcs : List Nat) (now : Nat) : Tamper × List Nat :=
  (List.range 32).foldl (fun (t, hit) s =>
    if srcs.contains s && t.counts s then
      let (x, trig) := (nth t.srcs s {}).event now
      ({ t with srcs := modifyAt t.srcs s fun _ => x }, if trig then hit ++ [s] else hit)
    else (t, hit)) (t, [])

/-! ### Responses (R343 to R345) -/

/-- The response level of a source (R343). -/
def Tamper.level (t : Tamper) (s : Nat) : Nat := field (nth t.srcs s {}).cfg 29 2

/-- The highest level of some sources (R344). -/
def Tamper.top (t : Tamper) (hit : List Nat) : Nat := hit.foldl (fun m s => max m (t.level s)) 0

/-- A mask of source bits. -/
def maskOf (l : List Nat) : Nat := l.foldl (fun m s => m ||| 2 ^ s) 0

/-- Triggers on main power (R343, R344). -/
def Device.respond (d : Device) (hit : List Nat) : Device :=
  let top := d.tp.top hit
  let d1 : Device := { d with tp := { d.tp with sticky := d.tp.sticky ||| maskOf hit } }
  let d2 := hit.foldl (fun d s => (d.raiseSrc (1392 + s)).evidence 0x01 (1392 + s) [d.tp.level s]) d1
  let d3 := if 1 ≤ top then ({ d2 with tp := { d2.tp with evt := d2.tp.evt ||| 1 } } : Device).when (rises d2.tp.evt 1) (·.hingeMsi 1) else d2
  let d4 := if 2 ≤ top then ({ d3 with tp := { d3.tp with evt := d3.tp.evt ||| (4 * b2n (!d3.aon.share.isEmpty)) } } : Device).zeroiseShare else d3
  if 3 ≤ top ∧ !d4.shackled then d4.shackle (1392 + ((hit.find? fun s => d.tp.level s == 3).getD 0)) else d4

/-- Triggers on backup power (R345). -/
def Device.respondBackup (d : Device) (hit : List Nat) : Device :=
  let top := d.tp.top hit
  let low := hit.headD 0
  let t := d.tp
  let t1 : Tamper := { t with sticky := t.sticky ||| maskOf hit, bktrig := t.bktrig ||| maskOf hit, bkLast := d.aon.rtc, bkLastSrc := low,
                              bkFirst := if t.bkCount = 0 then d.aon.rtc else t.bkFirst,
                              bkFirstSrc := if t.bkCount = 0 then low else t.bkFirstSrc,
                              bkCount := satAdd 16 t.bkCount hit.length,
                              pendInt := t.pendInt || decide (1 ≤ top), pendShackle := t.pendShackle || decide (3 ≤ top) }
  { d with tp := t1, aon := { d.aon with share := if top < 2 then d.aon.share else [] } }

/-- The sectors that mismatched in the period just compared (R337, R349). -/
def Tamper.ward (t : Tamper) (srcs : List Nat) : Tamper :=
  if srcs.any (· < 8) then { t with wardLast := maskOf (srcs.filter (· < 8)) } else t

/-- Tamper events of one always-on cycle (R339 to R345). -/
def Device.tamper (d : Device) (srcs : List Nat) : Device :=
  let (t, hit) := (d.tp.ward srcs).take srcs d.aon.rtc
  let d1 : Device := { d with tp := t }
  if hit.isEmpty then d1 else if d.aon.onBackup || d.power.off then d1.respondBackup hit else d1.respond hit

/-- TAMPER_EVENT (R341). -/
def execTamperEvent (srcs : List Nat) (s : State) : Host.Outcome State Fault Refusal := run s (!s.dev.aon.dead) (s.dev.tamper srcs)

/-- TAMPER_WINDOW_EXPIRY (R341): W units after the window opened without a trigger. -/
def execTamperWindowExpiry (src : Nat) (s : State) : Host.Outcome State Fault Refusal :=
  let x := nth s.dev.tp.srcs src {}
  run s (src < 32 && x.openW && x.ticks ≤ x.age s.dev.aon.rtc)
    { s.dev with tp := { s.dev.tp with srcs := modifyAt s.dev.tp.srcs src fun y => { y with count := 0, openW := false } } }

/-! ### Configuration (R20, R342, R347, R349) -/

/-- A write of TP_SRC_CFGs: under TP_CTL.LOCK a changed field is a lock violation. -/
def Device.tpSrcCfg (d : Device) (s v : Nat) : Device :=
  let w := tpCfgBits v
  if d.tp.lock then (if w = (nth d.tp.srcs s {}).cfg then d else d.raiseSrc 1529)
  else { d with tp := { d.tp with srcs := modifyAt d.tp.srcs s fun x => x.setCfg s w } }

/-- TP_SRC_CFG_WRITE (R342). -/
def execTpSrcCfgWrite (src : Nat) (value : Word) (s : State) : Host.Outcome State Fault Refusal :=
  run s (src < 32) (s.dev.hostDo fun d => d.tpSrcCfg src value.toNat)

/-- TAMPER_SETTLE_END (R342). -/
def execTamperSettleEnd (src : Nat) (s : State) : Host.Outcome State Fault Refusal :=
  run s (src < 32 && (nth s.dev.tp.srcs src {}).settling)
    { s.dev with tp := { s.dev.tp with srcs := modifyAt s.dev.tp.srcs src fun y => { y with settling := false } } }

/-! ### TAMPER_IN polarity (R20, R446, R458) -/

/-- A write of LR_TAMPER_CFG.POL: the changed lines are masked and their windows cleared; under LR_CTL.LOCK a change is a violation. -/
def Device.tamperPol (d : Device) (v : Nat) : Device :=
  let new := field v 0 4
  let diff := new ^^^ d.aon.pol
  if diff = 0 then d
  else if d.lr.lock then d.raiseSrc 1531
  else
    { d with aon := { d.aon with pol := new },
             tp := { d.tp with polMask := d.tp.polMask ||| diff,
                               srcs := d.tp.srcs.zipIdx.map fun e =>
                                 if 28 ≤ e.2 && bitOf diff (e.2 - 28) then { e.1 with count := 0, openW := false } else e.1 } }

/-- TAMPER_POL_WRITE (R446). -/
def execTamperPolWrite (value : Word) (s : State) : Host.Outcome State Fault Refusal := run s true (s.dev.hostDo fun d => d.tamperPol value.toNat)

/-- TAMPER_POL_MASK_END (R446): the mask ends; a line that stands at its new active level counts one event. -/
def Device.polMaskEnd (d : Device) (lines : Nat) : Device :=
  let was := d.tp.polMask
  let d1 : Device := { d with tp := { d.tp with polMask := 0 }, aon := { d.aon with tamperIn := lines } }
  let hot := (List.range 4).filter fun k => bitOf was k && (bitOf lines k != bitOf d.aon.pol k)
  if hot.isEmpty then d1 else d1.tamper (hot.map (28 + ·))

/-- TAMPER_POL_MASK_END (R446). -/
def execTamperPolMaskEnd (lines : BitVec 4) (s : State) : Host.Outcome State Fault Refusal :=
  run s (s.dev.tp.polMask != 0) (s.dev.polMaskEnd lines.toNat)

/-! ### The idle step -/

/-- One tick of the real-time counter, 48 bits wide (R420; the idle step is a DESIGN CHOICE, log entry 4). On main power whole pattern
periods without a mismatch pass in it (R337). -/
def Device.tickRtc (d : Device) : Device :=
  if d.aon.dead then d
  else { d with aon := { d.aon with rtc := (d.aon.rtc + 1) % 2 ^ 48 },
                tp := if d.aon.onBackup then d.tp else { d.tp with wardLast := 0 } }

end Sys2Proof.Machine
end

