-- ==== Sys2Proof/Machine/Calibration.lean ====
section
/-! DEFINITION. The calibration engine (R425 to R431, R439): its commands, whether the hinge or the monitor gives them, and the line
writes that they wait for. -/

namespace Sys2Proof.Machine

/-- The device with the calibration block changed. -/
def Device.onCa (d : Device) (f : Cal → Cal) : Device := { d with ca := f d.ca }

/-- A signed byte. -/
def s8 (n : Nat) : Int := if n < 128 then n else (n : Int) - 256

/-- The monitor answers (R432, R434): firmware has finished its boot, no swap runs, the device is not shackled, and ENABLE is 1. -/
def Device.monitorOn (d : Device) : Bool :=
  d.power.boot == 4 && !d.shackled && d.mc.swapping.isNone && d.ca.monEn && !d.mc.romOnly

/-- EXTEST, CLAMP and HIGHZ hold the control-group outputs (R455). -/
def Tap.holds (t : Tap) : Bool := t.ir == .extest || t.ir == .clamp || t.ir == .highz

/-- Sends something on a control-group pin: nothing leaves the die there while the TAP holds the outputs (R455). -/
def Device.pinOut (d : Device) (o : Out) : Device := if d.jt.holds then d else d.emit o

/-- A line on MON_TX. -/
def Device.monLine (d : Device) (text : String) (values : List Nat) : Device := d.pinOut (.monitor text values)

/-- The last line of a reply (R433). -/
def Device.monEnd (d : Device) (s : Status) : Device :=
  if s = St.done then d.monLine "ok" [] else d.monLine "err" [s.toNat]

/-! ### Checks (R427 to R429) -/

/-- An instance that R425 lists. -/
def calKnown (code inst : Nat) : Bool := inst < calInstances code

/-- An overlay value within its limits (R428). -/
def Cal.valueOk (c : Cal) (code inst : Nat) (v : Bytes) : Bool :=
  let rest (n : Nat) : Bool := (v.drop n).all (· == 0)
  let f := c.factoryValue code inst
  let near (a b k : Nat) : Bool := a ≤ b + k && b ≤ a + k
  if code = 0x02 then near (u8 v 0) (u8 f 0) 16 && rest 1
  else if code = 0x08 then 60 ≤ u8 v 1 && u8 v 1 ≤ 115 && 50 ≤ u8 v 0 && u8 v 0 < u8 v 1 && rest 2
  else if code = 0x0A then u16 v 0 ≤ 399 && near (u16 v 0) (u16 f 0) 20 && rest 2
  else if code = 0x0B then field (u32 v 0) 24 5 = 0 && rest 4
  else if inst = 0 then decide (80 ≤ s8 (u8 v 0) ∧ s8 (u8 v 0) ≤ 125) && rest 1
  else if inst = 1 then decide (-40 ≤ s8 (u8 v 0) ∧ s8 (u8 v 0) ≤ 20) && rest 1
  else 1 ≤ u16 v 0 && u16 v 0 ≤ 1023 && rest 2

/-- The arguments of a command (R428, R429). -/
def Cal.argsOk (c : Cal) (j : CalJob) : Bool :=
  match j.op with
  | 2 => calKnown j.code j.inst && calOverlayed j.code && c.valueOk j.code j.inst j.value
  | 3 => calKnown j.code j.inst && calOverlayed j.code
  | 4 => true
  | 5 => calKnown j.code j.inst
  | _ => false

/-- Why a write command is refused (R429). -/
def Device.calCheck (d : Device) (j : CalJob) : Option Status :=
  let h := d.hasp
  if d.lifeBusy then some St.lifeBusy
  else if !d.right 7 then some St.rightMissing
  else if !(if j.op = 5 then h == 0 else h == 2 || h == 4) then some St.stateForbidden
  else if !d.ca.argsOk j then some St.badArgument
  else none

/-! ### Line writes (R426, R429 to R431) -/

/-- Calibration writes may run (R370, R429): no commit and no evidence record waits, the applied stage is below 3, MRAM writes are allowed. -/
def Device.calMayWrite (d : Device) : Bool :=
  d.nv.ready && !d.nv.inhibit && d.nv.queue.isEmpty && d.nv.current.isNone && d.nv.evq.isEmpty && d.power.applied < 3 && !d.shackled

/-- A command ends (R429, R433): the hinge reads its status in CA_CMD_STAT, the monitor answers; a missing right raises source 1492. -/
def Device.calAnswer (d : Device) (j : CalJob) (s : Status) : Device :=
  let d1 := d.when (s == St.rightMissing) Device.denied
  if !j.monitor then d1.onCa fun c => { c with cmd := { c.cmd with status := s.toNat } }
  else
    let d2 := d1.when (s == St.rightMissing) (·.onCa fun c => { c with evt := c.evt ||| 4 })
    d2.when d2.monitorOn (·.monEnd s)

/-- The first command leaves the queue and ends. -/
def Device.calFinish (d : Device) (j : CalJob) (s : Status) : Device := (d.onCa fun c => { c with jobs := c.jobs.tail }).calAnswer j s

/-- A record is written for an instance (R426, R430): the stored value changes, and PENDING reads 1 until its block takes it. -/
def Cal.store (c : Cal) (op code inst : Nat) (v : Bytes) : Cal :=
  let k := calKey code inst
  let had := (Map.get? c.overlay k).isSome
  let later (on : Bool) : List Nat := if on && (code != 0x08 || op == 5) then insertNew c.pend k else c.pend
  match op with
  | 2 => { c.write true k true v with overlay := Map.set c.overlay k { value := v }, pend := later true }
  | 5 => { c.write false k true v with factory := Map.set c.factory k { value := v }, lost := c.lost.filter (· != k), pend := later (!had) }
  | _ => { c.write true k false [] with overlay := Map.erase c.overlay k, pend := later had }

/-- The line of SET, DROP or FACTORY_SET is written and the command ends (R429, R430). -/
def Device.calStored (d : Device) (j : CalJob) : Device :=
  let d1 := d.onCa fun c => (let c1 := c.store j.op j.code j.inst j.value; if j.op = 5 then c1 else { c1 with evt := c1.evt ||| 1 })
  (d1.when (j.code == 0x08 && j.op != 5) Device.loadThermal).calFinish j St.done

/-- RESTORE_FACTORY has dropped the last overlay (R430, R431). -/
def Device.calRestored (d : Device) (j : CalJob) : Device :=
  ((d.onCa fun c => { c with evt := c.evt ||| 2 }).loadThermal).calFinish j St.done

/-- One line of the first command (R426, R429, R431): its checks, then a write when writes may run; RESTORE_FACTORY drops one instance a
line. -/
def Device.calPoll (d : Device) : Device :=
  match d.ca.jobs with
  | [] => d
  | j :: _ =>
    match d.calCheck j with
    | some s => d.calFinish j s
    | none =>
      if j.op = 4 ∧ d.ca.overlay = [] then d.calRestored j
      else if !d.calMayWrite then d
      else
        let (d1, ok) := d.lineWrite (j.fails.headD false)
        if !ok then d1.calFinish j St.nvFault
        else if j.op ≠ 4 then d1.calStored j
        else match d1.ca.overlay with
          | [] => d1.calRestored j
          | (k, _) :: rest =>
            let j1 := { j with fails := j.fails.tail }
            let d2 := d1.onCa fun c => { c.store 3 (k / 64) (k % 64) [] with jobs := j1 :: c.jobs.tail }
            if rest.isEmpty then d2.calRestored j1 else d2

/-- A write command joins the engine (R429). -/
def Device.calGive (d : Device) (j : CalJob) : Device :=
  let first := d.ca.jobs.isEmpty
  let d1 := d.onCa fun c => { c with jobs := c.jobs ++ [j] }
  if first then d1.calPoll else d1

/-! ### Commands of the hinge (R429) -/

/-- The bytes of CA_VALUE. -/
def Cal.bytes (c : Cal) : Bytes := c.value.foldr (fun w r => leBytes w 4 ++ r) []

/-- READ (R429, R439). -/
def Device.calRead (d : Device) : Device :=
  let c := d.ca
  if !calKnown c.code c.inst then d.calAnswer { op := 1 } St.badArgument
  else
    let v := match c.which with
      | 1 => c.factoryValue c.code c.inst
      | 2 => (match Map.get? c.overlay (calKey c.code c.inst) with
        | some r => fit 32 r.value
        | none => zeros 32)
      | _ => c.effective c.code c.inst
    (d.onCa fun c => { c with value := (List.range 8).map fun i => u32 v (4 * i) }).calAnswer { op := 1 } St.done

/-- A command reaches the engine (R429): OVERRUN while a command of either port runs. -/
def Device.calIssue (d : Device) (f : Device → Device) : Device :=
  if d.ca.jobs.isEmpty then f d else d.onCa fun c => { c with cmd := { c.cmd with overrun := true } }

/-- A host write of CA_CMD. -/
def Device.calCommand (d : Device) (f : Device → Device) : Device := d.hostDo fun d => d.calIssue f

/-- A write command on CA_ITEM with CA_VALUE. -/
def Device.calWrite (d : Device) (op : Nat) (fails : List Bool) : Device :=
  d.calGive { op := op, code := d.ca.code, inst := d.ca.inst, value := d.ca.bytes, fails := fails }

/-- A write of an opcode to CA_CMD (R429, R439): an opcode that is not listed returns BAD_ARGUMENT. -/
def Device.calOpcode (d : Device) (op : Nat) : Device :=
  if op = 1 then d.calRead
  else if 2 ≤ op ∧ op ≤ 5 then d.calWrite op []
  else d.calAnswer { op := op } St.badArgument

/-- READ (R429). -/
def execCaRead (s : State) : Host.Outcome State Fault Refusal := run s true (s.dev.calCommand Device.calRead)
/-- SET (R429). -/
def execCaSet (verifyFails : Bool) (s : State) : Host.Outcome State Fault Refusal :=
  run s true (s.dev.calCommand fun d => d.calWrite 2 [verifyFails])
/-- DROP (R429). -/
def execCaDrop (verifyFails : Bool) (s : State) : Host.Outcome State Fault Refusal :=
  run s true (s.dev.calCommand fun d => d.calWrite 3 [verifyFails])
/-- RESTORE_FACTORY (R431). -/
def execCaRestoreFactory (fails : List Bool) (s : State) : Host.Outcome State Fault Refusal :=
  run s true (s.dev.calCommand fun d => d.calWrite 4 fails)
/-- FACTORY_SET (R429). -/
def execCaFactorySet (verifyFails : Bool) (s : State) : Host.Outcome State Fault Refusal :=
  run s true (s.dev.calCommand fun d => d.calWrite 5 [verifyFails])

end Sys2Proof.Machine
end

