-- ==== Sys2Proof/Machine/Control.lean ====
section
/-! DEFINITION. The control and data instructions of Zaxus (R134 to R141): no engine, no beats. Each takes the turn slot whose word at
the PC it is. -/

namespace Sys2Proof.Machine

/-- The iteration index of the innermost REPEAT (R136). -/
def Turn.index (t : Turn) : Nat := match t.reps with
  | [] => 0
  | r :: _ => r.i

/-- The host address of LOAD and STORE (R139): DATA_BASE + IMM + s × i with STEP, VAR [0]. -/
def Turn.dataAddr (t : Turn) (z : ZInstr) (size : Nat) : Nat :=
  (t.hdr.dataBase + z.imm + (if bitOf z.var 0 then size * t.index else 0)) % 2 ^ 64

/-- Queues the writes of a turn's result in payloads and logs their pages (R50, R83, R113); the turn waits for all of them. -/
def Device.resultWrites (d : Device) (slot leaf addr : Nat) (data : Bytes) : Device :=
  let m := (d.leaf leaf).module
  let ps := payloads (d.payload m) data
  let d1 := ps.foldl (fun d p => d.writeReq m { pasid := d.pasidOf leaf, addr := (addr + p.1) % 2 ^ 64, data := p.2, why := .result slot }) d
  let (d2, n) := d1.logWrite leaf addr data.length (some slot)
  d2.onTurn slot fun t => { t with pendingW := t.pendingW + ps.length + n }

/-- NOP: the next word (R134). -/
def Device.nopStep (d : Device) (slot : Nat) : Device := d.onTurn slot Turn.next

/-- An end by a status of its own is due for the turn: raised in this beat, it comes before END (R113, R118). -/
def Turn.failing (t : Turn) : Option Status := t.due.bind fun s => if statusClass s = 4 then none else some s

/-- END (R110, R113): the status is the first of class 3 or DONE, the deferred writes are queued in program order, and the cells are
zeroised. A status that a streamed write or a check has raised in the beat ends the turn instead (R118). -/
def Device.endStep (d : Device) (slot : Nat) : Device :=
  match d.atWord slot .fin with
  | none => d
  | some (t, z) =>
    match t.failing.or (d.preCheck t z) with
    | some s => d.endTurn slot s t.pc
    | none =>
      let (s, pc) := t.firstBad.getD (St.done, t.pc)
      let d1 := ((d.dropReads slot).releaseStore slot).onTurn slot fun t =>
        { t.close s pc with lastLen := if z.a = 0xFF then 0 else t.len z.a, reachedEnd := true }
      let d2 := t.stores.foldl (fun d w => d.resultWrites slot t.leaf w.addr w.data) d1
      d2.recordStep slot

/-- FENCE (R137): goes on at once where the condition of R115 holds, or waits for it. -/
def Device.fenceStep (d : Device) (slot : Nat) : Device :=
  match d.atWord slot .fence with
  | none => d
  | some (t, _) => if d.fenceMet t then d.onTurn slot Turn.next else d.onTurn slot fun t => { t with phase := .waitFence, woken := false }

/-- WAIT (R137, R185): the wake beat is the BEAT of the next edge plus IMM. -/
def Device.waitStep (d : Device) (slot : Nat) : Device :=
  match d.atWord slot .wait with
  | none => d
  | some (_, z) => d.onTurn slot fun t => { t with phase := .waitDelay ((d.sc.beat + 1 + z.imm) % 2 ^ 48), woken := false }

/-- SKIP.IF (R101, R109, R134): tests the class of the last status, 0 or 3. -/
def Device.skipStep (d : Device) (slot : Nat) : Device :=
  match d.atWord slot .skipIf with
  | none => d
  | some (t, z) =>
    if statusClass t.last = (if z.var = 0 then 0 else 3) then d.onTurn slot fun t => t.skip z.imm else d.onTurn slot Turn.next

/-- REPEAT (R134, R136): the body begins with index 0. -/
def Device.repeatStep (d : Device) (slot : Nat) : Device :=
  match d.atWord slot .loop with
  | none => d
  | some (_, z) => d.onTurn slot fun t =>
      { t with reps := { first := t.pc + 1, len := field z.imm 12 12, count := field z.imm 0 12, i := 0 } :: t.reps, pc := t.pc + 1 }

/-- ALLOC (R103, R138): a second allocation of a cell ends the turn with BAD_CELL. -/
def Device.allocStep (d : Device) (slot : Nat) : Device :=
  match d.atWord slot .alloc with
  | none => d
  | some (t, z) =>
    if (t.cell? z.dst).isSome then d.endTurn slot St.badCell t.pc
    else (d.onTurn slot fun t => { t with cells := Map.set t.cells z.dst { size := z.imm } }).returns slot St.done

/-- FREE (R106, R138): the cell is zeroised and released. -/
def Device.freeStep (d : Device) (slot : Nat) : Device :=
  match d.atWord slot .free with
  | none => d
  | some (t, z) =>
    match d.preCheck t z with
    | some s => d.endTurn slot s t.pc
    | none => (d.onTurn slot fun t => { t with cells := Map.erase t.cells z.dst }).returns slot St.done

/-- LOAD (R48, R138, R139): reads the cell's size from the host; the turn waits for the data off the ready list. -/
def Device.loadStep (d : Device) (slot : Nat) : Device :=
  match d.atWord slot .load with
  | none => d
  | some (t, z) =>
    match d.preCheck t z with
    | some s => d.endTurn slot s t.pc
    | none =>
      let n := t.size z.dst
      let (d1, k) := d.readParts (d.leaf t.leaf).module (d.pasidOf t.leaf) (t.dataAddr z n) n (.load slot)
      d1.onTurn slot fun t => { t with phase := .waitDma, awaiting := k, parts := [], woken := false }

/-- STORE without STREAM (R111, R140): a copy of the cell, written at END. -/
def Device.storeStep (d : Device) (slot : Nat) : Device :=
  match d.atWord slot .store with
  | none => d
  | some (t, z) =>
    match d.preCheck t z with
    | some s => d.endTurn slot s t.pc
    | none =>
      (d.onTurn slot fun t => { t with stores := t.stores ++ [{ addr := t.dataAddr z (t.size z.a), data := t.bytes z.a }] }).returns slot St.done

/-- STORE with STREAM (R140): the bytes are written at once. -/
def Device.streamStep (d : Device) (slot : Nat) : Device :=
  match d.atWord slot .storeStream with
  | none => d
  | some (t, z) =>
    match d.preCheck t z with
    | some s => d.endTurn slot s t.pc
    | none => (d.resultWrites slot t.leaf (t.dataAddr z (t.size z.a)) (t.bytes z.a)).returns slot St.done

/-- NOP (R134). -/
def execZxNop (slot : Nat) (s : State) : Host.Outcome State Fault Refusal := run s (s.dev.at slot .nop) (s.dev.nopStep slot)
/-- END (R113). -/
def execZxEnd (slot : Nat) (s : State) : Host.Outcome State Fault Refusal := run s (s.dev.at slot .fin) (s.dev.endStep slot)
/-- FENCE (R137). -/
def execZxFence (slot : Nat) (s : State) : Host.Outcome State Fault Refusal := run s (s.dev.at slot .fence) (s.dev.fenceStep slot)
/-- WAIT (R137). -/
def execZxWait (slot : Nat) (s : State) : Host.Outcome State Fault Refusal := run s (s.dev.at slot .wait) (s.dev.waitStep slot)
/-- SKIP.IF (R134). -/
def execZxSkipIf (slot : Nat) (s : State) : Host.Outcome State Fault Refusal := run s (s.dev.at slot .skipIf) (s.dev.skipStep slot)
/-- REPEAT (R136). -/
def execZxRepeat (slot : Nat) (s : State) : Host.Outcome State Fault Refusal := run s (s.dev.at slot .loop) (s.dev.repeatStep slot)
/-- ALLOC (R138). -/
def execZxAlloc (slot : Nat) (s : State) : Host.Outcome State Fault Refusal := run s (s.dev.at slot .alloc) (s.dev.allocStep slot)
/-- FREE (R106). -/
def execZxFree (slot : Nat) (s : State) : Host.Outcome State Fault Refusal := run s (s.dev.at slot .free) (s.dev.freeStep slot)
/-- LOAD (R139). -/
def execZxLoad (slot : Nat) (s : State) : Host.Outcome State Fault Refusal := run s (s.dev.at slot .load) (s.dev.loadStep slot)
/-- STORE (R140). -/
def execZxStore (slot : Nat) (s : State) : Host.Outcome State Fault Refusal := run s (s.dev.at slot .store) (s.dev.storeStep slot)
/-- STORE with STREAM (R140). -/
def execZxStoreStream (slot : Nat) (s : State) : Host.Outcome State Fault Refusal := run s (s.dev.at slot .storeStream) (s.dev.streamStep slot)
/-- COPY WHOLE (R138). -/
def execZxCopyWhole (slot : Nat) (s : State) : Host.Outcome State Fault Refusal := run s (s.dev.at slot .copyWhole) (s.dev.issue slot .copyWhole)
/-- COPY SLICE (R138). -/
def execZxCopySlice (slot : Nat) (s : State) : Host.Outcome State Fault Refusal := run s (s.dev.at slot .copySlice) (s.dev.issue slot .copySlice)
/-- COPY APPEND (R138). -/
def execZxCopyAppend (slot : Nat) (s : State) : Host.Outcome State Fault Refusal := run s (s.dev.at slot .copyAppend) (s.dev.issue slot .copyAppend)
/-- COPY CTR (R141). -/
def execZxCopyCtr (slot : Nat) (s : State) : Host.Outcome State Fault Refusal := run s (s.dev.at slot .copyCtr) (s.dev.issue slot .copyCtr)
/-- ZERO (R138). -/
def execZxZero (slot : Nat) (s : State) : Host.Outcome State Fault Refusal := run s (s.dev.at slot .zero) (s.dev.issue slot .zero)
/-- XOR (R138). -/
def execZxXor (slot : Nat) (s : State) : Host.Outcome State Fault Refusal := run s (s.dev.at slot .xor) (s.dev.issue slot .xor)
/-- RAND.FILL (R132). -/
def execZxRandFill (slot : Nat) (s : State) : Host.Outcome State Fault Refusal := run s (s.dev.at slot .randFill) (s.dev.issue slot .randFill)

end Sys2Proof.Machine
end

