-- ==== Sys2Proof/Machine/Engines.lean ====
section
/-! DEFINITION. The engine instructions of Zaxus (chapters 6, 8 to 14): each takes the turn slot whose word at the PC it is, checks its
operands (R125, R130), draws what it draws (R132), and joins the ready list of its engine class, or runs at once where it holds no
engine. The scheduler gives it engines and releases its outcome. -/

namespace Sys2Proof.Machine

/-- An engine instruction starts; a turn that has just left a delay list may still join the dispatch set (R185). -/
def Device.zissue (d : Device) (slot : Nat) (k : ZKind) : Device := (d.issue slot k).joinLate slot

/-- DIGEST.STREAM (R155, R244): asks for every declared block not yet fed and waits for the first stroke's blocks. -/
def Device.streamDigest (d : Device) (slot : Nat) : Device :=
  match d.atWord slot .digestStream with
  | none => d
  | some (t, z) =>
    match d.preCheck t z with
    | some s => d.endTurn slot s t.pc
    | none =>
      let h := t.hstate z.dst
      let len := (h.declared - (if h.closed then 0 else h.fed)) * algBlock h.alg
      let (d1, n) := d.readParts (d.leaf t.leaf).module (d.pasidOf t.leaf) ((t.hdr.dataBase + z.imm) % 2 ^ 64) len (.stream slot)
      d1.onTurn slot fun t => { t with op := some (t.newOp z []), phase := .waitDma, awaiting := n, parts := [], woken := false }

/-- KEYW_CUT (R305): Checks a cut message and commits the counter for a keyway change. -/
def execZxKeywCut (slot : Nat) (s : State) : Host.Outcome State Fault Refusal := run s (s.dev.at slot .keywCut) (s.dev.zissue slot .keywCut)

/-- KEYW_GEN (R306): Generates a random keyway internally and commits the counter. -/
def execZxKeywGen (slot : Nat) (s : State) : Host.Outcome State Fault Refusal := run s (s.dev.at slot .keywGen) (s.dev.zissue slot .keywGen)

/-- KEYW_CLEAR (R143): Clears the keyway and advances the counter. -/
def execZxKeywClear (slot : Nat) (s : State) : Host.Outcome State Fault Refusal := run s (s.dev.at slot .keywClear && !s.dev.keywayBusy (((Map.get? s.dev.turns slot).map Turn.leaf).getD 0)) (s.dev.zissue slot .keywClear)

/-- KEYW_WRAP (R144): Wraps a cell under the WRAP_ONLY keyway. -/
def execZxKeywWrap (slot : Nat) (s : State) : Host.Outcome State Fault Refusal := run s (s.dev.at slot .keywWrap) (s.dev.zissue slot .keywWrap)

/-- KEYW_UNWRAP (R309): Unwraps a wrapped key into a cell, or returns UNWRAP_INTEGRITY. -/
def execZxKeywUnwrap (slot : Nat) (s : State) : Host.Outcome State Fault Refusal := run s (s.dev.at slot .keywUnwrap) (s.dev.zissue slot .keywUnwrap)

/-- KEYW_DERIVE (R144): Derives an HKDF output from the keyway. -/
def execZxKeywDerive (slot : Nat) (s : State) : Host.Outcome State Fault Refusal := run s (s.dev.at slot .keywDerive) (s.dev.zissue slot .keywDerive)

/-- MLKEM_KEYGEN (R211): Generates an ML-KEM key pair. -/
def execZxMlkemKeygen (slot : Nat) (s : State) : Host.Outcome State Fault Refusal := run s (s.dev.at slot .mlkemKeygen) (s.dev.zissue slot .mlkemKeygen)

/-- MLKEM_ENCAPS (R211): Performs ML-KEM encapsulation with the modulus check. -/
def execZxMlkemEncaps (slot : Nat) (s : State) : Host.Outcome State Fault Refusal := run s (s.dev.at slot .mlkemEncaps) (s.dev.zissue slot .mlkemEncaps)

/-- MLKEM_DECAPS (R211): Performs ML-KEM decapsulation with implicit rejection. -/
def execZxMlkemDecaps (slot : Nat) (s : State) : Host.Outcome State Fault Refusal := run s (s.dev.at slot .mlkemDecaps) (s.dev.zissue slot .mlkemDecaps)

/-- MLDSA_KEYGEN (R212): Generates an ML-DSA key pair. -/
def execZxMldsaKeygen (slot : Nat) (s : State) : Host.Outcome State Fault Refusal := run s (s.dev.at slot .mldsaKeygen) (s.dev.zissue slot .mldsaKeygen)

/-- MLDSA_SIGN (R148): Runs ML-DSA signing attempts up to the limit. -/
def execZxMldsaSign (slot : Nat) (s : State) : Host.Outcome State Fault Refusal := run s (s.dev.at slot .mldsaSign) (s.dev.zissue slot .mldsaSign)

/-- MLDSA_VERIFY (R212): Verifies an ML-DSA signature. -/
def execZxMldsaVerify (slot : Nat) (s : State) : Host.Outcome State Fault Refusal := run s (s.dev.at slot .mldsaVerify) (s.dev.zissue slot .mldsaVerify)

/-- HQC_KEYGEN (R229): Generates an HQC key pair. -/
def execZxHqcKeygen (slot : Nat) (s : State) : Host.Outcome State Fault Refusal := run s (s.dev.at slot .hqcKeygen) (s.dev.zissue slot .hqcKeygen)

/-- HQC_ENCAPS (R229): Performs HQC encapsulation. -/
def execZxHqcEncaps (slot : Nat) (s : State) : Host.Outcome State Fault Refusal := run s (s.dev.at slot .hqcEncaps) (s.dev.zissue slot .hqcEncaps)

/-- HQC_DECAPS (R229): Performs HQC decapsulation with implicit rejection. -/
def execZxHqcDecaps (slot : Nat) (s : State) : Host.Outcome State Fault Refusal := run s (s.dev.at slot .hqcDecaps) (s.dev.zissue slot .hqcDecaps)

/-- MCE_KEYGEN (R234): Runs Classic McEliece key generation attempts, using spill units, and defers the public-key write. -/
def execZxMceKeygen (slot : Nat) (s : State) : Host.Outcome State Fault Refusal := run s (s.dev.at slot .mceKeygen) (s.dev.zissue slot .mceKeygen)

/-- MCE_ENCAPS (R232): Performs Classic McEliece encapsulation while streaming public-key slices. -/
def execZxMceEncaps (slot : Nat) (s : State) : Host.Outcome State Fault Refusal := run s (s.dev.at slot .mceEncaps) (s.dev.zissue slot .mceEncaps)

/-- MCE_DECAPS (R231): Performs Classic McEliece decapsulation. -/
def execZxMceDecaps (slot : Nat) (s : State) : Host.Outcome State Fault Refusal := run s (s.dev.at slot .mceDecaps) (s.dev.zissue slot .mceDecaps)

/-- DIGEST_INIT (R154): Starts a digest state cell with a declared block count. -/
def execZxDigestInit (slot : Nat) (s : State) : Host.Outcome State Fault Refusal := run s (s.dev.at slot .digestInit) (s.dev.zissue slot .digestInit)

/-- DIGEST_ABSORB (R155): Feeds whole blocks from a cell. -/
def execZxDigestAbsorb (slot : Nat) (s : State) : Host.Outcome State Fault Refusal := run s (s.dev.at slot .digestAbsorb) (s.dev.zissue slot .digestAbsorb)

/-- DIGEST_STREAM (R244): Streams the remaining declared blocks from host memory. -/
def execZxDigestStream (slot : Nat) (s : State) : Host.Outcome State Fault Refusal := run s (s.dev.at slot .digestStream) (s.dev.streamDigest slot)

/-- DIGEST_FINAL (R155): Writes the digest and closes the state. -/
def execZxDigestFinal (slot : Nat) (s : State) : Host.Outcome State Fault Refusal := run s (s.dev.at slot .digestFinal) (s.dev.zissue slot .digestFinal)

/-- XOF_SQUEEZE (R155): Squeezes SHAKE output bytes. -/
def execZxXofSqueeze (slot : Nat) (s : State) : Host.Outcome State Fault Refusal := run s (s.dev.at slot .xofSqueeze) (s.dev.zissue slot .xofSqueeze)

/-- MAC_KEYSTATE (R156): Computes HMAC key states into a slot with a new stamp. -/
def execZxMacKeystate (slot : Nat) (s : State) : Host.Outcome State Fault Refusal := run s (s.dev.at slot .macKeystate) (s.dev.zissue slot .macKeystate)

/-- MAC_INIT (R247): Starts a MAC state from a slot's inner key state. -/
def execZxMacInit (slot : Nat) (s : State) : Host.Outcome State Fault Refusal := run s (s.dev.at slot .macInit) (s.dev.zissue slot .macInit)

/-- MAC_FINAL (R247): Checks the stamp, runs the outer hash and writes the tag. -/
def execZxMacFinal (slot : Nat) (s : State) : Host.Outcome State Fault Refusal := run s (s.dev.at slot .macFinal) (s.dev.zissue slot .macFinal)

/-- CMP_CT (R157): Compares two cells in constant time. -/
def execZxCmpCt (slot : Nat) (s : State) : Host.Outcome State Fault Refusal := run s (s.dev.at slot .cmpCt) (s.dev.zissue slot .cmpCt)

/-- SLH_KEYGEN (R158): Generates an SLH-DSA key pair. -/
def execZxSlhKeygen (slot : Nat) (s : State) : Host.Outcome State Fault Refusal := run s (s.dev.at slot .slhKeygen) (s.dev.zissue slot .slhKeygen)

/-- SLH_SIGN (R251): Produces an SLH-DSA signature run on barrels or digest cores. -/
def execZxSlhSign (slot : Nat) (s : State) : Host.Outcome State Fault Refusal := run s (s.dev.at slot .slhSign) (s.dev.zissue slot .slhSign)

/-- SLH_VERIFY (R158): Verifies an SLH-DSA signature run. -/
def execZxSlhVerify (slot : Nat) (s : State) : Host.Outcome State Fault Refusal := run s (s.dev.at slot .slhVerify) (s.dev.zissue slot .slhVerify)

/-- BN_SETMOD (R162): Sets the turn's modulus. -/
def execZxBnSetmod (slot : Nat) (s : State) : Host.Outcome State Fault Refusal := run s (s.dev.at slot .bnSetmod) (s.dev.zissue slot .bnSetmod)

/-- BN_ADD (R265): Performs modular addition. -/
def execZxBnAdd (slot : Nat) (s : State) : Host.Outcome State Fault Refusal := run s (s.dev.at slot .bnAdd) (s.dev.zissue slot .bnAdd)

/-- BN_SUB (R265): Performs modular subtraction. -/
def execZxBnSub (slot : Nat) (s : State) : Host.Outcome State Fault Refusal := run s (s.dev.at slot .bnSub) (s.dev.zissue slot .bnSub)

/-- BN_MUL (R265): Performs modular multiplication. -/
def execZxBnMul (slot : Nat) (s : State) : Host.Outcome State Fault Refusal := run s (s.dev.at slot .bnMul) (s.dev.zissue slot .bnMul)

/-- BN_EXP (R265): Performs modular exponentiation. -/
def execZxBnExp (slot : Nat) (s : State) : Host.Outcome State Fault Refusal := run s (s.dev.at slot .bnExp) (s.dev.zissue slot .bnExp)

/-- BN_INV (R265): Performs modular inversion with the product check. -/
def execZxBnInv (slot : Nat) (s : State) : Host.Outcome State Fault Refusal := run s (s.dev.at slot .bnInv) (s.dev.zissue slot .bnInv)

/-- EC_KEYGEN (R262): Generates an ECDSA key pair. -/
def execZxEcKeygen (slot : Nat) (s : State) : Host.Outcome State Fault Refusal := run s (s.dev.at slot .ecKeygen) (s.dev.zissue slot .ecKeygen)

/-- EC_SIGN (R266): Produces an ECDSA signature with an algebraic re-verify. -/
def execZxEcSign (slot : Nat) (s : State) : Host.Outcome State Fault Refusal := run s (s.dev.at slot .ecSign) (s.dev.zissue slot .ecSign)

/-- EC_VERIFY (R265): Verifies an ECDSA signature. -/
def execZxEcVerify (slot : Nat) (s : State) : Host.Outcome State Fault Refusal := run s (s.dev.at slot .ecVerify) (s.dev.zissue slot .ecVerify)

/-- EC_DH (R265): Performs an ECDH point multiplication. -/
def execZxEcDh (slot : Nat) (s : State) : Host.Outcome State Fault Refusal := run s (s.dev.at slot .ecDh) (s.dev.zissue slot .ecDh)

/-- ECX_KEYGEN (R262): Generates an X25519 or X448 key pair. -/
def execZxEcxKeygen (slot : Nat) (s : State) : Host.Outcome State Fault Refusal := run s (s.dev.at slot .ecxKeygen) (s.dev.zissue slot .ecxKeygen)

/-- ECX_MUL (R162): Performs an X25519 or X448 scalar multiplication. -/
def execZxEcxMul (slot : Nat) (s : State) : Host.Outcome State Fault Refusal := run s (s.dev.at slot .ecxMul) (s.dev.zissue slot .ecxMul)

/-- ED_KEYGEN (R262): Generates an EdDSA key pair. -/
def execZxEdKeygen (slot : Nat) (s : State) : Host.Outcome State Fault Refusal := run s (s.dev.at slot .edKeygen) (s.dev.zissue slot .edKeygen)

/-- ED_SIGN (R263): Produces an EdDSA signature with a re-verify. -/
def execZxEdSign (slot : Nat) (s : State) : Host.Outcome State Fault Refusal := run s (s.dev.at slot .edSign) (s.dev.zissue slot .edSign)

/-- ED_VERIFY (R265): Verifies an EdDSA signature, cofactored. -/
def execZxEdVerify (slot : Nat) (s : State) : Host.Outcome State Fault Refusal := run s (s.dev.at slot .edVerify) (s.dev.zissue slot .edVerify)

/-- RSA_PUB (R265): Performs the RSA public operation. -/
def execZxRsaPub (slot : Nat) (s : State) : Host.Outcome State Fault Refusal := run s (s.dev.at slot .rsaPub) (s.dev.zissue slot .rsaPub)

/-- RSA_PRIV (R267): Performs the RSA private operation, with no invariant. -/
def execZxRsaPriv (slot : Nat) (s : State) : Host.Outcome State Fault Refusal := run s (s.dev.at slot .rsaPriv) (s.dev.zissue slot .rsaPriv)

/-- RSA_CRT (R266): Performs the RSA CRT private operation with its checks. -/
def execZxRsaCrt (slot : Nat) (s : State) : Host.Outcome State Fault Refusal := run s (s.dev.at slot .rsaCrt) (s.dev.zissue slot .rsaCrt)

/-- BLK_ENC (R165): Encrypts AES blocks as a gang. -/
def execZxBlkEnc (slot : Nat) (s : State) : Host.Outcome State Fault Refusal := run s (s.dev.at slot .blkEnc) (s.dev.zissue slot .blkEnc)

/-- BLK_DEC (R165): Decrypts AES blocks as a gang. -/
def execZxBlkDec (slot : Nat) (s : State) : Host.Outcome State Fault Refusal := run s (s.dev.at slot .blkDec) (s.dev.zissue slot .blkDec)

/-- GHM_GHASH (R165): Accumulates GHASH into Y. -/
def execZxGhmGhash (slot : Nat) (s : State) : Host.Outcome State Fault Refusal := run s (s.dev.at slot .ghash) (s.dev.zissue slot .ghash)

/-- GHM_XTS_SEQ (R165): Generates the XTS tweak sequence. -/
def execZxGhmXtsSeq (slot : Nat) (s : State) : Host.Outcome State Fault Refusal := run s (s.dev.at slot .xtsSeq) (s.dev.zissue slot .xtsSeq)

/-- CTX_SAVE_VAULT (R276): Saves a context into a vault slot. -/
def execZxCtxSaveVault (slot : Nat) (s : State) : Host.Outcome State Fault Refusal := run s (s.dev.at slot .ctxSaveVault) (s.dev.zissue slot .ctxSaveVault)

/-- CTX_SAVE_WRAPPED (R277): Seals a context under the keyway. -/
def execZxCtxSaveWrapped (slot : Nat) (s : State) : Host.Outcome State Fault Refusal := run s (s.dev.at slot .ctxSaveWrapped) (s.dev.zissue slot .ctxSaveWrapped)

/-- CTX_RESTORE_VAULT (R276): Restores a context from a vault slot. -/
def execZxCtxRestoreVault (slot : Nat) (s : State) : Host.Outcome State Fault Refusal := run s (s.dev.at slot .ctxRestoreVault) (s.dev.zissue slot .ctxRestoreVault)

/-- CTX_RESTORE_WRAPPED (R277): Opens and restores a wrapped context. -/
def execZxCtxRestoreWrapped (slot : Nat) (s : State) : Host.Outcome State Fault Refusal := run s (s.dev.at slot .ctxRestoreWrapped) (s.dev.zissue slot .ctxRestoreWrapped)

end Sys2Proof.Machine
end

