-- ==== Sys2Proof/Machine/RegRead.lean ====
section
/-! DEFINITION. What a register reads as: one function a block (R31, R57, R93, R192, R219, R238, R255, R270, R280, R300, R315, R336,
R349, R363, R384, R406, R407, R424, R439, R458), over the offset in the block; reserved offsets read 0 (R24). -/

namespace Sys2Proof.Machine

/-- Bits of a predicate over 0 to n - 1. -/
def bits (n : Nat) (f : Nat → Bool) : Nat := (List.range n).foldl (fun w i => w + b2n (f i) * 2 ^ i) 0

/-- The low 32 bits. -/
def lo32 (n : Nat) : Nat := n % 2 ^ 32

/-- Bits 63 to 32. -/
def hi32 (n : Nat) : Nat := n / 2 ^ 32 % 2 ^ 32

/-- One of two halves of a pair (R21). -/
def half (hi : Bool) (n : Nat) : Nat := if hi then hi32 n else lo32 n

/-- CMD_STAT of a command block: BUSY, OVERRUN, STATUS (R93). -/
def cmdStat (busy overrun : Bool) (status : Nat) : Nat := b2n busy * 2 ^ 31 + b2n overrun * 2 ^ 30 + status % 65536

/-- CMD_STAT of a command unit. -/
def CmdUnit.stat (u : CmdUnit) : Nat := cmdStat u.job.isSome u.overrun u.status

/-- The word of an array of registers at offset `o` from `base`. -/
def wordAt (l : List Nat) (base o : Nat) : Nat := nth l ((o - base) / 4) 0

/-! ### Identity, hinge, scheduler, interlock -/

/-- Identity (R31). -/
def Device.readId (d : Device) (o : Nat) : Nat :=
  match o with
  | 0x00 => 0x7C3A1000
  | 0x04 => 0x11
  | 0x08 => 0x0010200C
  | 0x10 => lo32 Config.serial
  | 0x14 => hi32 Config.serial
  | 0x20 => d.hg.vaultPage
  | 0x24 => d.hg.scratch
  | _ => 0

/-- The cut counter that LF_CUT and HG_LEAF_CUT show (R307): a keyway change shows at the edge at which it takes effect. -/
def Device.cutShown (d : Device) (l : Nat) : Nat :=
  match (d.leaf l).change with
  | some c => if c.durable then c.was else d.cut l
  | none => d.cut l

/-- Hinge leaf management (R93). -/
def Device.readHinge (d : Device) (o : Nat) : Nat :=
  let l := d.hg.sel
  let x := d.leaf l
  if 0x1000 ≤ o ∧ o < 0x1200 then bits 32 fun b => (d.leaf ((o - 0x1000) * 8 + b)).causes != 0
  else if 0x10 ≤ o ∧ o < 0x30 then wordAt d.hg.cmd.args 0x10 o
  else if 0x70 ≤ o ∧ o < 0x80 then wordAt d.hg.nonce 0x70 o
  else match o with
    | 0x00 => b2n d.hg.selAny * 2 ^ 31 + l
    | 0x08 => d.hg.cmd.stat
    | 0x0C => d.hg.cmd.res
    | 0x40 => at_ x.pasid 8 20 + b2n x.dlog.en * 32 + b2n x.hot * 16 + x.module * 8 + x.state.code
    | 0x44 => d.gen l
    | 0x48 => lo32 (d.cutShown l)
    | 0x4C => hi32 (d.cutShown l)
    | 0x50 => (d.leaves.filter fun e => e.2.state != .free).length * 65536 + (d.leaves.filter fun e => e.2.hot).length
    | 0x60 => d.hg.mtrClass
    | 0x64 => lo32 (nth x.meters d.hg.mtrClass 0)
    | 0x68 => hi32 (nth x.meters d.hg.mtrClass 0)
    | 0x1200 => x.causes
    | _ => 0

/-- A turn is on a delay list (R115, R137): NOT_BEFORE is ahead, or a WAIT runs. -/
def Device.delayed (d : Device) (t : Turn) : Bool :=
  match t.phase with
  | .waitDelay _ => true
  | .blocked => !met d.sc.beat t.hdr.notBefore
  | _ => false

/-- The class of the ready list on which a turn stands (R105, R175): that of its operation, or, while it waits for store, of its next charged
instruction. -/
def Turn.listClass (t : Turn) : Option Nat :=
  match t.phase with
  | .ready => t.op.map Op.cls
  | .needHome => some (((t.prog.drop t.pc).findSome? t.engineClass).getD (b2n t.bolt))
  | _ => none

/-- Hinge work that waits for an engine of a class (R65, R192). -/
def Job.waitsFor (x : Job) (k : Nat) : Bool := x.inStroke.isNone && (x.seg.any fun g => g.cls == k && g.n != 0)

/-- Turns and hinge work on the ready lists of a class (R175, R192). -/
def Device.readyCount (d : Device) (k : Nat) : Nat :=
  (d.turns.filter fun e => e.2.listClass == some k).length + (d.jobs.filter fun x => x.waitsFor k).length

/-- The SC_AVAIL bit of an engine (R188, R192): it clears while the engine is retired, parked, or out for a patch or after a failed self-test. -/
def Engine.available (x : Engine) : Bool := !x.retired && !x.parked && !x.stopped && !x.failed

/-- Scheduler, beat and meters (R188, R192). -/
def Device.readSched (d : Device) (o : Nat) : Nat :=
  let c := d.sc
  if 0x20 ≤ o ∧ o < 0x34 then d.readyCount ((o - 0x20) / 4)
  else if 0x100 ≤ o ∧ o < 0x128 then half ((o / 4) % 2 == 1) (nth c.busy ((o - 0x100) / 8) 0)
  else match o with
    | 0x00 => lo32 c.beat
    | 0x04 => hi32 c.beat
    | 0x10 => b2n c.lock * 256 + c.gap * 16 + c.blank
    | 0x14 => c.limit
    | 0x18 => d.turns.length
    | 0x1C => (d.turns.filter fun e => d.delayed e.2).length
    | 0x40 => bits 32 fun n => (d.tumbler n).available
    | 0x44 => bits 16 fun n => (d.bolt n).available
    | 0x48 => bits 32 fun n => (d.tumbler n).parked
    | 0x140 => lo32 c.blanks
    | 0x144 => hi32 c.blanks
    | 0x148 => lo32 c.pads
    | 0x14C => hi32 c.pads
    | 0x150 => lo32 c.preempts
    | 0x154 => hi32 c.preempts
    | 0x160 => c.evt
    | _ => 0

/-- The bit of an activity class in MI_STAT.RUNNING (R406). -/
def classBit : ActClass → Nat
  | .compute => 0 | .entropy => 1 | .nv => 2 | .sense => 3 | .life => 4 | .fwSwap => 5

/-- The opcode that MI_TKT_STAT shows; R400 gives a transition none. -/
def ticketOpcode (op : Nat) : Nat := (if op = opTransition then Config.transitionOpcode else op) % 256

/-- Maintenance interlock (R406). -/
def Device.readInter (d : Device) (o : Nat) : Nat :=
  let m := d.mi
  if 0x10 ≤ o ∧ o < 0x20 then wordAt m.cmd.args 0x10 o
  else if 0x100 ≤ o ∧ o < 0x120 then field m.done ((o - 0x100) * 8) 32
  else match o with
    | 0x04 => m.cmd.stat
    | 0x08 => m.cmd.res
    | 0x20 => m.queue.length * 256 + bits 6 fun b => m.running.any fun r => classBit r.cls == b
    | 0x30 => m.sel
    | 0x34 => (match Map.get? m.tickets m.sel with
      | some t => at_ t.status 16 16 + ticketOpcode t.op * 256 + t.state
      | none => 0)
    | 0x40 => m.evt
    | _ => 0

/-! ### Collector, tamper, entropy -/

/-- The FC_SRC_CFG word with its parity (R361, R363). -/
def Collector.cfgRead (c : Collector) (s : Nat) : Nat :=
  if 1520 ≤ s ∧ s ≤ 1523 then 0x300
  else (let w := c.cfgOf s; w + b2n (parity w 10) * 2 ^ 31)

/-- Fault collector (R363). -/
def Device.readFc (d : Device) (o : Nat) : Nat :=
  let c := d.fc
  if 0x100 ≤ o ∧ o < 0x1C0 then (c.sticky.toNat >>> ((o - 0x100) * 8)) % 2 ^ 32
  else if 0x1000 ≤ o ∧ o < 0x2800 then c.cfgRead ((o - 0x1000) / 4)
  else match o with
    | 0x00 => b2n c.shackled * 2 ^ 31 + b2n c.aliveStopped * 2 ^ 30 + b2n (!c.traps.isEmpty) * 2 ^ 29
    | 0x04 => b2n c.lock * 256
    | 0x08 => b2n c.firstValid * 2 ^ 31 + c.first
    | 0x0C => c.count
    | 0x10 => c.causeSrc * 65536 + c.cause
    | 0x14 => b2n c.shValid * 2 ^ 31 + c.shSrc
    | 0x20 => c.evt
    | _ => 0

/-- Tamper and ward (R349). -/
def Device.readTp (d : Device) (o : Nat) : Nat :=
  let t := d.tp
  if 0x100 ≤ o ∧ o < 0x180 then (nth t.srcs ((o - 0x100) / 4) {}).cfg
  else if 0x200 ≤ o ∧ o < 0x280 then (let x := nth t.srcs ((o - 0x200) / 4) {}; at_ x.count 16 8 + b2n x.openW)
  else match o with
    | 0x00 => b2n t.lock * 256
    | 0x04 => t.rekeys * 65536 + b2n (t.rekeyWanted && !d.ns.notReady)
    | 0x10 => t.sticky
    | 0x14 => t.bktrig
    | 0x18 => b2n t.pendShackle * 2 + b2n t.pendInt
    | 0x20 => lo32 t.bkFirst
    | 0x24 => t.bkFirstSrc * 65536 + hi32 t.bkFirst % 65536
    | 0x28 => lo32 t.bkLast
    | 0x2C => t.bkLastSrc * 65536 + hi32 t.bkLast % 65536
    | 0x30 => t.bkCount
    | 0x40 => t.evt
    | 0x50 => t.wardLast
    | _ => 0

/-- NS_CHAN_STAT of a channel (R300): online with both pins available, or with no standby pin. -/
def Entropy.chanStat (n : Entropy) (c : Nat) : Nat :=
  let x := n.chan c
  let (a, b) := chanPins c
  let ok (p : Nat) : Bool := (n.pin p).state == .active || (n.pin p).state == .standby
  let st := if !x.online then 0 else if ok a && ok b then 1 else 2
  x.switches * 65536 + b2n x.sel * 4 + st

/-- Entropy (R300); NS_RAW_DATA is read by `rawCore`. -/
def Device.readNs (d : Device) (o : Nat) : Nat :=
  let n := d.ns
  if 0x100 ≤ o ∧ o < 0x180 then
    (let p := n.pin ((o - 0x100) / 4); p.fails * 65536 + p.consec * 256 + p.lastTest * 64 + p.state.code)
  else if 0x200 ≤ o ∧ o < 0x238 then n.chanStat ((o - 0x200) / 4)
  else match o with
    | 0x00 => (n.drbgs.filter fun g => g.inst && !g.stopped).length * 65536 + n.online * 256 +
        16 * (bits 4 fun m => (n.pin (8 * m)).state == .active) + n.state.code
    | 0x04 => b2n n.lock * 256 + n.waitLimit
    | 0x08 => n.test
    | 0x10 => n.evt
    | 0x20 => b2n n.rawActive * 2 ^ 31 + b2n n.rawDone * 2 ^ 30 + n.rawPin
    | 0x24 => n.rawAddr
    | 0x30 => lo32 n.lines
    | 0x34 => hi32 n.lines
    | 0x38 => n.reseeds
    | _ => 0

/-! ### Keys and life cycle -/

/-- Keyway admin and identity (R315). -/
def Device.readKw (d : Device) (o : Nat) : Nat :=
  let k := d.kw
  if 0x10 ≤ o ∧ o < 0x20 then wordAt k.cmd.args 0x10 o
  else if 0x20 ≤ o ∧ o < 0x40 then u32 d.idDigest (o - 0x20)
  else match o with
    | 0x00 => k.epoch % 65536 * 65536 + b2n (!d.aon.share.isEmpty) * 4 + b2n d.certCurrent * 2 + b2n k.valid
    | 0x08 => k.cmd.stat
    | 0x40 => lo32 k.cuts
    | 0x44 => hi32 k.cuts
    | 0x48 => k.stale * 65536 + k.integrity
    | 0x4C => k.evt
    | _ => 0

/-- Hasp and debug opening (R336). -/
def Device.readHs (d : Device) (o : Nat) : Nat :=
  let h := d.hs
  if 0x20 ≤ o ∧ o < 0x30 then wordAt h.cmd.args 0x20 o
  else if 0x40 ≤ o ∧ o < 0x60 then (if h.intkeys = [] then 0 else u32 (hash 5 h.intkeys) (o - 0x40))
  else match o with
    | 0x00 => h.disagree * 65536 + b2n d.wiping * 256 + d.hasp
    | 0x04 => h.rights
    | 0x0C => h.cmd.stat
    | 0x10 => h.cmd.res
    | 0x30 => h.boot
    | 0x34 => at_ h.wipeTarget 8 4 + at_ h.wipeStep 0 4
    | 0x38 => b2n (h.intkeys != [])
    | 0x60 => h.evt
    | _ => 0

/-! ### Power, calibration, NV, microcode -/

/-- Power and shedding (R424). The rails and VDD_CORE read as they are from the release of reset on. -/
def Device.readPw (d : Device) (o : Nat) : Nat :=
  let p := d.power
  let deg (t : Int) : Nat := (t % 256).toNat
  match o with
  | 0x00 => p.applied * 4096 + p.sensed * 256 + p.thermal * 16 + b2n p.lifeHold * 8
  | 0x04 => b2n p.lock * 256
  | 0x08 => if p.boot = 0 then 0 else b2n p.vbatOk * 16 + b2n p.io * 8 + b2n p.ucie * 4 + b2n p.sram * 2 + b2n (decide (695 < p.mv))
  | 0x0C => if p.boot = 0 then 0 else p.mv % 1024
  | 0x10 => deg p.tempMax * 256 + deg p.tempNow
  | 0x14 => 0x780000 + p.crit * 256 + p.warn
  | 0x20 => nth p.stageCnt 0 0
  | 0x24 => nth p.stageCnt 1 0
  | 0x28 => nth p.stageCnt 2 0
  | 0x30 => p.evt
  | 0x40 => b2n d.aon.por * 4 + b2n d.aon.vbatLow * 2 + b2n d.aon.backupSeen
  | 0x48 => lo32 d.aon.rtc
  | 0x4C => hi32 d.aon.rtc
  | _ => 0

/-- The source of an effective value (R427, R439): overlay, factory, or the ROM default. -/
def Cal.source (c : Cal) (code inst : Nat) : Nat :=
  let k := calKey code inst
  if !calKnown code inst then 0
  else if (Map.get? c.overlay k).isSome then 2
  else if (Map.get? c.factory k).isSome then 1
  else if c.erased || c.lost.contains k then 0
  else 1

/-- Calibration (R439). -/
def Device.readCa (d : Device) (o : Nat) : Nat :=
  let c := d.ca
  if 0x20 ≤ o ∧ o < 0x40 then wordAt c.value 0x20 o
  else match o with
    | 0x00 => c.overlay.length * 65536 + b2n ((c.jobs.head?.map CalJob.op) == some 4) * 4 + b2n c.overlayBad * 2 + b2n c.factoryBad
    | 0x08 => cmdStat (!c.jobs.isEmpty) c.cmd.overrun c.cmd.status
    | 0x0C => c.which * 65536 + c.code * 256 + c.inst
    | 0x10 => b2n (c.pend.contains (calKey c.code c.inst)) * 4 + c.source c.code c.inst
    | 0x40 => b2n c.monLock * 256 + c.baud * 16 + b2n c.monEn
    | 0x44 => c.evt
    | _ => 0

/-- NV controller (R384). -/
def Device.readNv (d : Device) (o : Nat) : Nat :=
  let n := d.nv
  let held : Bool := n.ready && !n.inhibit && n.current.isNone && !n.queue.isEmpty && !d.inBudget
  if 0x28 ≤ o ∧ o < 0x38 then wordAt n.patchVer 0x28 o
  else if 0x80 ≤ o ∧ o < 0xC0 then wordAt n.evData 0x80 o
  else if 0x100 ≤ o ∧ o < 0x140 then wordAt n.ufBuf 0x100 o
  else match o with
    | 0x00 => min 64 n.queue.length * 65536 + b2n held * 8 + b2n n.inhibit * 4 + b2n n.skipped * 2 + b2n n.ready
    | 0x04 => b2n n.lock * 256 + n.rate
    | 0x08 => lo32 n.seq
    | 0x0C => hi32 n.seq
    | 0x10 => n.jidx.length
    | 0x14 => n.ce
    | 0x18 => n.rs
    | 0x1C => n.ue
    | 0x20 => n.relocs
    | 0x24 => n.fwVer
    | 0x38 => n.skips
    | 0x40 => n.evt
    | 0x50 => b2n n.scrubActive * 2 ^ 31 + n.scrubPasses
    | 0x60 => n.evPinned * 65536 + n.evWraps
    | 0x64 => 4096 + n.evHead
    | 0x68 => n.evIndex
    | 0xC0 => n.ufLine
    | 0xC4 => b2n n.ufUe * 8 + b2n (n.ufBusy != 0) * 4
    | _ => 0

/-- Microcode (R407); a bank without a valid image or section reads version 0 (DESIGN CHOICE, log entry 36). MC_TRACE_DATA is read by
`traceCore`. -/
def Device.readMc (d : Device) (o : Nat) : Nat :=
  let m := d.mc
  let cl (k : Nat) : McClass := nth m.classes k {}
  if 0x10 ≤ o ∧ o < 0x20 then (let k := (o - 0x10) / 4; b2n (cl k).held * 4 + b2n (m.pass.any fun p => p.cls == k) * 2 + (cl k).bank)
  else if 0x20 ≤ o ∧ o < 0x30 then d.runVer ((o - 0x20) / 4)
  else if 0x30 ≤ o ∧ o < 0x40 then (cl ((o - 0x30) / 4)).verA.getD 0
  else if 0x40 ≤ o ∧ o < 0x50 then (cl ((o - 0x40) / 4)).verB.getD 0
  else match o with
    | 0x00 => b2n m.swapping.isSome * 4 + b2n m.healthy * 2 + m.bank
    | 0x04 => m.verA.getD 0
    | 0x08 => m.verB.getD 0
    | 0x50 => (match m.pass with
      | some p => 2 ^ 31 + p.cls * 256 + p.engine
      | none => 0)
    | 0x60 => b2n m.traceEn * 2 ^ 31 + b2n (decide (4096 ≤ m.trace.length)) * 2 ^ 30 + m.traceSeq
    | 0x70 => m.evt
    | _ => 0

/-! ### Links, ring, pins -/

/-- The registers of one module and its DMA engine (R57). -/
def Device.readLink (d : Device) (m o : Nat) : Nat :=
  let k := d.link m
  let x := d.dma m
  let out := (x.reads.filter DmaRead.issued).length
  match o with
  | 0x00 => b2n k.repairEn * 16 + k.maxRate * 4 + b2n k.enable
  | 0x04 => k.sparesRx * 4096 + k.sparesTx * 256 + k.rate * 16 + k.state.code * 2 + b2n (k.state == .active)
  | 0x08 => k.evt
  | 0x0C => k.retrains
  | 0x10 => x.cto
  | 0x14 => b2n (x.reads.isEmpty && x.writes.isEmpty) * 2 ^ 31 + min 256 out
  | 0x18 => x.evt
  | 0x1C => x.errcnt
  | _ => 0

/-- UCIe and DMA (R51, R57), the MSI-X table and the pending bits in the PCIe layout. -/
def Device.readUl (d : Device) (o : Nat) : Nat :=
  let entry (i : Nat) : Vec := Map.getD d.ul.msix i {}
  if o < 0x200 then d.readLink (o / 0x100) (o % 0x100)
  else if 0x7000 ≤ o ∧ o < 0x7100 then bits 32 fun b => (entry ((o - 0x7000) * 8 + b)).pend
  else if 0x8000 ≤ o then
    (let e := entry ((o - 0x8000) / 16)
     match (o - 0x8000) % 16 with
     | 0 => lo32 e.addr
     | 4 => hi32 e.addr
     | 8 => e.data
     | _ => b2n e.mask)
  else match o with
    | 0x400 => d.ul.index
    | 0x404 => d.ul.addrLo
    | 0x408 => d.ul.addrHi
    | 0x40C => d.ul.data
    | 0x410 => (let e := d.vec d.ul.index; b2n e.pend * 2 + b2n e.mask)
    | _ => 0

/-- Latch ring and pins (R458). While ALIVE toggles, or follows the boundary register (R444), its level is a free bit. -/
def Device.readLr (d : Device) (o : Nat) : Nat :=
  let r := d.lr
  match o with
  | 0x00 => b2n r.lock * 256 + b2n r.tokenEn * 2 + b2n r.mgmtEn
  | 0x04 => r.addr
  | 0x08 => b2n (r.alarmActive && r.tokenEn) * 2 + b2n d.power.hkPll
  | 0x0C => r.alarmSrc * 256 + r.alarmLevel
  | 0x10 => r.evt
  | 0x14 => r.crcErrs * 65536 + r.drops
  | 0x18 => r.rx
  | 0x20 => d.aon.pol
  | 0x24 => (if d.jt.holds || (d.fc.alive && !d.fc.aliveStopped) then (Config.freeByte d.fresh).toNat % 2 else 0) * 16 + d.aon.tamperIn
  | _ => 0

/-! ### Engines -/

/-- Spill units that turns homed on tumbler n hold (R238). -/
def Device.spillHeld (d : Device) (n : Nat) : Nat :=
  (d.slots.spill.filter fun e => match Map.get? d.turns e.1 with
    | some t => t.home == some n
    | none => false).foldl (fun k e => k + e.2.length) 0

/-- A turn homed on tumbler n waits in a phase. -/
def Device.homeWaits (d : Device) (n : Nat) (p : Phase) : Bool := d.turns.any fun e => !e.2.bolt && e.2.home == some n && e.2.phase == p

/-- Tumbler n (R219, R238). -/
def Device.readTu (d : Device) (n o : Nat) : Nat :=
  let x := d.tumbler n
  match o with
  | 0x00 => x.mode * 4096 + min 2 (d.framesHeld false n) * 256 + b2n (bitOf d.sc.blank (n / 8)) * 16 +
      b2n x.mask.seeded * 8 + b2n x.retired * 4 + b2n x.parked * 2 + b2n x.inService
  | 0x04 => x.injectKind * 16 + b2n x.scrubEn
  | 0x08 => poolSize false - d.used false n
  | 0x10 => x.ce
  | 0x14 => x.rs
  | 0x18 => x.ue
  | 0x1C => x.evt
  | 0x20 => x.scrubPasses
  | 0x24 => x.mask.reseeds
  | 0x30 => lo32 x.strokes
  | 0x34 => hi32 x.strokes
  | 0x40 => d.spillHeld n * 16 + b2n (d.homeWaits n .waitSpill) * 8 + b2n (d.homeWaits n .waitSlice) * 4 + b2n (d.drainFor n).isSome * 2 +
      b2n (d.twoFrame n).isSome
  | 0x44 => x.kgAttempts
  | 0x48 => x.slices
  | _ => 0

/-- Bolt n (R270). -/
def Device.readBo (d : Device) (n o : Nat) : Nat :=
  let x := d.bolt n
  match o with
  | 0x00 => (if x.lanes.isSome then x.mode else 15) * 4096 + min 2 (d.framesHeld true n) * 256 + b2n x.mask.seeded * 8 +
      b2n (x.stopped || decide (3 ≤ d.sc.stage)) * 2 + b2n x.inService
  | 0x04 => x.injectKind * 16 + b2n x.scrubEn
  | 0x08 => poolSize true - d.used true n
  | 0x10 => x.ce
  | 0x14 => x.ue
  | 0x18 => x.evt
  | 0x1C => x.refusals
  | 0x20 => x.invariants
  | 0x24 => x.mask.reseeds
  | 0x30 => lo32 x.strokes
  | 0x34 => hi32 x.strokes
  | _ => 0

/-- Engines of a kind that held a stroke in the last beat. -/
def Device.heldCount (d : Device) (p : EngineId → Bool) : Nat := (d.sc.held.filter p).length

/-- Barrel bank (R255). -/
def Device.readBb (d : Device) (o : Nat) : Nat :=
  let x := d.bb
  let isBank : EngineId → Bool := fun e => match e with
    | .plainBarrel _ | .maskedBarrel _ => true
    | _ => false
  match o with
  | 0x00 => if x.stopped then 0 else (192 - x.outA.length) * 65536 + (64 - x.outB.length)
  | 0x04 => x.injectKind * 16
  | 0x08 => d.heldCount isBank
  | 0x0C => d.nodeBuffers
  | 0x10 => x.evt
  | 0x20 => lo32 x.count
  | 0x24 => hi32 x.count
  | _ => 0

/-- Block array (R280); half of the cores are parked at stage 2 (R414). -/
def Device.readBk (d : Device) (o : Nat) : Nat :=
  let x := d.bk
  let isAes : EngineId → Bool := fun e => match e with
    | .aes _ => true
    | _ => false
  let isMult : EngineId → Bool := fun e => match e with
    | .mult _ => true
    | _ => false
  match o with
  | 0x00 => if x.stopped then 0 else
      (16 - x.outB.length) * 65536 + ((List.range 64).filter fun n => !x.outA.contains n && !(2 ≤ d.sc.stageNow && 32 ≤ n)).length
  | 0x04 => x.injectKind * 16
  | 0x08 => d.heldCount isMult * 256 + d.heldCount isAes
  | 0x0C => x.evt
  | 0x20 => lo32 x.count
  | 0x24 => hi32 x.count
  | 0x28 => lo32 x.count2
  | 0x2C => hi32 x.count2
  | _ => 0

/-- Digest cores and key-state slots (R249, R255). -/
def Device.readDg (d : Device) (o : Nat) : Nat :=
  let x := d.dg
  let s := d.slots
  match o with
  | 0x00 => (32 - x.outB.length) * 65536 + (32 - x.outA.length)
  | 0x04 => x.injectKind * 16
  | 0x10 => s.sel
  | 0x14 => s.base
  | 0x18 => s.count
  | 0x1C => b2n s.refused * 4 + b2n s.pend.isSome * 2
  | 0x20 =>
    let key := d.keyUnits.length
    let spill := d.spillUnits.length
    let frame := ((List.range 32).filter fun u => d.framesIn u != 0).length
    (32 - key - spill - frame) * 2 ^ 24 + spill * 65536 + frame * 256 + key
  | 0x24 => x.evt
  | 0x30 => lo32 x.count
  | 0x34 => hi32 x.count
  | _ => 0

/-! ### The register map (R29) -/

/-- The live value of the register at a BAR0 offset; 0 at a reserved one (R24, R29). -/
def Device.live (d : Device) (off : Nat) : Nat :=
  let o := off % 65536
  let b := off / 65536
  if 0x10 ≤ b ∧ b < 0x30 then d.readTu (b - 0x10) o
  else if 0x30 ≤ b ∧ b < 0x40 then d.readBo (b - 0x30) o
  else match b with
    | 0x00 => d.readId o
    | 0x01 => d.readHinge o
    | 0x02 => d.readSched o
    | 0x03 => d.readInter o
    | 0x04 => d.readFc o
    | 0x05 => d.readTp o
    | 0x06 => d.readNs o
    | 0x07 => d.readKw o
    | 0x08 => d.readHs o
    | 0x09 => d.readPw o
    | 0x0A => d.readCa o
    | 0x0B => d.readNv o
    | 0x0C => d.readMc o
    | 0x0D => d.readUl o
    | 0x0E => d.readLr o
    | 0x40 => d.readBb o
    | 0x41 => d.readBk o
    | 0x42 => d.readDg o
    | _ => 0

/-- The registers at an offset belong to a block that is held in BLOCK reset (R27, R354). -/
def Device.held (d : Device) (off : Nat) : Bool :=
  let b := off / 65536
  let o := off % 65536
  d.fc.resets.any fun r => match r with
    | .tumbler n => b == 0x10 + n
    | .bolt n => b == 0x30 + n
    | .bank => b == 0x40
    | .blockArray => b == 0x41
    | .digest => b == 0x42
    | .sched => b == 0x02
    | .entropy => b == 0x06
    | .ring => b == 0x0E
    | .link m => b == 0x0D && o / 0x100 == m && o % 0x100 < 0x10
    | .dma m => b == 0x0D && o / 0x100 == m && 0x10 ≤ o % 0x100
    | .vaultHalf _ | .mgmt => false

/-- The device as a block in reset shows it (R20, R25, R27): reset values, but LOCK and the RWL fields, and BEAT, as they stand. -/
def Device.resetView (d : Device) (off : Nat) : Device :=
  { sc := { lock := d.sc.lock, gap := d.sc.gap, blank := if off / 65536 = 0x02 then d.sc.blank else 0, beat := d.sc.beat }, ns := { lock := d.ns.lock, waitLimit := d.ns.waitLimit },
    lr := { lock := d.lr.lock, tokenEn := d.lr.tokenEn, mgmtEn := d.lr.mgmtEn, addr := d.lr.addr }, aon := d.aon }

/-- A block answers (R321, R360, R393). -/
def Device.blockServed (d : Device) (b : Nat) : Bool :=
  (!d.shackled || [0x00, 0x04, 0x05, 0x08].contains b) &&
  (!d.mc.romOnly || [0x00, 0x03, 0x04, 0x05, 0x08, 0x0B, 0x0C].contains b) &&
  (!d.scrapped || [0x00, 0x04, 0x08].contains b)

/-- The value of a register as a port sees it. -/
def Device.regValue (d : Device) (off : Nat) : Nat :=
  if !d.blockServed (off / 65536) then 0
  else if d.held off then (d.resetView off).live off
  else d.live off

end Sys2Proof.Machine
end

