-- ==== Sys2Proof/Machine/Vault.lean ====
section
/-! DEFINITION. Vault memory as the monitor's window shows it (R30, R79): the leaf contexts, the key-state slots and the spill units lie in
fields of the state, the trap frames and everything else in the byte memory. The places inside a leaf context, which R79 does not give, are
the model's own (DESIGN CHOICE, log entry 100). -/

namespace Sys2Proof.Machine

/-! ### A leaf context (R79) -/

/-- One field of a leaf context: its bytes, and how it is read and written as a little-endian number. -/
structure CtxField where
  size : Nat
  get : Leaf → Nat
  set : Leaf → Nat → Leaf

/-- The flags and small fields of a queue as one word. -/
def Queue.flags (q : Queue) : Nat :=
  b2n q.en + 2 * b2n q.phase + 4 * b2n q.stopped + 16 * q.floor + 256 * q.vector + 65536 * q.sqLog + 2 ^ 24 * q.cqLog

/-- A queue with the flags and small fields of a word. -/
def Queue.withFlags (q : Queue) (v : Nat) : Queue :=
  { q with en := bitOf v 0, phase := bitOf v 1, stopped := bitOf v 2, floor := field v 4 4, vector := field v 8 2, sqLog := field v 16 4,
           cqLog := field v 24 4 }

/-- The fields of queue `k`: configuration and ring pointers. -/
def queueFields (k : Nat) : List CtxField :=
  let f (size : Nat) (get : Queue → Nat) (set : Queue → Nat → Queue) : CtxField :=
    { size := size, get := fun x => get (x.queue k), set := fun x v => x.onQueue k fun q => set q v }
  [f 8 Queue.sqBase fun q v => { q with sqBase := v }, f 8 Queue.cqBase fun q v => { q with cqBase := v }, f 4 Queue.flags Queue.withFlags,
   f 2 Queue.sqHead fun q v => { q with sqHead := v }, f 2 Queue.sqTail fun q v => { q with sqTail := v },
   f 2 Queue.cqHead fun q v => { q with cqHead := v }, f 2 Queue.cqTail fun q v => { q with cqTail := v }]

/-- The 272 bytes of vault context slot `k` (R276): code, length, whether it holds a context, and 256 data bytes. -/
def slotField (k : Nat) : CtxField :=
  { size := 272,
    get := fun x => match Map.get? x.ctx k with
      | some (code, bs) => leNat (leBytes code 1 ++ leBytes bs.length 2 ++ [1] ++ zeros 12 ++ fit 256 bs)
      | none => 0,
    set := fun x v =>
      let b := leBytes v 272
      if u8 b 3 = 1 then { x with ctx := Map.set x.ctx k (u8 b 0, slice b 16 (min 256 (u16 b 1))) } else { x with ctx := Map.erase x.ctx k } }

/-- The fields of a leaf context, from its first byte on (log entry 100): keyway, binding, leaf transport key, nonce, meters, dirty-log state,
queues, vault context slots. -/
def ctxFields : List CtxField :=
  [{ size := 64, get := fun x => leNat x.kw.key, set := fun x v => { x with kw := { x.kw with key := leBytes v 64 } } },
   { size := 4, get := fun x => x.kw.attr + 256 * x.kw.alg + 65536 * (b2n x.kw.loaded + 2 * b2n x.kw.exportable),
     set := fun x v => { x with kw := { x.kw with attr := field v 0 3, alg := field v 8 8, loaded := bitOf v 16, exportable := bitOf v 17 } } },
   { size := 4, get := fun x => x.kw.gen, set := fun x v => { x with kw := { x.kw with gen := v } } },
   { size := 4, get := fun x => x.pasid + 2 ^ 20 * x.module + 2 ^ 24 * x.statusVec,
     set := fun x v => { x with pasid := field v 0 20, module := field v 20 1, statusVec := field v 24 2 } },
   { size := 32, get := fun x => leNat x.ltk, set := fun x v => { x with ltk := leBytes v 32 } },
   { size := 16, get := fun x => leNat x.nonce, set := fun x v => { x with nonce := leBytes v 16 } }] ++
  ((List.range 5).map fun c =>
    { size := 8, get := fun x => nth x.meters c 0, set := fun x v => { x with meters := modifyAt x.meters c fun _ => v % 2 ^ 48 } }) ++
  [{ size := 4, get := fun x => b2n x.dlog.en + 2 * b2n x.dlog.bufB + 4 * b2n x.dlog.ovf,
     set := fun x v => { x with dlog := { x.dlog with en := bitOf v 0, bufB := bitOf v 1, ovf := bitOf v 2 } } },
   { size := 8, get := fun x => x.dlog.a, set := fun x v => { x with dlog := { x.dlog with a := v } } },
   { size := 8, get := fun x => x.dlog.b, set := fun x v => { x with dlog := { x.dlog with b := v } } },
   { size := 8, get := fun x => x.dlog.base, set := fun x v => { x with dlog := { x.dlog with base := v } } },
   { size := 8, get := fun x => x.dlog.pages, set := fun x v => { x with dlog := { x.dlog with pages := v } } }] ++
  ((List.range 64).foldr (fun k r => queueFields k ++ r) []) ++ (List.range 8).map slotField

/-- The field that holds byte `o` of a context, and the byte's place in it. -/
def ctxFieldAt : List CtxField → Nat → Option (CtxField × Nat)
  | [], _ => none
  | f :: r, o => if o < f.size then some (f, o) else ctxFieldAt r (o - f.size)

/-- Byte `i` of a number, little-endian. -/
def byteOf (n i : Nat) : Byte := BitVec.ofNat 8 (n / 256 ^ i)

/-- The number with its byte `i` replaced. -/
def withByte (n i : Nat) (b : Byte) : Nat := n - (byteOf n i).toNat * 256 ^ i + b.toNat * 256 ^ i

/-- Byte `o` of a leaf's context, where a field holds it. -/
def Leaf.ctxByte (x : Leaf) (o : Nat) : Option Byte := (ctxFieldAt ctxFields o).map fun e => byteOf (e.1.get x) e.2

/-- A leaf with byte `o` of its context written, where a field holds it. -/
def Leaf.withCtxByte (x : Leaf) (o : Nat) (b : Byte) : Option Leaf :=
  (ctxFieldAt ctxFields o).map fun e => e.1.set x (withByte (e.1.get x) e.2 b)

/-! ### The shared part (R249) -/

/-- The first byte of the shared part (R79). -/
def sharedBase : Nat := 0x1800000

/-- The first slot of the key state that slot `s` belongs to, with its record (R246, R247). -/
def Slots.stateAt (x : Slots) (s : Nat) : Option (Nat × Nat × Bytes × Bytes) :=
  match Map.get? x.slots s with
  | some (.first a i o) => some (s, a, i, o)
  | some .cont => (match Map.get? x.slots (s / 4 * 4) with
    | some (.first a i o) => some (s / 4 * 4, a, i, o)
    | _ => none)
  | none => none

/-- Byte `o` of the shared part where a key state holds it: its inner state, then its outer one (R156). -/
def Slots.keyByte (x : Slots) (o : Nat) : Option Byte :=
  match x.stateAt (o / 128) with
  | some (s, _, i, u) => (i ++ u)[o - 128 * s]?
  | none => none

/-- The slots with byte `o` of the shared part written, where a key state holds it. -/
def Slots.withKeyByte (x : Slots) (o : Nat) (b : Byte) : Option Slots :=
  match x.stateAt (o / 128) with
  | some (s, a, i, u) =>
    let k := o - 128 * s
    let all := (i ++ u).set k b
    if k < all.length then some { x with slots := Map.set x.slots s (.first a (all.take i.length) (all.drop i.length)) } else none
  | none => none

/-- The turn slot and the place in its public keys that a byte of the shared part stands for: spill units hold each key in claim order (R234,
R235). -/
def Device.spillPlace (d : Device) (o : Nat) : Option (Nat × Deferred × Nat) :=
  d.turns.findSome? fun e => e.2.stores.findSome? fun x =>
    let k := x.units.idxOf (o / 262144)
    let i := 262144 * k + o % 262144
    if k < x.units.length && i < x.data.length then some (e.1, x, i) else none

/-! ### One byte of vault memory -/

/-- The byte at an address, where a field of the state holds it. -/
def Device.homedByte (d : Device) (a : Nat) : Option Byte :=
  if a < sharedBase then
    (let x := d.leaf (a / 0x1800)
     if x.state = .free then none else x.ctxByte (a % 0x1800))
  else (d.slots.keyByte (a - sharedBase)).or ((d.spillPlace (a - sharedBase)).map fun p => nth p.2.1.data p.2.2 0)

/-- The byte of vault memory at an address (R30). -/
def Device.vaultByte (d : Device) (a : Nat) : Byte := (d.homedByte a).getD (d.vault.read a)

/-- A byte written where a field of the state holds it. -/
def Device.setHomed (d : Device) (a : Nat) (b : Byte) : Option Device :=
  if a < sharedBase then
    (let x := d.leaf (a / 0x1800)
     if x.state = .free then none else (x.withCtxByte (a % 0x1800) b).map fun x => d.setLeaf (a / 0x1800) x)
  else match d.slots.withKeyByte (a - sharedBase) b with
    | some x => some { d with slots := x }
    | none => (d.spillPlace (a - sharedBase)).map fun p => d.onTurn p.1 fun t =>
        { t with stores := t.stores.map fun x => if x = p.2.1 then { x with data := x.data.set p.2.2 b } else x }

/-- A byte of vault memory written (R30). -/
def Device.setVaultByte (d : Device) (a : Nat) (b : Byte) : Device := (d.setHomed a b).getD { d with vault := d.vault.write a b }

/-- The word of vault memory at an address is in use (R79, R249): a context, a key state, a spill unit or a trap frame lies there. -/
def Device.vaultHeld (d : Device) (a : Nat) : Bool :=
  if a < sharedBase then (d.leaf (a / 0x1800)).state != .free
  else
    let o := a - sharedBase
    (Map.get? d.slots.slots (o / 128)).isSome || d.pieces.contains (o / 128) || d.slots.spill.any fun e => e.2.contains (o / 262144)

/-! ### The window (R30) -/

/-- The address in vault memory of a window offset (R31). -/
def Device.vaultAddr (d : Device) (off : Nat) : Nat := d.hg.vaultPage * 0x800000 + (off - 0x800000)

/-- A read of the window: the word as stored (R30, R333). -/
def Device.vaultRead (d : Device) (off : Nat) : Nat × Device :=
  let a := d.vaultAddr off
  if !d.right 0 then (0, d.denied) else (leNat ((List.range 4).map fun i => d.vaultByte (a + i)), d)

/-- A write to the window (R30, R333). -/
def Device.vaultWrite (d : Device) (off v : Nat) : Device :=
  let a := d.vaultAddr off
  if !d.right 1 then d.denied else (leBytes v 4).zipIdx.foldl (fun d e => d.setVaultByte (a + e.2) e.1) d

/-- An offset in the window (R29). -/
def inVault (off : Nat) : Bool := 0x800000 ≤ off && off < 0x1000000

end Sys2Proof.Machine
end

