-- ==== Sys2Proof/Machine/RegWrite.lean ====
section
/-! DEFINITION. What a register write does, by access code and lock (R18, R20, R24), one function a block; error injection (R219, R255,
R270, R280), and the micro-trace control (R404). -/

namespace Sys2Proof.Machine

/-- The list with the word of an array of registers at offset `o` from `base` replaced. -/
def setWord (l : List Nat) (base o v : Nat) : List Nat := modifyAt l ((o - base) / 4) fun _ => v

/-- A write of 1 to the OVERRUN bit of CMD_STAT (R61). -/
def overrunAfter (v : Nat) (b : Bool) : Bool := b && !bitOf v 30

/-! ### Identity and hinge -/

/-- Identity (R31): HG_VAULT_PAGE needs MONITOR_READ. -/
def Device.writeId (d : Device) (o v : Nat) : Device :=
  match o with
  | 0x20 => if d.right 0 then { d with hg := { d.hg with vaultPage := field v 0 2 } } else d.denied
  | 0x24 => { d with hg := { d.hg with scratch := v } }
  | _ => d

/-- A write of an opcode to HG_CMD (R62, R93). -/
def Device.hingeOpcode (d : Device) (op : Nat) : Device :=
  d.issueCmd .hinge fun d => match op with
    | 0x01 => d.create
    | 0x02 => d.qconfig
    | 0x03 => d.resetLeaf
    | 0x04 => d.destroy
    | 0x05 => d.quiesce
    | 0x06 => d.resume
    | 0x07 => d.rebind
    | 0x08 => d.dlogSet
    | 0x09 => d.dlogHarvest
    | 0x0A => d.dlogStop
    | 0x0B => d.importOpen
    | 0x0C => d.exportLeaf
    | 0x0D => d.importLeaf
    | _ => d.hingeEnd St.badArgument

/-- Hinge leaf management (R93). -/
def Device.writeHinge (d : Device) (o v : Nat) : Device :=
  let cmd (f : CmdUnit → CmdUnit) : Device := d.onUnit .hinge f
  if 0x10 ≤ o ∧ o < 0x30 then cmd fun u => { u with args := setWord u.args 0x10 o v }
  else if 0x70 ≤ o ∧ o < 0x80 then { d with hg := { d.hg with nonce := setWord d.hg.nonce 0x70 o v } }
  else match o with
    | 0x00 => { d with hg := { d.hg with selAny := bitOf v 31, sel := field v 0 12 } }
    | 0x04 => d.hingeOpcode (field v 0 8)
    | 0x08 => cmd fun u => { u with overrun := overrunAfter v u.overrun }
    | 0x60 => { d with hg := { d.hg with mtrClass := field v 0 3 } }
    | 0x1200 => d.onLeaf d.hg.sel fun x => { x with causes := clearBits x.causes v }
    | _ => d

/-! ### Scheduler and interlock -/

/-- Scheduler (R192), under SC_CTL.LOCK (R20). -/
def Device.writeSched (d : Device) (o v : Nat) : Device :=
  let c := d.sc
  match o with
  | 0x10 =>
    let set : Device := { d with sc := { c with lock := c.lock || bitOf v 8 } }
    if !c.lock then { set with sc := { set.sc with gap := field v 4 4, blank := field v 0 4 } }
    else if field v 4 4 ≠ c.gap ∨ field v 0 4 ≠ c.blank then set.raiseSrc 1524
    else set
  | 0x14 => { d with sc := { c with limit := field v 0 7 } }
  | 0x160 => { d with sc := { c with evt := clearBits c.evt v } }
  | _ => d

/-- Tickets whose MI_DONE bits are cleared are free again (R402, R406). -/
def Inter.clearDone (m : Inter) (w v : Nat) : Inter :=
  let gone := m.done &&& (v * 2 ^ (32 * w))
  { m with done := clearBits m.done gone, tickets := m.tickets.filter fun e => !(bitOf gone e.1) }

/-- A write of an opcode to MI_CMD (R393, R400): where the boot ROM serves, only IMAGE_WRITE of firmware is accepted. -/
def Device.interOpcode (d : Device) (op : Nat) : Device :=
  if d.mc.romOnly && !(op == 0x22 && field (nth d.mi.cmd.args 3 0) 8 2 == 1) then d else d.request op

/-- Maintenance interlock (R406). -/
def Device.writeInter (d : Device) (o v : Nat) : Device :=
  if 0x10 ≤ o ∧ o < 0x20 then d.onUnit .interlock fun u => { u with args := setWord u.args 0x10 o v }
  else if 0x100 ≤ o ∧ o < 0x120 then d.onMi fun m => m.clearDone ((o - 0x100) / 4) v
  else match o with
    | 0x00 => d.interOpcode (field v 0 8)
    | 0x04 => d.onUnit .interlock fun u => { u with overrun := overrunAfter v u.overrun }
    | 0x30 => d.onMi fun m => { m with sel := field v 0 8 }
    | 0x40 => d.onMi fun m => { m with evt := clearBits m.evt v }
    | _ => d

/-! ### Collector, tamper, hasp: W1C fields (R360) -/

/-- Sticky bits of one FC_STICKY word cleared (R356): FC_FIRST loses VALID with the last of them. -/
def Collector.clearSticky (c : Collector) (w v : Nat) : Collector :=
  let s := c.sticky &&& ~~~ (BitVec.ofNat 1536 ((v % 2 ^ 32) * 2 ^ (32 * w)))
  { c with sticky := s, firstValid := c.firstValid && s != 0 }

/-- W1C fields of the collector (R363). -/
def Device.clearFc (d : Device) (o v : Nat) : Device :=
  let c := d.fc
  if 0x100 ≤ o ∧ o < 0x1C0 then { d with fc := c.clearSticky ((o - 0x100) / 4) v }
  else match o with
    | 0x14 => if bitOf v 31 then { d with fc := { c with shValid := false, shSrc := 0 } } else d
    | 0x20 => { d with fc := { c with evt := clearBits c.evt v } }
    | _ => d

/-- A clear of TP_STICKY or TP_BKTRIG is written to the evidence log by management firmware (R348, R379), which does not run in the
shackle state. -/
def Device.tamperCleared (d : Device) (reg gone : Nat) : Device :=
  if gone = 0 ∨ d.shackled then d else d.evidence 0x07 0xFFFF [reg, gone]

/-- W1C fields of the tamper block (R348, R349). -/
def Device.clearTp (d : Device) (o v : Nat) : Device :=
  let t := d.tp
  match o with
  | 0x10 => ({ d with tp := { t with sticky := clearBits t.sticky v } } : Device).tamperCleared 0x10 (t.sticky &&& v)
  | 0x14 => ({ d with tp := { t with bktrig := clearBits t.bktrig v } } : Device).tamperCleared 0x14 (t.bktrig &&& v)
  | 0x40 => { d with tp := { t with evt := clearBits t.evt v } }
  | _ => d

/-- W1C fields of the hasp block (R336). -/
def Device.clearHs (d : Device) (o v : Nat) : Device :=
  match o with
  | 0x0C => d.onUnit .hasp fun u => { u with overrun := overrunAfter v u.overrun }
  | 0x60 => { d with hs := { d.hs with evt := clearBits d.hs.evt v } }
  | _ => d

/-- The W1C fields of the blocks that the shackle state serves (R360). -/
def Device.clearOnly (d : Device) (off v : Nat) : Device :=
  match off / 65536 with
  | 0x04 => d.clearFc (off % 65536) v
  | 0x05 => d.clearTp (off % 65536) v
  | 0x08 => d.clearHs (off % 65536) v
  | _ => d

/-- FC_SRC_CFG under FC_CTL.LOCK (R20, R363). -/
def Device.srcCfg (d : Device) (s v : Nat) : Device :=
  let c := d.fc.setCfg s v
  if !d.fc.lock then { d with fc := c }
  else if c.cfgOf s ≠ d.fc.cfgOf s then d.raiseSrc 1525
  else d

/-- Fault collector (R358, R363). -/
def Device.writeFc (d : Device) (o v : Nat) : Device :=
  if 0x1000 ≤ o ∧ o < 0x2800 then d.srcCfg ((o - 0x1000) / 4) v
  else if o = 0x04 then
    (let d1 : Device := { d with fc := { d.fc with lock := d.fc.lock || bitOf v 8 } }
     if bitOf v 0 then d1.restartAlive else d1)
  else d.clearFc o v

/-- Tamper and ward (R349). -/
def Device.writeTp (d : Device) (o v : Nat) : Device :=
  if 0x100 ≤ o ∧ o < 0x180 then d.tpSrcCfg ((o - 0x100) / 4) v
  else if o = 0x00 then { d with tp := { d.tp with lock := d.tp.lock || bitOf v 8 } }
  else d.clearTp o v

/-- A write of an opcode to HS_CMD (R336). -/
def Device.haspOpcode (d : Device) (op : Nat) : Device :=
  if d.mc.romOnly then d
  else d.issueCmd .hasp fun d => match op with
    | 0x01 => d.haspCert 1
    | 0x02 => d.dropRights
    | 0x03 => d.haspCert 3
    | 0x04 => d.intkeyInstall
    | _ => d.finish .hasp St.badArgument

/-- Hasp and debug opening (R336). -/
def Device.writeHs (d : Device) (o v : Nat) : Device :=
  if 0x20 ≤ o ∧ o < 0x30 then d.onUnit .hasp fun u => { u with args := setWord u.args 0x20 o v }
  else if o = 0x08 then d.haspOpcode (field v 0 8)
  else d.clearHs o v

/-! ### Entropy, keyway admin, power -/

/-- Entropy (R297, R300), under NS_CTL.LOCK (R20). -/
def Device.writeNs (d : Device) (o v : Nat) : Device :=
  let n := d.ns
  match o with
  | 0x04 =>
    let set := d.onNs fun n => { n with lock := n.lock || bitOf v 8 }
    if !n.lock then set.onNs fun n => { n with waitLimit := field v 0 8 }
    else if field v 0 8 ≠ n.waitLimit then set.raiseSrc 1526
    else set
  | 0x10 => d.onNs fun n => { n with evt := clearBits n.evt v }
  | 0x24 => d.onNs fun n => { n with rawAddr := field v 0 18 }
  | _ => d

/-- A write of an opcode to KW_CMD (R315). -/
def Device.keywayOpcode (d : Device) (op : Nat) : Device :=
  d.issueCmd .keyway fun d => match op with
    | 0x01 => d.idgen
    | 0x02 => d.certInstall
    | 0x03 => d.certRead
    | 0x04 => d.attest
    | _ => d.finish .keyway St.badArgument

/-- Keyway admin and identity (R315). -/
def Device.writeKw (d : Device) (o v : Nat) : Device :=
  if 0x10 ≤ o ∧ o < 0x20 then d.onUnit .keyway fun u => { u with args := setWord u.args 0x10 o v }
  else match o with
    | 0x04 => d.keywayOpcode (field v 0 8)
    | 0x08 => d.onUnit .keyway fun u => { u with overrun := overrunAfter v u.overrun }
    | 0x4C => { d with kw := { d.kw with evt := clearBits d.kw.evt v } }
    | _ => d

/-- Power and shedding (R424), under PW_CTL.LOCK (R20). -/
def Device.writePw (d : Device) (o v : Nat) : Device :=
  let p := d.power
  match o with
  | 0x04 => { d with power := { p with lock := p.lock || bitOf v 8 } }
  | 0x14 =>
    if !p.lock then { d with power := { p with warn := field v 0 8, crit := field v 8 8 } }
    else if field v 0 8 ≠ p.warn ∨ field v 8 8 ≠ p.crit then d.raiseSrc 1528
    else d
  | 0x30 => { d with power := { p with evt := clearBits p.evt v } }
  | 0x40 => { d with aon := { d.aon with por := d.aon.por && !bitOf v 2, vbatLow := d.aon.vbatLow && !bitOf v 1,
                                         backupSeen := d.aon.backupSeen && !bitOf v 0 } }
  | _ => d

/-! ### Calibration, NV, microcode -/

/-- Calibration (R439), under CA_MON_CTL.LOCK (R20). -/
def Device.writeCa (d : Device) (o v : Nat) : Device :=
  let c := d.ca
  if 0x20 ≤ o ∧ o < 0x40 then d.onCa fun c => { c with value := setWord c.value 0x20 o v }
  else match o with
    | 0x04 => d.calIssue fun d => d.calOpcode (field v 0 8)
    | 0x08 => d.onCa fun c => { c with cmd := { c.cmd with overrun := overrunAfter v c.cmd.overrun } }
    | 0x0C => d.onCa fun c => { c with which := field v 16 2, code := field v 8 5, inst := field v 0 6 }
    | 0x40 =>
      let set := d.onCa fun c => { c with monLock := c.monLock || bitOf v 8 }
      if !c.monLock then set.onCa fun c => { c with monEn := bitOf v 0 }
      else if bitOf v 0 ≠ c.monEn then set.raiseSrc 1530
      else set
    | 0x44 => d.onCa fun c => { c with evt := clearBits c.evt v }
    | _ => d

/-- NV controller (R372, R382, R384), under NV_CTL.LOCK (R20). A write of NV_UF_CTL.WRITE leaves its transfer to UF_WRITE. -/
def Device.writeNv (d : Device) (o v : Nat) : Device :=
  let n := d.nv
  if 0x100 ≤ o ∧ o < 0x140 then { d with nv := { n with ufBuf := setWord n.ufBuf 0x100 o v } }
  else match o with
    | 0x04 =>
      let set : Device := { d with nv := { n with lock := n.lock || bitOf v 8 } }
      if !n.lock then { set.refill with nv := { set.refill.nv with rate := field v 0 3 } }
      else if field v 0 3 ≠ n.rate then set.raiseSrc 1527
      else set
    | 0x40 => { d with nv := { n with evt := clearBits n.evt v } }
    | 0x68 => d.evlIndex v
    | 0xC0 => { d with nv := { n with ufLine := field v 0 17 } }
    | 0xC4 => if bitOf v 1 then { d with nv := { n with ufBusy := 2 } } else if bitOf v 0 then d.ufRead false else d
    | _ => d

/-- MC_TRACE_CTL (R404, R407): without MICROTRACE the write is dropped; a reserved SEQ leaves EN 0. A start discards the earlier capture. -/
def Device.traceCtl (d : Device) (v : Nat) : Device :=
  if !d.right 5 then d.denied
  else
    let m := { d.mc with traceSeq := field v 0 8 }
    if !bitOf v 31 ∨ 0x32 ≤ field v 0 8 then { d with mc := { m with traceEn := false } }
    else { d with mc := { m with traceEn := true, trace := [], tracePos := 0 } }

/-- A read of MC_TRACE_DATA (R404, R407): an entry, then the next; 0 past the last one captured. -/
def Device.traceCore (d : Device) : Nat × Device :=
  let m := d.mc
  let e := nth m.trace m.tracePos (0, 0)
  (e.1 * 65536 + e.2, { d with mc := { m with tracePos := (m.tracePos + 1) % 4096 } })

/-- Microcode (R407). -/
def Device.writeMc (d : Device) (o v : Nat) : Device :=
  match o with
  | 0x60 => d.traceCtl v
  | 0x70 => { d with mc := { d.mc with evt := clearBits d.mc.evt v } }
  | _ => d

/-! ### Links, ring, pins -/

/-- A word of an MSI-X entry (R51; PRESUMED PCIe, log entry 14): unmasking a pending entry sends its message. -/
def Device.writeMsix (d : Device) (i w v : Nat) : Device :=
  let e : Vec := Map.getD d.ul.msix i {}
  let put (e : Vec) : Device := { d with ul := { d.ul with msix := Map.set d.ul.msix i e } }
  match w with
  | 0 => put { e with addr := v / 4 * 4 + 2 ^ 32 * hi32 e.addr }
  | 4 => put { e with addr := lo32 e.addr + 2 ^ 32 * v }
  | 8 => put { e with data := v }
  | _ =>
    let off := e.pend && !bitOf v 0
    (put { e with mask := bitOf v 0, pend := e.pend && bitOf v 0 }).when off (·.hingeMsi i)

/-- UCIe and DMA (R51, R57). -/
def Device.writeUl (d : Device) (o v : Nat) : Device :=
  if 0x8000 ≤ o then d.writeMsix ((o - 0x8000) / 16) ((o - 0x8000) % 16) v
  else if o < 0x200 then
    (let m := o / 0x100
     match o % 0x100 with
     | 0x00 => d.modCtl m v
     | 0x08 => d.onLink m fun k => { k with evt := clearBits k.evt v }
     | 0x10 => d.onDma m fun k => { k with cto := field v 0 3 }
     | 0x18 => d.onDma m fun k => { k with evt := clearBits k.evt v }
     | _ => d)
  else match o with
    | 0x400 => d.lvtIndex v
    | 0x404 => { d with ul := { d.ul with addrLo := v / 4 * 4 } }
    | 0x408 => { d with ul := { d.ul with addrHi := v } }
    | 0x40C => { d with ul := { d.ul with data := v } }
    | 0x410 => d.lvtCtl v
    | _ => d

/-- Latch ring and pins (R458), under LR_CTL.LOCK (R20). -/
def Device.writeLr (d : Device) (o v : Nat) : Device :=
  let r := d.lr
  match o with
  | 0x00 =>
    let set : Device := { d with lr := { r with lock := r.lock || bitOf v 8 } }
    if !r.lock then { set with lr := { set.lr with tokenEn := bitOf v 1, mgmtEn := bitOf v 0 } }
    else if bitOf v 1 ≠ r.tokenEn ∨ bitOf v 0 ≠ r.mgmtEn then set.raiseSrc 1531
    else set
  | 0x04 =>
    if !r.lock then { d with lr := { r with addr := field v 0 8 } }
    else if field v 0 8 ≠ r.addr then d.raiseSrc 1531
    else d
  | 0x10 => { d with lr := { r with evt := clearBits r.evt v } }
  | 0x20 => d.tamperPol v
  | _ => d

/-! ### Engines -/

/-- An injection is asked for without FAULT_INJECT (R219, R333). -/
def Device.injectDenied (d : Device) (v : Nat) : Bool := bitOf v 8 && !d.right 6

/-- A write of a CTL register that may inject: without the right, the write of INJECT is dropped and raises the debug-access source; the
other fields take effect (R219; DEDUCED, log entry 72). -/
def Device.ctlWrite (d : Device) (v : Nat) (f : Device → Nat → Device) : Device :=
  if d.injectDenied v then f d.denied (v - 256) else f d v

/-- TU_CTL and BO_CTL (R219, R270). -/
def Engine.ctl (x : Engine) (v : Nat) : Engine :=
  { x with injectKind := field v 4 2, scrubEn := bitOf v 0, armed := if bitOf v 8 then some (field v 4 2) else x.armed }

/-- BB_CTL, DG_CTL and BK_CTL (R255, R280): kind 3 injects nothing. -/
def Array'.ctl (x : Array') (v : Nat) : Array' :=
  { x with injectKind := field v 4 2, armed := if bitOf v 8 && field v 4 2 != 3 then some (field v 4 2) else x.armed }

/-- Tumbler n (R219). -/
def Device.writeTu (d : Device) (n o v : Nat) : Device :=
  match o with
  | 0x04 => d.ctlWrite v fun d v => d.onTu n fun x => x.ctl v
  | 0x1C => d.onTu n fun x => { x with evt := clearBits x.evt v }
  | _ => d

/-- Bolt n (R270). -/
def Device.writeBo (d : Device) (n o v : Nat) : Device :=
  match o with
  | 0x04 => d.ctlWrite v fun d v => d.onBo n fun x => x.ctl v
  | 0x18 => d.onBo n fun x => { x with evt := clearBits x.evt v }
  | _ => d

/-- Barrel bank (R255). -/
def Device.writeBb (d : Device) (o v : Nat) : Device :=
  match o with
  | 0x04 => d.ctlWrite v fun d v => { d with bb := d.bb.ctl v }
  | 0x10 => { d with bb := { d.bb with evt := clearBits d.bb.evt v } }
  | _ => d

/-- Block array (R280). -/
def Device.writeBk (d : Device) (o v : Nat) : Device :=
  match o with
  | 0x04 => d.ctlWrite v fun d v => { d with bk := d.bk.ctl v }
  | 0x0C => { d with bk := { d.bk with evt := clearBits d.bk.evt v } }
  | _ => d

/-- Digest cores and key-state slots (R246, R255). -/
def Device.writeDg (d : Device) (o v : Nat) : Device :=
  match o with
  | 0x04 => d.ctlWrite v fun d v => { d with dg := d.dg.ctl v }
  | 0x10 => d.selRange (field v 0 12)
  | 0x14 => { d with slots := { d.slots with base := field v 0 16 } }
  | 0x18 => { d with slots := { d.slots with count := field v 0 17 } }
  | 0x1C => if bitOf v 0 then d.commitRange else d
  | 0x24 => { d with dg := { d.dg with evt := clearBits d.dg.evt v } }
  | _ => d

/-! ### One access of BAR0 (R16 to R20, R24, R27, R29) -/

/-- A read of one word by any port: its value, and the device after what the read itself does. -/
def Device.regRead (d : Device) (off : Nat) : Nat × Device :=
  if !d.blockServed (off / 65536) then (0, d)
  else if inVault off then d.vaultRead off
  else if d.held off then (d.regValue off, d)
  else if off = 0x60028 then d.rawCore
  else if off = 0xC0064 then d.traceCore
  else if off = 0xE0024 then (d.live off, { d with fresh := d.fresh + 1 })
  else (d.live off, d)

/-- The write reaches its block. -/
def Device.blockWrite (d : Device) (off v : Nat) : Device :=
  let o := off % 65536
  let b := off / 65536
  if 0x10 ≤ b ∧ b < 0x30 then d.writeTu (b - 0x10) o v
  else if 0x30 ≤ b ∧ b < 0x40 then d.writeBo (b - 0x30) o v
  else match b with
    | 0x00 => d.writeId o v
    | 0x01 => d.writeHinge o v
    | 0x02 => d.writeSched o v
    | 0x03 => d.writeInter o v
    | 0x04 => d.writeFc o v
    | 0x05 => d.writeTp o v
    | 0x06 => d.writeNs o v
    | 0x07 => d.writeKw o v
    | 0x08 => d.writeHs o v
    | 0x09 => d.writePw o v
    | 0x0A => d.writeCa o v
    | 0x0B => d.writeNv o v
    | 0x0C => d.writeMc o v
    | 0x0D => d.writeUl o v
    | 0x0E => d.writeLr o v
    | 0x40 => d.writeBb o v
    | 0x41 => d.writeBk o v
    | 0x42 => d.writeDg o v
    | _ => d

/-- A write of one word by any port: dropped where no block answers or BLOCK reset holds it; only W1C fields in the shackle state (R360). -/
def Device.regWrite (d : Device) (off v : Nat) : Device :=
  if !d.blockServed (off / 65536) then d
  else if d.shackled then d.clearOnly off v
  else if inVault off then d.vaultWrite off v
  else if d.held off then d
  else d.blockWrite off v

end Sys2Proof.Machine
end

