-- ==== Sys2Proof/Machine/HostRows.lean ====
section
/-! DEFINITION. The host's accesses: BAR0 reads with the shadows of register pairs (R16, R21 to R23), BAR0 writes, the vault memory
window, and the leaf windows of BAR2 (R32 to R35, R69, R92, R290). -/

namespace Sys2Proof.Machine

/-! ### Pairs (R21, R23) -/

/-- The offset is that of a _LO register of BAR0 whose _HI follows it. -/
def pairLo (off : Nat) : Bool :=
  let o := off % 65536
  let b := off / 65536
  if 0x10 ≤ b ∧ b < 0x40 then o == 0x30
  else match b with
    | 0x00 => o == 0x10
    | 0x01 => o == 0x48 || o == 0x64
    | 0x02 => o == 0 || (0x100 ≤ o && o < 0x128 && o % 8 == 0) || o == 0x140 || o == 0x148 || o == 0x150
    | 0x05 => o == 0x20 || o == 0x28
    | 0x06 => o == 0x30
    | 0x07 => o == 0x40
    | 0x09 => o == 0x48
    | 0x0B => o == 0x08
    | 0x40 => o == 0x20
    | 0x41 => o == 0x20 || o == 0x28
    | 0x42 => o == 0x30
    | _ => false

/-- The value of a _HI register whose shadow holds `w`: fields of it that are not part of the pair read live (R349). -/
def mixShadow (off w live : Nat) : Nat := if off = 0x50024 ∨ off = 0x5002C then live / 65536 * 65536 + w % 65536 else w

/-- A read of a BAR0 word through the shadows whose keys start at `base` (R21): 0 for the hinge, 2^26 for the monitor (R436). A _LO read
fills the shadow with the live high half; a _HI read takes it. -/
def Device.pairRead (d : Device) (base off : Nat) : Nat × Device :=
  let (v, d1) := d.regRead off
  if pairLo off then
    (v, { d1 with pairs := { d1.pairs with shadow := Map.set d1.pairs.shadow (base + off + 4) (d.regRead (off + 4)).1 } })
  else match Map.get? d1.pairs.shadow (base + off) with
    | some w => (mixShadow off w v, { d1 with pairs := { d1.pairs with shadow := Map.erase d1.pairs.shadow (base + off) } })
    | none => (v, d1)

/-- A completion of a host read (R21). -/
def Device.replies (r : Nat × Device) : Device := r.2.emit (.readData r.1)

/-- A host access of BAR0 that is not one aligned word (R16): Unsupported Request for a read, a dropped write, and source 1232. -/
def Device.badAccess (d : Device) (read : Bool) : Device := (d.when read (·.emit .notServed)).raiseSrc 1232

/-- One aligned 32-bit access with all byte enables set (R16, R32). -/
def wordAccess (off : Nat) (a : Access) : Bool := a.size == 4 && a.enables == 15 && off % 4 == 0

/-- A host access of BAR0: not served without its link; refused unless it is one word (R16). -/
def Device.hostAccess (d : Device) (off : Nat) (a : Access) (read : Bool) (f : Device → Device) : Device :=
  if !d.serves 0 then d.unserved 0 else if !(wordAccess off a) then d.badAccess read else f d

/-- A host read of BAR0. -/
def Device.hostRead (d : Device) (off : Nat) (a : Access) : Device := d.hostAccess off a true fun d => Device.replies (d.pairRead 0 off)

/-- A host write of BAR0 (R16, R18). -/
def Device.hostWrite (d : Device) (off : Nat) (a : Access) (v : Nat) : Device := d.hostAccess off a false fun d => d.regWrite off v

/-! ### Leaf windows (R32 to R35) -/

/-- BAR2 is served at all (R321, R360, R393). -/
def Device.leavesServed (d : Device) : Bool := !d.shackled && !d.scrapped && !d.mc.romOnly

/-- The access names a leaf that exists and is bound to the module (R35, R58). -/
def Device.leafHit (d : Device) (m l : Nat) : Bool := d.leavesServed && (d.leaf l).serves && (d.leaf l).module == m

/-- A leaf-window access (R34, R35, R40): `f` where R32 accepts it; a stray one raises source 1233, one that R32 does not accept sets
ACC_ERR, and a read of either completes with zero data. -/
def Device.leafAccess (d : Device) (m l : Nat) (read ok : Bool) (f : Device → Device) : Device :=
  let zero (d : Device) : Device := d.when read (·.emit (.readData 0))
  if !d.serves m then d.unserved m
  else if !d.leafHit m l then (zero d).raiseSrc 1233
  else if !ok then (zero d).leafStatus l 1
  else f d

/-- A register of a leaf's window (R92, R192). -/
def Device.leafValue (d : Device) (l o : Nat) : Nat :=
  let x := d.leaf l
  if 0x3000 ≤ o ∧ o < 0x3800 then
    (let q := x.queue ((o - 0x3000) / 0x20)
     match o % 0x20 with
     | 0x00 => lo32 q.sqBase
     | 0x04 => hi32 q.sqBase
     | 0x08 => lo32 q.cqBase
     | 0x0C => hi32 q.cqBase
     | 0x10 => b2n q.en * 2 ^ 31 + q.floor * 2 ^ 24 + q.vector * 2 ^ 20 + q.sqLog * 256 + q.cqLog
     | 0x14 => q.cqTail * 65536 + q.sqHead
     | _ => 0)
  else if 0x5000 ≤ o ∧ o < 0x5028 then half ((o / 4) % 2 == 1) (nth x.meters ((o - 0x5000) / 8) 0)
  else match o with
    | 0x2000 => x.state.code * 32 + x.status
    | 0x2004 => bits 32 fun q => (x.queue q).stopped
    | 0x2008 => bits 32 fun q => (x.queue (32 + q)).stopped
    | 0x200C => b2n d.ns.notReady
    | 0x2010 => x.recLostQ
    | 0x3800 => x.statusVec
    | 0x4000 => b2n x.kw.exportable * 65536 + x.kw.alg * 256 + x.kw.attr * 2 + b2n x.kw.loaded
    | 0x4004 => x.kw.gen
    | 0x4008 => lo32 (d.cutShown l)
    | 0x400C => hi32 (d.cutShown l)
    | 0x4010 => d.gen l
    | 0x5040 => lo32 d.sc.beat
    | 0x5044 => hi32 d.sc.beat
    | 0x6000 => b2n x.dlog.harvest * 8 + b2n x.dlog.ovf * 4 + b2n (x.dlog.bufB != x.dlog.harvest) * 2 + b2n x.dlog.en
    | _ => 0

/-- The _LO registers of a leaf's window (R92, R192). -/
def leafPairLo (o : Nat) : Bool :=
  o == 0x2004 || (0x3000 ≤ o && o < 0x3800 && (o % 0x20 == 0 || o % 0x20 == 8)) || o == 0x4008 || (0x5000 ≤ o && o < 0x5028 && o % 8 == 0) ||
  o == 0x5040

/-- A read of a register of a leaf's window, with the shadows of that window (R21). -/
def Device.leafRead (d : Device) (l o : Nat) : Nat × Device :=
  let k := 2 ^ 27 + l * 65536 + o
  let v := d.leafValue l o
  if leafPairLo o then (v, { d with pairs := { d.pairs with shadow := Map.set d.pairs.shadow (k + 4) (d.leafValue l (o + 4)) } })
  else match Map.get? d.pairs.shadow k with
    | some w => (w, { d with pairs := { d.pairs with shadow := Map.erase d.pairs.shadow k } })
    | none => (v, d)

/-- A read of the random window (R33, R289 to R291): zeros while NOT_READY; else the first bytes of the line in the module's prefetch register, or
held until a line comes, behind the reads that the module holds already. -/
def Device.randomRead (d : Device) (m l size : Nat) : Device :=
  let n := d.ns
  if n.notReady then d.emit (.readData 0)
  else match (if n.held.any fun h => h.1 == m then none else n.pre m) with
    | some line => (d.onNs fun n => n.serveLine m).emit (.readData (leNat (line.take size)))
    | none => d.onNs fun n => { n with held := n.held ++ [(m, l, size)] }

/-- A read of the random window that R32 accepts. -/
def randomOk (off : Nat) (a : Access) : Bool :=
  0x1000 ≤ off && off < 0x2000 && [4, 8, 16, 32, 64].contains a.size && a.enables + 1 == 2 ^ a.size && off % a.size == 0

/-- A read of a register of a leaf's window that R32 accepts. -/
def leafWordOk (off : Nat) (a : Access) : Bool := 0x2000 ≤ off && off < 0x7000 && wordAccess off a

/-- A host read of a leaf's window (R32). -/
def Device.leafReadAt (d : Device) (m l off : Nat) (a : Access) : Device :=
  d.leafAccess m l true (randomOk off a || leafWordOk off a) fun d =>
    if randomOk off a then d.randomRead m l a.size else Device.replies (d.leafRead l off)

/-- The module holds 256 window reads and takes no further one (R291). -/
def Device.heldFull (d : Device) (m : Nat) : Bool := 256 ≤ (d.ns.held.filter fun h => h.1 == m).length

/-- The module takes the read: while it holds 256 window reads, none of the random window comes (R291). -/
def Device.takesRead (d : Device) (m off : Nat) (a : Access) : Bool := !(randomOk off a && d.heldFull m)

/-- A read by a port of the pairs (R21). -/
def runRead (port : Port) (off : Nat) (a : Access) (s : State) : Host.Outcome State Fault Refusal :=
  match port with
  | .hinge => run s true (s.dev.hostRead off a)
  | .leafWin m leaf => run s (s.dev.takesRead m off a) (s.dev.leafReadAt m leaf off a)

/-- A doorbell (R58, R69, R73): acted on while ACTIVE, latched while QUIESCING or QUIESCED, dropped while RESET runs. -/
def Device.doorbell (d : Device) (l q v : Nat) : Device :=
  let x := d.leaf l
  if x.resetting then d
  else if x.state = .active then d.actDoorbell l q v
  else d.onLeaf l fun x => { x with latched := Map.set x.latched q v }

/-- A write of LF_STATUS (R18, R92): its W1C bits. -/
def Device.statusClear (d : Device) (l v : Nat) : Device := d.onLeaf l fun x => { x with status := clearBits x.status (v &&& 0x17) }

/-- A write that R32 accepts: a doorbell of 32 or 64 bits, or a word of the leaf status region. -/
def leafWriteOk (off size : Nat) : Bool :=
  (off < 0x200 && (size == 4 || size == 8) && off % size == 0) || (0x2000 ≤ off && off < 0x3000 && size == 4 && off % 4 == 0)

/-- A host write to a leaf's window (R32, R69): the second word of a doorbell is ignored. -/
def Device.leafWrite (d : Device) (m l off size v : Nat) : Device :=
  d.leafAccess m l false (leafWriteOk off size) fun d =>
    if off < 0x200 then (if off % 8 = 4 then d else d.doorbell l (off / 8) (v % 2 ^ 32))
    else if off = 0x2000 then d.statusClear l v
    else d

/-! ### Rows -/

/-- REGISTER_WRITE (R18). -/
def execRegisterWrite (off : Nat) (acc : Access) (value : Word) (s : State) : Host.Outcome State Fault Refusal :=
  run s true (s.dev.hostWrite off acc value.toNat)

/-- PAIR_LO_READ (R21): a read of a _LO register, and of any register that is not a _HI. -/
def execPairLoRead (port : Port) (acc : BarAccess) (s : State) : Host.Outcome State Fault Refusal := runRead port acc.off acc.toAccess s

/-- PAIR_HI_READ (R21). -/
def execPairHiRead (port : Port) (acc : BarAccess) (s : State) : Host.Outcome State Fault Refusal := runRead port acc.off acc.toAccess s

/-- PAIR_LO_WRITE (R23): staged. Only RSH pairs stage; the map has no writable one, so no block takes the value. -/
def Device.stageLo (d : Device) (off : Nat) (a : Access) (v : Nat) : Device :=
  d.hostAccess off a false fun d =>
    if pairLo off && !d.shackled then { d with pairs := { d.pairs with staged := Map.set d.pairs.staged off v } } else d.regWrite off v

/-- PAIR_LO_WRITE (R23). -/
def execPairLoWrite (acc : BarAccess) (value : Word) (s : State) : Host.Outcome State Fault Refusal :=
  run s true (s.dev.stageLo acc.off acc.toAccess value.toNat)

/-- PAIR_HI_WRITE (R23): both halves reach the block in one cycle, the low one as last staged or 0; RO fields drop theirs (R18). -/
def Device.commitPair (d : Device) (off : Nat) (a : Access) (v : Nat) : Device :=
  d.hostAccess off a false fun d =>
    if 4 ≤ off && pairLo (off - 4) then (d.regWrite (off - 4) (Map.getD d.pairs.staged (off - 4) 0)).regWrite off v else d.regWrite off v

/-- PAIR_HI_WRITE (R23). -/
def execPairHiWrite (acc : BarAccess) (value : Word) (s : State) : Host.Outcome State Fault Refusal :=
  run s true (s.dev.commitPair acc.off acc.toAccess value.toNat)

/-- VAULT_WINDOW_READ (R30). -/
def execVaultWindowRead (acc : BarAccess) (s : State) : Host.Outcome State Fault Refusal := run s true (s.dev.hostRead acc.off acc.toAccess)

/-- VAULT_WINDOW_WRITE (R30). -/
def execVaultWindowWrite (acc : BarAccess) (value : Word) (s : State) : Host.Outcome State Fault Refusal :=
  run s true (s.dev.hostWrite acc.off acc.toAccess value.toNat)

/-- DOORBELL_WRITE (R32, R69). -/
def execDoorbellWrite (m leaf off size : Nat) (value : DWord) (s : State) : Host.Outcome State Fault Refusal :=
  run s (m < 2) (s.dev.leafWrite m leaf off size value.toNat)

/-- RANDOM_WINDOW_READ (R290, R291): any read of a leaf's window with all its byte enables set (R32). -/
def execRandomWindowRead (m leaf off size : Nat) (s : State) : Host.Outcome State Fault Refusal :=
  let a : Access := { size := size, enables := 2 ^ size - 1 }
  run s (m < 2 && s.dev.takesRead m off a) (s.dev.leafReadAt m leaf off a)

/-- LF_STATUS_CLEAR (R92). -/
def execLfStatusClear (m leaf : Nat) (value : Word) (s : State) : Host.Outcome State Fault Refusal :=
  run s (m < 2) (s.dev.leafAccess m leaf false true fun d => d.statusClear leaf value.toNat)

/-- The CTL register that an error injection writes (R219, R255, R270, R280). -/
def injectOffset : InjectTarget → Nat
  | .tumbler n => 0x100004 + n * 0x10000
  | .bolt n => 0x300004 + n * 0x10000
  | .bank => 0x400004
  | .blockArray => 0x410004
  | .digest => 0x420004

/-- ERROR_INJECT (R219). -/
def execErrorInject (target : InjectTarget) (value : Word) (s : State) : Host.Outcome State Fault Refusal :=
  run s true (s.dev.hostWrite (injectOffset target) {} value.toNat)

/-- MICROTRACE_START (R404): a write of MC_TRACE_CTL. -/
def execMicrotraceStart (value : Word) (s : State) : Host.Outcome State Fault Refusal :=
  run s true (s.dev.hostWrite 0xC0060 {} value.toNat)

/-- MICROTRACE_READ (R407): a read of MC_TRACE_DATA. -/
def execMicrotraceRead (s : State) : Host.Outcome State Fault Refusal := run s true (s.dev.hostRead 0xC0064 {})

end Sys2Proof.Machine
end

