-- ==== Sys2Proof/Machine/Scrub.lean ====
section
/-! DEFINITION. The scrubbers of the home stores and of vault memory (R199 to R202, R258, R351). -/

namespace Sys2Proof.Machine

/-- Stripes of a tumbler store (R193, R199): 524,288 bytes, 112 a stripe, and rows of a bolt store (R258): 131,072 bytes, 7 a row. -/
def scrubSteps (bolt : Bool) : Nat := if bolt then 18725 else 4682

/-- The scrubber of a home store runs (R202, R258). -/
def Device.scrubs (d : Device) (e : Engine) : Bool := d.power.engPll && e.scrubEn && !e.inReset

/-- The scrubber goes to its next stripe or row; each full pass is counted (R202). -/
def Engine.scrubOn (e : Engine) (bolt : Bool) : Engine :=
  if e.scrubPos + 1 = scrubSteps bolt then { e with scrubPos := 0, scrubPasses := wrapAdd 32 e.scrubPasses 1 }
  else { e with scrubPos := e.scrubPos + 1 }

/-- What the check of a stripe or row of a home store finds (R199 to R201, R258). -/
def Device.scrubStore (d : Device) (e : EngineId) (r : EccResult) (spot : StoreSpot) : Device :=
  match r with
  | .clean => d
  | .corrected => d.storeCe e false
  | .outerCorrected => d.storeCe e true
  | .uncorrectable => d.storeUe e spot

/-- An uncorrectable word of vault memory (R351). -/
def Device.vaultUe (d : Device) (h : Nat) : VaultSpot → Device
  | .context l => (d.raiseSrc (1122 + h)).contextLost l
  | .spill s => (d.raiseSrc (1124 + h)).onTurn s fun t => if t.ending.isNone then t.setDue St.memoryFault else t
  | .free a => { d.raiseSrc (1126 + h) with vault := d.vault.writeN (a / 8 * 8) (zeros 8) }

/-- A word of vault memory may belong to this (R79, R235, R351). -/
def Device.spotIs (d : Device) : VaultSpot → Bool
  | .context l => (d.leaf l).state != .free
  | .spill s => (Map.get? d.slots.spill s).isSome
  | .free a => !d.vaultHeld a

/-- The scrubber of a vault half (R351). -/
def Device.scrubVault (d : Device) (h : Nat) (spot : VaultSpot) (r : EccResult) : Device :=
  match r with
  | .clean => d
  | .corrected | .outerCorrected => d.raiseSrc (1120 + h)
  | .uncorrectable => d.vaultUe h spot

/-- STORE_SCRUB_STEP (R202, R258, R351): bolts and vault memory have no outer code. -/
def execStoreScrubStep (store : StoreId) (result : EccResult) (spot : StoreSpot) (s : State) : Host.Outcome State Fault Refusal :=
  let d := s.dev
  match store with
  | .tumbler n =>
    run s (d.scrubs (d.tumbler n) && d.spotOn (.tumbler n) spot) ((d.scrubStore (.tumbler n) result spot).onTu n fun e => e.scrubOn false)
  | .bolt n =>
    run s (d.scrubs (d.bolt n) && result != .outerCorrected && d.spotOn (.bolt n) spot)
      ((d.scrubStore (.bolt n) result spot).onBo n fun e => e.scrubOn true)
  | .vault h place =>
    run s (d.power.engPll && result != .outerCorrected && d.spotIs place) (d.scrubVault h place result)

end Sys2Proof.Machine
end

