-- ==== Sys2Proof/Machine/RingJtag.lean ====
section
/-! DEFINITION. The latch ring (R447 to R453, R458), the test access port (R454, R455), and the idle step (log entry 4). -/

namespace Sys2Proof.Machine

/-- The device with the ring changed. -/
def Device.onLr (d : Device) (f : Ring → Ring) : Device := { d with lr := f d.lr }

/-! ### Receiving (R448, R449) -/

/-- A whole frame: LEN at most 32, and a CRC that fits (R448, R449). -/
def frameGood (b : Bytes) : Bool :=
  let n := u8 b 4
  b.length == n + 7 && n ≤ 32 && beNat (slice b (5 + n) 2) == crc16 (b.take (5 + n))

/-- The frame with one hop less and its CRC recomputed (R449). -/
def frameHop (b : Bytes) : Bytes :=
  let c := b.take 3 ++ leBytes ((u8 b 3 + 255) % 256) 1 ++ slice b 4 (1 + u8 b 4)
  c ++ beBytes (crc16 c) 2

/-- A frame is forwarded (R449): at once, or from the one buffer after the own frame under way; a second one is dropped. -/
def Device.forward (d : Device) (b : Bytes) : Device :=
  if !d.lr.sending then d.pinOut (.ring b)
  else match d.lr.fwd with
    | none => d.onLr fun r => { r with fwd := some b }
    | some _ => d.onLr fun r => { r with drops := satAdd 16 r.drops 1, evt := r.evt ||| 4 }

/-- The status page (R452): sixteen registers in one fabric cycle. -/
def Device.statusPage (d : Device) : List Nat :=
  [0x00000, 0x00004, 0x00010, 0x00014, 0x80000, 0x40000, 0x40008, 0x90000, 0x90010, 0x90008, 0x60000, 0x10050, 0x20000, 0x20004, 0xE0008,
   0x40014].map d.live

/-- The RESPONSE to a READ (R452): the words asked for, or none for a bad index or count. -/
def Device.response (d : Device) (b : Bytes) : Bytes :=
  let i := u8 b 5
  let n := u8 b 6
  let words := if n = 0 ∨ 8 < n ∨ 16 < i + n then [] else (d.statusPage.drop i).take n
  ringFrame 0x03 (u8 b 2) d.lr.node 16 (words.foldr (fun w r => leBytes w 4 ++ r) [])

/-- A READ is answered while MGMT_EN is 1 and its payload has 2 bytes (R452). -/
def Device.answerRead (d : Device) (b : Bytes) : Device :=
  if d.lr.mgmtEn && u8 b 4 == 2 then d.onLr fun r => r.queueOwn false (d.response b) else d

/-- A frame to every node is acted on (R449, R451, R452). -/
def Device.actOn (d : Device) (b : Bytes) : Device :=
  if u8 b 0 = 1 then d.onLr fun r => { r with evt := r.evt ||| 1, alarmSrc := u8 b 2, alarmLevel := u8 b 5 }
  else if u8 b 0 = 2 then d.answerRead b
  else d

/-- A received frame, in the order of R449. -/
def Device.ringRx (d : Device) (b : Bytes) : Device :=
  if !frameGood b then d.onLr fun r => { r with crcErrs := satAdd 16 r.crcErrs 1, evt := r.evt ||| 2 }
  else
    let d1 := d.onLr fun r => { r with rx := satAdd 32 r.rx 1 }
    if u8 b 2 = d.lr.node ∨ u8 b 3 = 1 then d1
    else if u8 b 0 = 2 ∧ u8 b 1 = d.lr.node then d1.answerRead b
    else (if u8 b 1 = 0xFF then d1.actOn b else d1).forward (frameHop b)

/-- The node receives: its pass path is open and its domain clocked (R453). -/
def Device.onRing (d : Device) : Bool := d.lr.passOpen && d.power.hkPll && d.power.io

/-- RING_FRAME_RX (R449). -/
def execRingFrameRx (frame : RxFrame) (s : State) : Host.Outcome State Fault Refusal := run s s.dev.onRing (s.dev.ringRx frame.bytes)

/-- RING_READ (R452): a received frame of TYPE READ. -/
def execRingRead (frame : RxFrame) (s : State) : Host.Outcome State Fault Refusal :=
  run s (s.dev.onRing && u8 frame.bytes 0 == 2) (s.dev.ringRx frame.bytes)

/-- RING_ALARM_RX (R451): a received frame of TYPE ALARM. -/
def execRingAlarmRx (frame : RxFrame) (s : State) : Host.Outcome State Fault Refusal :=
  run s (s.dev.onRing && u8 frame.bytes 0 == 1) (s.dev.ringRx frame.bytes)

/-! ### Sending (R449, R450, R453) -/

/-- The first own frame goes out (R449). -/
def Device.ringTx (d : Device) : Device :=
  match d.lr.own with
  | [] => d
  | b :: rest => (d.onLr fun r => { r with own := rest, sending := true }).pinOut (.ring b)

/-- RING_FRAME_TX (R449): nothing waits to be forwarded. -/
def execRingFrameTx (s : State) : Host.Outcome State Fault Refusal :=
  run s (s.dev.onRing && !s.dev.lr.own.isEmpty && s.dev.lr.fwd.isNone && !s.dev.lr.sending) s.dev.ringTx

/-- RING_ALARM_REPEAT (R450): while ALIVE is held low. -/
def execRingAlarmRepeat (s : State) : Host.Outcome State Fault Refusal :=
  run s (s.dev.lr.alarmActive && s.dev.lr.tokenEn && s.dev.fc.aliveStopped && s.dev.power.hkPll)
    (s.dev.onLr fun r => r.queueOwn true (s.dev.alarmFrame (if s.dev.shackled then 3 else 2)))

/-- PASS_PATH_OPEN (R453): VDD_IO is good, the device has left reset, and the ring domain is clocked. -/
def execPassPathOpen (s : State) : Host.Outcome State Fault Refusal :=
  run s (!s.dev.lr.passOpen && s.dev.power.io && s.dev.power.boot != 0 && s.dev.power.hkPll) (s.dev.onLr fun r => { r with passOpen := true })

/-- The own frame under way ends, and the buffered frame follows it (R449). -/
def Device.ringSent (d : Device) : Device :=
  if !d.lr.sending then d
  else
    let d1 := d.onLr fun r => { r with sending := false, fwd := none }
    match d.lr.fwd with
    | some b => d1.pinOut (.ring b)
    | none => d1

/-! ### The idle step -/

/-- An idle step (DESIGN CHOICE, log entry 4): one tick of the real-time counter, the end of an own ring frame under way, one line of a
calibration command that waits. -/
def Device.idleTick (d : Device) : Device := d.tickRtc.ringSent.calPoll

/-! ### The test access port (R454, R455) -/

/-- The instruction register takes an instruction at Update-IR. -/
def Device.tap (d : Device) (ir : TapIr) : Device := { d with jt := { d.jt with ir := ir } }

/-- Bits shift out of TDO. -/
def Device.tdo (d : Device) (v n : Nat) : Device := d.emit (.tdo v n)

/-- BYPASS: one bit, captured 0 (IEEE 1149.1, PRESUMED). -/
def Device.tapBypass (d : Device) : Device := (d.tap .bypass).tdo 0 1

/-- The boundary register shifts out what it captured, which the spec does not lay out: free bits (log entry 38). -/
def Device.tapScan (d : Device) (ir : TapIr) : Device :=
  let (bs, d1) := (d.tap ir).draw 4
  d1.tdo (leNat bs) 32

/-- The TAP has power (R440, R454). -/
def Device.tapOn (d : Device) : Bool := d.power.io && !d.power.off

/-- A public instruction beyond the mandatory set (R332, R454, R455): without JTAG_PUBLIC it acts as BYPASS with source 1492; in the
shackle state it acts as BYPASS. -/
def Device.tapPublic (d : Device) (ir : TapIr) : Device :=
  if d.shackled then d.tapBypass else if !d.right 2 then d.denied.tapBypass else (d.tap ir).tdo 0 1

/-- OPEN (R330, R333, R454): the certificate, then its status. -/
def Device.tapOpen (d : Device) (c : Bytes) : Device :=
  if d.shackled then d.tapBypass
  else
    let (s, d1) := (d.tap .jtagOpen).openCert c
    d1.tdo s.toNat 16

/-- A secure instruction (R454, R455): without JTAG_SECURE it acts as BYPASS with source 1497; the scan chains are not given, so what
shifts out is free (log entry 38). -/
def Device.tapSecure (d : Device) (op : Nat) : Device :=
  if d.shackled ∨ op < 0x80 ∨ op = 0xFF then d.tapBypass
  else if !d.right 3 then (d.raiseSrc 1497).tapBypass
  else d.tapScan (.secure op)

/-- TAP_RESET (R454). -/
def execTapReset (s : State) : Host.Outcome State Fault Refusal := run s s.dev.tapOn (s.dev.tap .idcode)

/-- EXTEST (R454, R455). -/
def execExtest (s : State) : Host.Outcome State Fault Refusal :=
  run s s.dev.tapOn (if s.dev.shackled then s.dev.tapBypass else s.dev.tapScan .extest)

/-- IDCODE (R454). -/
def execIdcode (s : State) : Host.Outcome State Fault Refusal := run s s.dev.tapOn ((s.dev.tap .idcode).tdo 0x11000353 32)

/-- SAMPLE/PRELOAD (R454, R455). -/
def execSamplePreload (preload : Word) (s : State) : Host.Outcome State Fault Refusal :=
  run s s.dev.tapOn (if s.dev.shackled then s.dev.tapBypass
    else { s.dev.tapScan .sample with jt := { ir := .sample, boundary := preload.toNat } })

/-- HIGHZ (R454, R455). -/
def execHighz (s : State) : Host.Outcome State Fault Refusal := run s s.dev.tapOn (s.dev.tapPublic .highz)

/-- CLAMP (R454, R455). -/
def execClamp (s : State) : Host.Outcome State Fault Refusal := run s s.dev.tapOn (s.dev.tapPublic .clamp)

/-- OPEN (R454). -/
def execJtagOpen (cert : Bytes) (s : State) : Host.Outcome State Fault Refusal := run s s.dev.tapOn (s.dev.tapOpen cert)

/-- STATUS (R454): HS_STAT and HS_RIGHTS. -/
def execJtagStatus (s : State) : Host.Outcome State Fault Refusal :=
  run s s.dev.tapOn ((s.dev.tap .jtagStatus).tdo (s.dev.readHs 0x00 + 2 ^ 32 * s.dev.readHs 0x04) 64)

/-- A secure instruction (R454, R455). -/
def execJtagSecureInstruction (opcode : Byte) (s : State) : Host.Outcome State Fault Refusal :=
  run s s.dev.tapOn (s.dev.tapSecure opcode.toNat)

/-- BYPASS (R454). -/
def execBypass (s : State) : Host.Outcome State Fault Refusal := run s s.dev.tapOn s.dev.tapBypass

end Sys2Proof.Machine
end

