-- ==== Sys2Proof/Machine/Monitor.lean ====
section
/-! DEFINITION. The Klozor monitor (R432 to R438): one command a line; a reply line is its values, without their text layout (log entry
37). -/

namespace Sys2Proof.Machine

/-- A valid line arrives (R434, R438): nothing while the monitor is silent; in Scrapped only what `always` marks is answered. -/
def Device.monitor (d : Device) (always : Bool) (f : Device → Device) : Device :=
  if !d.monitorOn || (d.scrapped && !always) then d else f (d.onCa fun c => { c with baudTrial := false })

/-- A command that needs a right (R433, R439): without it `err 60a0`, source 1492 and MON_REFUSED. -/
def Device.monRight (d : Device) (bit : Nat) (f : Device → Device) : Device :=
  if d.right bit then f d else (d.denied.onCa fun c => { c with evt := c.evt ||| 4 }).monEnd St.rightMissing

/-- A reply line and `ok`. -/
def Device.monOk (d : Device) (text : String) (values : List Nat) : Device := (d.monLine text values).monEnd St.done

/-- MON_HELP (R435). -/
def execMonHelp (s : State) : Host.Outcome State Fault Refusal := run s true (s.dev.monitor false fun d => d.monOk "help" [])

/-- MON_VER (R435). -/
def execMonVer (s : State) : Host.Outcome State Fault Refusal :=
  run s true (s.dev.monitor true fun d =>
    d.monOk "ver" [d.readId 0x00, d.readId 0x04, Config.serial, d.mc.bank, ((d.mc.ver (d.mc.bank == 1)).getD 0)])

/-- MON_HASP (R435). -/
def execMonHasp (s : State) : Host.Outcome State Fault Refusal :=
  run s true (s.dev.monitor true fun d => d.monOk "hasp" [d.hasp, d.hs.rights, d.hs.boot])

/-- MON_BEATS (R435). -/
def execMonBeats (s : State) : Host.Outcome State Fault Refusal :=
  run s true (s.dev.monitor false fun d => d.monOk "beats" [d.sc.beat, d.power.applied, d.turns.length])

/-- MON_FAULTS (R435): FC_FIRST and the sources whose sticky bit is set. -/
def execMonFaults (s : State) : Host.Outcome State Fault Refusal :=
  run s true (s.dev.monitor true fun d =>
    d.monOk "faults" (d.readFc 0x08 :: (List.range 1536).filter fun n => d.fc.sticky.getLsbD n))

/-- MON_FAULTS_CLEAR (R435): as a W1C write would. -/
def execMonFaultsClear (src : Nat) (s : State) : Host.Outcome State Fault Refusal :=
  run s true (s.dev.monitor false fun d => d.monRight 1 fun d => (d.clearFc (0x100 + src / 32 * 4) (2 ^ (src % 32))).monEnd St.done)

/-- MON_WARD (R435). -/
def execMonWard (s : State) : Host.Outcome State Fault Refusal :=
  run s true (s.dev.monitor false fun d => d.monOk "ward" [d.tp.sticky, d.tp.wardLast, d.tp.rekeys])

/-- MON_NOISE (R435): NS_STAT, then STATE and CONSEC of every pin. -/
def execMonNoise (s : State) : Host.Outcome State Fault Refusal :=
  run s true (s.dev.monitor false fun d =>
    d.monOk "noise" (d.readNs 0x00 :: (List.range 32).flatMap fun p => [(d.ns.pin p).state.code, (d.ns.pin p).consec]))

/-- MON_CAL (R435): the source of the value and its 8 words. -/
def execMonCal (code inst : Nat) (s : State) : Host.Outcome State Fault Refusal :=
  run s true (s.dev.monitor false fun d =>
    if calKnown code inst then
      d.monOk "cal" (d.ca.source code inst :: (List.range 8).map fun i => u32 (d.ca.effective code inst) (4 * i))
    else d.monEnd St.badArgument)

/-- MON_CAL_SET (R429, R435). -/
def execMonCalSet (code inst : Nat) (value : Bytes) (verifyFails : Bool) (s : State) : Host.Outcome State Fault Refusal :=
  run s true (s.dev.monitor false fun d =>
    d.calGive { op := 2, code := code, inst := inst, value := fit 32 value, fails := [verifyFails], monitor := true })

/-- MON_CAL_DROP (R429, R435). -/
def execMonCalDrop (code inst : Nat) (verifyFails : Bool) (s : State) : Host.Outcome State Fault Refusal :=
  run s true (s.dev.monitor false fun d => d.calGive { op := 3, code := code, inst := inst, fails := [verifyFails], monitor := true })

/-- MON_CAL_RESTORE (R431, R435). -/
def execMonCalRestore (fails : List Bool) (s : State) : Host.Outcome State Fault Refusal :=
  run s true (s.dev.monitor false fun d => d.calGive { op := 4, fails := fails, monitor := true })

/-- MON_PATCH (R435): MC_FW_STAT, and MC_RUNVER, MC_VERA and MC_VERB of each class. -/
def execMonPatch (s : State) : Host.Outcome State Fault Refusal :=
  run s true (s.dev.monitor false fun d =>
    d.monOk "patch" (d.readMc 0x00 :: (List.range 4).flatMap fun k => [d.readMc (0x20 + 4 * k), d.readMc (0x30 + 4 * k), d.readMc (0x40 + 4 * k)]))

/-- The monitor reads a word of BAR0 through its own shadows (R436). -/
def Device.monRead (d : Device) (off : Nat) : Nat × Device := d.pairRead 0x4000000 off

/-- An offset that a monitor access may name (R16, R29): one that is not aligned raises the access-error source (R16). -/
def Device.monAccess (d : Device) (off : Nat) (f : Device → Device) : Device :=
  if off % 4 ≠ 0 then (d.raiseSrc 1232).monEnd St.badArgument
  else if 0x4000000 ≤ off then d.monEnd St.badArgument
  else f d

/-- MON_PEEK (R436). -/
def execMonPeek (off : Nat) (s : State) : Host.Outcome State Fault Refusal :=
  run s true (s.dev.monitor false fun d => d.monRight 0 fun d => d.monAccess off fun d => ((d.monRead off).2).monOk "peek" [(d.monRead off).1])

/-- Words read one after the other. -/
def Device.monWords (d : Device) (off : Nat) : Nat → List Nat × Device
  | 0 => ([], d)
  | n + 1 =>
    let (v, d1) := d.monRead off
    let (vs, d2) := d1.monWords (off + 4) n
    (v :: vs, d2)

/-- MON_DUMP (R436): 1 to 256 words. -/
def execMonDump (off n : Nat) (s : State) : Host.Outcome State Fault Refusal :=
  run s true (s.dev.monitor false fun d => d.monRight 0 fun d =>
    if n = 0 ∨ 256 < n ∨ 0x4000000 < off + 4 * n then d.monEnd St.badArgument
    else d.monAccess off fun d => ((d.monWords off n).2).monOk "dump" (d.monWords off n).1)

/-- MON_POKE (R436): a hinge write. -/
def execMonPoke (off : Nat) (value : Word) (s : State) : Host.Outcome State Fault Refusal :=
  run s true (s.dev.monitor false fun d => d.monRight 1 fun d => d.monAccess off fun d => (d.regWrite off value.toNat).monEnd St.done)

/-- MON_OPEN (R330, R437): the certificate has come in full, ended by a blank line. -/
def execMonOpen (cert : Bytes) (s : State) : Host.Outcome State Fault Refusal :=
  run s true (s.dev.monitor false fun d => (let (x, d1) := d.openCert cert; d1.monEnd x))

/-- MON_OPEN_TIMEOUT (R437): the certificate is abandoned. -/
def execMonOpenTimeout (s : State) : Host.Outcome State Fault Refusal :=
  run s true (if s.dev.monitorOn && !s.dev.scrapped then s.dev.monEnd St.badArgument else s.dev)

/-- MON_DROP (R333, R435). -/
def execMonDrop (s : State) : Host.Outcome State Fault Refusal :=
  run s true (s.dev.monitor false fun d => ({ d with hs := { d.hs with rights := 0 } } : Device).monEnd St.done)

/-- MON_BAUD (R438): a code of the BAUD table; the answer goes out at the old rate. -/
def execMonBaud (rate : Nat) (s : State) : Host.Outcome State Fault Refusal :=
  run s true (s.dev.monitor false fun d =>
    if rate < 8 then (d.monEnd St.done).onCa fun c => { c with baud := rate, baudTrial := true } else d.monEnd St.badArgument)

/-- MON_BAUD_TIMEOUT (R438): back to 115,200 baud. -/
def execMonBaudTimeout (s : State) : Host.Outcome State Fault Refusal :=
  run s s.dev.ca.baudTrial (s.dev.onCa fun c => { c with baud := 0, baudTrial := false })

/-- MON_BAD_LINE (R433): an overlong line is discarded with `err 1010`; so is an unknown one (DESIGN CHOICE, log entry 37). -/
def execMonBadLine (_overlong : Bool) (s : State) : Host.Outcome State Fault Refusal :=
  run s true (if s.dev.monitorOn && !s.dev.scrapped then s.dev.monEnd St.badArgument else s.dev)

end Sys2Proof.Machine
end

