-- ==== Sys2Proof/Machine/Dispatch.lean ====
section
/-! DEFINITION. Dispatch: one arm per command, each one direct call of its meaning. -/

namespace Sys2Proof.Machine

/-- The effect of a command on everything but the queue. -/
def exec (i : Instr) (s : State) : Host.Outcome State Fault Refusal :=
  match i with
  | .powerUp => Sys2Proof.Machine.execPowerUp s
  | .powerLoss ioFalls commitCycle => Sys2Proof.Machine.execPowerLoss ioFalls commitCycle s
  | .aonPowerUp vbat => Sys2Proof.Machine.execAonPowerUp vbat s
  | .rstNAssert => Sys2Proof.Machine.execRstNAssert s
  | .rstNRelease => Sys2Proof.Machine.execRstNRelease s
  | .chipReset cause => Sys2Proof.Machine.execChipReset cause s
  | .housekeepingPllLock => Sys2Proof.Machine.execHousekeepingPllLock s
  | .enginePllLock => Sys2Proof.Machine.execEnginePllLock s
  | .pllLockLoss pll => Sys2Proof.Machine.execPllLockLoss pll s
  | .bootRomStart wipeFails rows => Sys2Proof.Machine.execBootRomStart wipeFails rows s
  | .bootFirmwareStart report => Sys2Proof.Machine.execBootFirmwareStart report s
  | .bootComplete => Sys2Proof.Machine.execBootComplete s
  | .configRead m reg => Sys2Proof.Machine.execConfigRead m reg s
  | .partnerSidebandActive m => Sys2Proof.Machine.execPartnerSidebandActive m s
  | .noPartnerTimeout m => Sys2Proof.Machine.execNoPartnerTimeout m s
  | .linkTrained m rate badTx badRx => Sys2Proof.Machine.execLinkTrained m rate badTx badRx s
  | .linkRetrain m => Sys2Proof.Machine.execLinkRetrain m s
  | .linkDown m => Sys2Proof.Machine.execLinkDown m s
  | .replayThreshold m => Sys2Proof.Machine.execReplayThreshold m s
  | .moduleRetrain m value => Sys2Proof.Machine.execModuleRetrain m value s
  | .moduleEnableWrite value => Sys2Proof.Machine.execModuleEnableWrite value s
  | .registerWrite off acc value => Sys2Proof.Machine.execRegisterWrite off acc value s
  | .pairLoRead port acc => Sys2Proof.Machine.execPairLoRead port acc s
  | .pairHiRead port acc => Sys2Proof.Machine.execPairHiRead port acc s
  | .pairLoWrite acc value => Sys2Proof.Machine.execPairLoWrite acc value s
  | .pairHiWrite acc value => Sys2Proof.Machine.execPairHiWrite acc value s
  | .vaultWindowRead acc => Sys2Proof.Machine.execVaultWindowRead acc s
  | .vaultWindowWrite acc value => Sys2Proof.Machine.execVaultWindowWrite acc value s
  | .doorbellWrite m leaf off size value => Sys2Proof.Machine.execDoorbellWrite m leaf off size value s
  | .randomWindowRead m leaf off size => Sys2Proof.Machine.execRandomWindowRead m leaf off size s
  | .randomReadRelease m => Sys2Proof.Machine.execRandomReadRelease m s
  | .lvtIndexWrite value => Sys2Proof.Machine.execLvtIndexWrite value s
  | .lvtCommit value => Sys2Proof.Machine.execLvtCommit value s
  | .lvtMaskWrite value => Sys2Proof.Machine.execLvtMaskWrite value s
  | .dmaReadComplete m tag data => Sys2Proof.Machine.execDmaReadComplete m tag data s
  | .dmaReadError m tag kind => Sys2Proof.Machine.execDmaReadError m tag kind s
  | .dmaCompletionTimeout m tag => Sys2Proof.Machine.execDmaCompletionTimeout m tag s
  | .dmaWriteFail m => Sys2Proof.Machine.execDmaWriteFail m s
  | .resetDone leaf => Sys2Proof.Machine.execResetDone leaf s
  | .quiesceDeadline leaf => Sys2Proof.Machine.execQuiesceDeadline leaf s
  | .quiesceComplete leaf => Sys2Proof.Machine.execQuiesceComplete leaf s
  | .hingeUnknownOpcode opcode => Sys2Proof.Machine.execHingeUnknownOpcode opcode s
  | .hingeWorkRestart => Sys2Proof.Machine.execHingeWorkRestart s
  | .sqFetch => Sys2Proof.Machine.execSqFetch s
  | .freezePoint => Sys2Proof.Machine.execFreezePoint s
  | .beatEdge beatB => Sys2Proof.Machine.execBeatEdge beatB s
  | .strokeEnd errs => Sys2Proof.Machine.execStrokeEnd errs s
  | .keywayChangeApply leaf => Sys2Proof.Machine.execKeywayChangeApply leaf s
  | .zxNop slot => Sys2Proof.Machine.execZxNop slot s
  | .zxEnd slot => Sys2Proof.Machine.execZxEnd slot s
  | .zxFence slot => Sys2Proof.Machine.execZxFence slot s
  | .zxWait slot => Sys2Proof.Machine.execZxWait slot s
  | .zxSkipIf slot => Sys2Proof.Machine.execZxSkipIf slot s
  | .zxRepeat slot => Sys2Proof.Machine.execZxRepeat slot s
  | .zxAlloc slot => Sys2Proof.Machine.execZxAlloc slot s
  | .zxFree slot => Sys2Proof.Machine.execZxFree slot s
  | .zxLoad slot => Sys2Proof.Machine.execZxLoad slot s
  | .zxStore slot => Sys2Proof.Machine.execZxStore slot s
  | .zxStoreStream slot => Sys2Proof.Machine.execZxStoreStream slot s
  | .zxCopyWhole slot => Sys2Proof.Machine.execZxCopyWhole slot s
  | .zxCopySlice slot => Sys2Proof.Machine.execZxCopySlice slot s
  | .zxCopyAppend slot => Sys2Proof.Machine.execZxCopyAppend slot s
  | .zxCopyCtr slot => Sys2Proof.Machine.execZxCopyCtr slot s
  | .zxZero slot => Sys2Proof.Machine.execZxZero slot s
  | .zxXor slot => Sys2Proof.Machine.execZxXor slot s
  | .zxRandFill slot => Sys2Proof.Machine.execZxRandFill slot s
  | .zxKeywCut slot => Sys2Proof.Machine.execZxKeywCut slot s
  | .zxKeywGen slot => Sys2Proof.Machine.execZxKeywGen slot s
  | .zxKeywClear slot => Sys2Proof.Machine.execZxKeywClear slot s
  | .zxKeywWrap slot => Sys2Proof.Machine.execZxKeywWrap slot s
  | .zxKeywUnwrap slot => Sys2Proof.Machine.execZxKeywUnwrap slot s
  | .zxKeywDerive slot => Sys2Proof.Machine.execZxKeywDerive slot s
  | .zxMlkemKeygen slot => Sys2Proof.Machine.execZxMlkemKeygen slot s
  | .zxMlkemEncaps slot => Sys2Proof.Machine.execZxMlkemEncaps slot s
  | .zxMlkemDecaps slot => Sys2Proof.Machine.execZxMlkemDecaps slot s
  | .zxMldsaKeygen slot => Sys2Proof.Machine.execZxMldsaKeygen slot s
  | .zxMldsaSign slot => Sys2Proof.Machine.execZxMldsaSign slot s
  | .zxMldsaVerify slot => Sys2Proof.Machine.execZxMldsaVerify slot s
  | .zxHqcKeygen slot => Sys2Proof.Machine.execZxHqcKeygen slot s
  | .zxHqcEncaps slot => Sys2Proof.Machine.execZxHqcEncaps slot s
  | .zxHqcDecaps slot => Sys2Proof.Machine.execZxHqcDecaps slot s
  | .zxMceKeygen slot => Sys2Proof.Machine.execZxMceKeygen slot s
  | .zxMceEncaps slot => Sys2Proof.Machine.execZxMceEncaps slot s
  | .zxMceDecaps slot => Sys2Proof.Machine.execZxMceDecaps slot s
  | .spillUnitGrant slot => Sys2Proof.Machine.execSpillUnitGrant slot s
  | .zxDigestInit slot => Sys2Proof.Machine.execZxDigestInit slot s
  | .zxDigestAbsorb slot => Sys2Proof.Machine.execZxDigestAbsorb slot s
  | .zxDigestStream slot => Sys2Proof.Machine.execZxDigestStream slot s
  | .zxDigestFinal slot => Sys2Proof.Machine.execZxDigestFinal slot s
  | .zxXofSqueeze slot => Sys2Proof.Machine.execZxXofSqueeze slot s
  | .zxMacKeystate slot => Sys2Proof.Machine.execZxMacKeystate slot s
  | .zxMacInit slot => Sys2Proof.Machine.execZxMacInit slot s
  | .zxMacFinal slot => Sys2Proof.Machine.execZxMacFinal slot s
  | .zxCmpCt slot => Sys2Proof.Machine.execZxCmpCt slot s
  | .zxSlhKeygen slot => Sys2Proof.Machine.execZxSlhKeygen slot s
  | .zxSlhSign slot => Sys2Proof.Machine.execZxSlhSign slot s
  | .zxSlhVerify slot => Sys2Proof.Machine.execZxSlhVerify slot s
  | .zxBnSetmod slot => Sys2Proof.Machine.execZxBnSetmod slot s
  | .zxBnAdd slot => Sys2Proof.Machine.execZxBnAdd slot s
  | .zxBnSub slot => Sys2Proof.Machine.execZxBnSub slot s
  | .zxBnMul slot => Sys2Proof.Machine.execZxBnMul slot s
  | .zxBnExp slot => Sys2Proof.Machine.execZxBnExp slot s
  | .zxBnInv slot => Sys2Proof.Machine.execZxBnInv slot s
  | .zxEcKeygen slot => Sys2Proof.Machine.execZxEcKeygen slot s
  | .zxEcSign slot => Sys2Proof.Machine.execZxEcSign slot s
  | .zxEcVerify slot => Sys2Proof.Machine.execZxEcVerify slot s
  | .zxEcDh slot => Sys2Proof.Machine.execZxEcDh slot s
  | .zxEcxKeygen slot => Sys2Proof.Machine.execZxEcxKeygen slot s
  | .zxEcxMul slot => Sys2Proof.Machine.execZxEcxMul slot s
  | .zxEdKeygen slot => Sys2Proof.Machine.execZxEdKeygen slot s
  | .zxEdSign slot => Sys2Proof.Machine.execZxEdSign slot s
  | .zxEdVerify slot => Sys2Proof.Machine.execZxEdVerify slot s
  | .zxRsaPub slot => Sys2Proof.Machine.execZxRsaPub slot s
  | .zxRsaPriv slot => Sys2Proof.Machine.execZxRsaPriv slot s
  | .zxRsaCrt slot => Sys2Proof.Machine.execZxRsaCrt slot s
  | .zxBlkEnc slot => Sys2Proof.Machine.execZxBlkEnc slot s
  | .zxBlkDec slot => Sys2Proof.Machine.execZxBlkDec slot s
  | .zxGhmGhash slot => Sys2Proof.Machine.execZxGhmGhash slot s
  | .zxGhmXtsSeq slot => Sys2Proof.Machine.execZxGhmXtsSeq slot s
  | .zxCtxSaveVault slot => Sys2Proof.Machine.execZxCtxSaveVault slot s
  | .zxCtxSaveWrapped slot => Sys2Proof.Machine.execZxCtxSaveWrapped slot s
  | .zxCtxRestoreVault slot => Sys2Proof.Machine.execZxCtxRestoreVault slot s
  | .zxCtxRestoreWrapped slot => Sys2Proof.Machine.execZxCtxRestoreWrapped slot s
  | .storeScrubStep store result spot => Sys2Proof.Machine.execStoreScrubStep store result spot s
  | .errorInject target value => Sys2Proof.Machine.execErrorInject target value s
  | .maskReseed gen => Sys2Proof.Machine.execMaskReseed gen s
  | .maskStarved gen => Sys2Proof.Machine.execMaskStarved gen s
  | .noiseBlockEnd blocks => Sys2Proof.Machine.execNoiseBlockEnd blocks s
  | .pinRetrimDone p => Sys2Proof.Machine.execPinRetrimDone p s
  | .drbgGenerate internal => Sys2Proof.Machine.execDrbgGenerate internal s
  | .rootMaterialRequest => Sys2Proof.Machine.execRootMaterialRequest s
  | .entropyReadyTimeout => Sys2Proof.Machine.execEntropyReadyTimeout s
  | .entropyWaitExpiry slot => Sys2Proof.Machine.execEntropyWaitExpiry slot s
  | .rawCaptureStart => Sys2Proof.Machine.execRawCaptureStart s
  | .rawCaptureEnd => Sys2Proof.Machine.execRawCaptureEnd s
  | .nsRawDataRead => Sys2Proof.Machine.execNsRawDataRead s
  | .kwUnknownOpcode opcode => Sys2Proof.Machine.execKwUnknownOpcode opcode s
  | .hsUnknownOpcode opcode => Sys2Proof.Machine.execHsUnknownOpcode opcode s
  | .haspOddBurn rows => Sys2Proof.Machine.execHaspOddBurn rows s
  | .wipeStep ok => Sys2Proof.Machine.execWipeStep ok s
  | .haspEvenBurn rows => Sys2Proof.Machine.execHaspEvenBurn rows s
  | .engineDrainStop => Sys2Proof.Machine.execEngineDrainStop s
  | .patchDrainDeadline => Sys2Proof.Machine.execPatchDrainDeadline s
  | .engineSelftestEnd pass => Sys2Proof.Machine.execEngineSelftestEnd pass s
  | .fwHealthy => Sys2Proof.Machine.execFwHealthy s
  | .fwSwapWatchdog => Sys2Proof.Machine.execFwSwapWatchdog s
  | .mgmtWatchdogExpiry => Sys2Proof.Machine.execMgmtWatchdogExpiry s
  | .mramScrubGroup result line rewriteFails => Sys2Proof.Machine.execMramScrubGroup result line rewriteFails s
  | .wardKeySwitch => Sys2Proof.Machine.execWardKeySwitch s
  | .miUnknownOpcode opcode => Sys2Proof.Machine.execMiUnknownOpcode opcode s
  | .activityStart => Sys2Proof.Machine.execActivityStart s
  | .activityEnd cls => Sys2Proof.Machine.execActivityEnd cls s
  | .microtraceStart value => Sys2Proof.Machine.execMicrotraceStart value s
  | .microtraceRead => Sys2Proof.Machine.execMicrotraceRead s
  | .slotRangeCommit => Sys2Proof.Machine.execSlotRangeCommit s
  | .slotRangePendingApply => Sys2Proof.Machine.execSlotRangePendingApply s
  | .dgSlotSelWrite value => Sys2Proof.Machine.execDgSlotSelWrite value s
  | .caRead => Sys2Proof.Machine.execCaRead s
  | .caSet verifyFails => Sys2Proof.Machine.execCaSet verifyFails s
  | .caDrop verifyFails => Sys2Proof.Machine.execCaDrop verifyFails s
  | .caRestoreFactory fails => Sys2Proof.Machine.execCaRestoreFactory fails s
  | .caFactorySet verifyFails => Sys2Proof.Machine.execCaFactorySet verifyFails s
  | .monHelp => Sys2Proof.Machine.execMonHelp s
  | .monVer => Sys2Proof.Machine.execMonVer s
  | .monHasp => Sys2Proof.Machine.execMonHasp s
  | .monBeats => Sys2Proof.Machine.execMonBeats s
  | .monFaults => Sys2Proof.Machine.execMonFaults s
  | .monFaultsClear src => Sys2Proof.Machine.execMonFaultsClear src s
  | .monWard => Sys2Proof.Machine.execMonWard s
  | .monNoise => Sys2Proof.Machine.execMonNoise s
  | .monCal code inst => Sys2Proof.Machine.execMonCal code inst s
  | .monCalSet code inst value verifyFails => Sys2Proof.Machine.execMonCalSet code inst value verifyFails s
  | .monCalDrop code inst verifyFails => Sys2Proof.Machine.execMonCalDrop code inst verifyFails s
  | .monCalRestore fails => Sys2Proof.Machine.execMonCalRestore fails s
  | .monPatch => Sys2Proof.Machine.execMonPatch s
  | .monPeek off => Sys2Proof.Machine.execMonPeek off s
  | .monDump off n => Sys2Proof.Machine.execMonDump off n s
  | .monPoke off value => Sys2Proof.Machine.execMonPoke off value s
  | .monOpen cert => Sys2Proof.Machine.execMonOpen cert s
  | .monOpenTimeout => Sys2Proof.Machine.execMonOpenTimeout s
  | .monDrop => Sys2Proof.Machine.execMonDrop s
  | .monBaud rate => Sys2Proof.Machine.execMonBaud rate s
  | .monBaudTimeout => Sys2Proof.Machine.execMonBaudTimeout s
  | .monBadLine overlong => Sys2Proof.Machine.execMonBadLine overlong s
  | .tapReset => Sys2Proof.Machine.execTapReset s
  | .extest => Sys2Proof.Machine.execExtest s
  | .idcode => Sys2Proof.Machine.execIdcode s
  | .samplePreload preload => Sys2Proof.Machine.execSamplePreload preload s
  | .highz => Sys2Proof.Machine.execHighz s
  | .clamp => Sys2Proof.Machine.execClamp s
  | .jtagOpen cert => Sys2Proof.Machine.execJtagOpen cert s
  | .jtagStatus => Sys2Proof.Machine.execJtagStatus s
  | .jtagSecureInstruction opcode => Sys2Proof.Machine.execJtagSecureInstruction opcode s
  | .bypass => Sys2Proof.Machine.execBypass s
  | .tamperEvent srcs => Sys2Proof.Machine.execTamperEvent srcs s
  | .tamperWindowExpiry src => Sys2Proof.Machine.execTamperWindowExpiry src s
  | .tpSrcCfgWrite src value => Sys2Proof.Machine.execTpSrcCfgWrite src value s
  | .tamperSettleEnd src => Sys2Proof.Machine.execTamperSettleEnd src s
  | .tamperPolWrite value => Sys2Proof.Machine.execTamperPolWrite value s
  | .tamperPolMaskEnd lines => Sys2Proof.Machine.execTamperPolMaskEnd lines s
  | .faultRaise raises => Sys2Proof.Machine.execFaultRaise raises s
  | .trapDelivery => Sys2Proof.Machine.execTrapDelivery s
  | .aliveRestart => Sys2Proof.Machine.execAliveRestart s
  | .fcParityScan bad => Sys2Proof.Machine.execFcParityScan bad s
  | .commitStart verifyFails => Sys2Proof.Machine.execCommitStart verifyFails s
  | .commitDurable => Sys2Proof.Machine.execCommitDurable s
  | .evidenceRecordWrite verifyFails => Sys2Proof.Machine.execEvidenceRecordWrite verifyFails s
  | .evlIndexWrite value => Sys2Proof.Machine.execEvlIndexWrite value s
  | .ufRead ue => Sys2Proof.Machine.execUfRead ue s
  | .ufWrite verifyFails => Sys2Proof.Machine.execUfWrite verifyFails s
  | .vcoreStageChange mv => Sys2Proof.Machine.execVcoreStageChange mv s
  | .thermalSample celsius => Sys2Proof.Machine.execThermalSample celsius s
  | .railLoss rail => Sys2Proof.Machine.execRailLoss rail s
  | .railsGood => Sys2Proof.Machine.execRailsGood s
  | .handoverToVbat => Sys2Proof.Machine.execHandoverToVbat s
  | .handbackToVddIo => Sys2Proof.Machine.execHandbackToVddIo s
  | .ringFrameRx frame => Sys2Proof.Machine.execRingFrameRx frame s
  | .ringRead frame => Sys2Proof.Machine.execRingRead frame s
  | .ringAlarmRx frame => Sys2Proof.Machine.execRingAlarmRx frame s
  | .ringFrameTx => Sys2Proof.Machine.execRingFrameTx s
  | .ringAlarmRepeat => Sys2Proof.Machine.execRingAlarmRepeat s
  | .passPathOpen => Sys2Proof.Machine.execPassPathOpen s
  | .dmaWriteHanded m => Sys2Proof.Machine.execDmaWriteHanded m s
  | .configWrite m field => Sys2Proof.Machine.execConfigWrite m field s
  | .lfStatusClear m leaf value => Sys2Proof.Machine.execLfStatusClear m leaf value s
  | .blockResetRelease block selfTestOk => Sys2Proof.Machine.execBlockResetRelease block selfTestOk s
  | .vbatLow => Sys2Proof.Machine.execVbatLow s
  | .aonRetentionLoss => Sys2Proof.Machine.execAonRetentionLoss s
  | .hgCreate => Sys2Proof.Machine.execHgCreate s
  | .hgQconfig => Sys2Proof.Machine.execHgQconfig s
  | .hgReset => Sys2Proof.Machine.execHgReset s
  | .hgDestroy => Sys2Proof.Machine.execHgDestroy s
  | .hgQuiesce => Sys2Proof.Machine.execHgQuiesce s
  | .hgResume => Sys2Proof.Machine.execHgResume s
  | .hgRebind => Sys2Proof.Machine.execHgRebind s
  | .hgDlogSet => Sys2Proof.Machine.execHgDlogSet s
  | .hgDlogHarvest => Sys2Proof.Machine.execHgDlogHarvest s
  | .hgDlogStop => Sys2Proof.Machine.execHgDlogStop s
  | .hgImportOpen => Sys2Proof.Machine.execHgImportOpen s
  | .hgExport => Sys2Proof.Machine.execHgExport s
  | .hgImport => Sys2Proof.Machine.execHgImport s
  | .kwIdgen => Sys2Proof.Machine.execKwIdgen s
  | .kwCertInstall => Sys2Proof.Machine.execKwCertInstall s
  | .kwCertRead => Sys2Proof.Machine.execKwCertRead s
  | .kwAttest => Sys2Proof.Machine.execKwAttest s
  | .hsOpen => Sys2Proof.Machine.execHsOpen s
  | .hsDropRights => Sys2Proof.Machine.execHsDropRights s
  | .hsTransition => Sys2Proof.Machine.execHsTransition s
  | .hsIntkeyInstall => Sys2Proof.Machine.execHsIntkeyInstall s
  | .miPatch => Sys2Proof.Machine.execMiPatch s
  | .miRetire => Sys2Proof.Machine.execMiRetire s
  | .miFwSwap => Sys2Proof.Machine.execMiFwSwap s
  | .miPinRecal => Sys2Proof.Machine.execMiPinRecal s
  | .miPinRetire => Sys2Proof.Machine.execMiPinRetire s
  | .miRawCapture => Sys2Proof.Machine.execMiRawCapture s
  | .miReseedAll => Sys2Proof.Machine.execMiReseedAll s
  | .miMramScrub => Sys2Proof.Machine.execMiMramScrub s
  | .miWearRelocate => Sys2Proof.Machine.execMiWearRelocate s
  | .miImageWrite => Sys2Proof.Machine.execMiImageWrite s
  | .miJournalCompact => Sys2Proof.Machine.execMiJournalCompact s
  | .miWardRekey => Sys2Proof.Machine.execMiWardRekey s
  | .miTamperRecal => Sys2Proof.Machine.execMiTamperRecal s

end Sys2Proof.Machine
end

