-- ==== Sys2Proof/Machine/Step.lean ====
section
/-! DEFINITION. One step: the command at the front of the queue, run on the state with the rest of the queue; on an empty queue the
block idles (R420; log entry 4). -/

namespace Sys2Proof.Machine

/-- An idle step (R420, R429, R449; DESIGN CHOICE, log entry 4). -/
def idle (s : State) : State := { s with dev := { s.dev.idleTick with perm := s.dev.perm } }

/-- One step of the block. -/
def step (s : State) : Host.Outcome State Fault Refusal :=
  match s.pending with
  | [] => .next (idle s)
  | c :: rest => exec c { s with pending := rest }

/-- The command that a table word spells, put at the front of the queue; the table gives no row any bits, so no word spells one. -/
def State.withFetchWord (s : State) (nbits w : Nat) : State :=
  match Sys2Proof.decodeTableWord nbits w with
  | some c => { s with pending := c :: s.pending }
  | none => s

end Sys2Proof.Machine
end

