-- ==== Sys2Proof/Safety.lean ====
section
/-! DEFINITION. What a safe run is, in the terms of the statements: the invariant that every step keeps, the ways a step may change the
permanent memories, the parts of the device that a command leaves as they are, and when the host reaches the command blocks. -/

namespace Sys2Proof.Safety

open Sys2Proof.Machine

/-- The invariant of the permanent memories: the user flash is in canonical form (R382). -/
abbrev Inv (s : State) : Prop := s.dev.perm.flash.wf = true

/-- No fuse of `p` is unburned in `q`: a burned bit of a hasp row stays burned (R317, R318), and so does the device secret (R322). -/
abbrev fusesKept (p q : Perm) : Prop :=
  (p.row0 &&& q.row0 = p.row0) ∧ (p.row1 &&& q.row1 = p.row1) ∧ (p.row2 &&& q.row2 = p.row2) ∧ (p.secretBurned = true → q.secretBurned = true)

/-- The parts of the device, one for each field of `Device`, and one for the store and the node buffers that wait to be zeroised (R106, R197,
R251), which are no part of the registers beside which they stand. -/
inductive Part where
  | perm | power | link0 | link1 | dma0 | dma1 | ul | hg | leaves | sc | turns | tu | bo | bb | bk | dg | slots
  | ns | kw | hs | tp | fc | nv | vault | mi | mc | ca | lr | jt | aon | pairs | out | fresh | dirty
  deriving DecidableEq, Repr

/-- An engine but for what waits to be zeroised. -/
def kept (x : Engine) : Engine := { x with dirtyFrames := 0, dirtyBytes := 0 }

/-- What waits to be zeroised in an engine. -/
def unclean (x : Engine) : Nat × Nat := (x.dirtyFrames, x.dirtyBytes)

/-- A part holds the same in both devices. -/
def Part.same : Part → Device → Device → Prop
  | .perm, d, e => e.perm = d.perm
  | .power, d, e => e.power = d.power
  | .link0, d, e => e.link0 = d.link0
  | .link1, d, e => e.link1 = d.link1
  | .dma0, d, e => e.dma0 = d.dma0
  | .dma1, d, e => e.dma1 = d.dma1
  | .ul, d, e => e.ul = d.ul
  | .hg, d, e => e.hg = d.hg
  | .leaves, d, e => e.leaves = d.leaves
  | .sc, d, e => e.sc = d.sc
  | .turns, d, e => e.turns = d.turns
  | .tu, d, e => e.tu.map kept = d.tu.map kept
  | .bo, d, e => e.bo.map kept = d.bo.map kept
  | .bb, d, e => { e.bb with dirty := 0 } = { d.bb with dirty := 0 }
  | .bk, d, e => e.bk = d.bk
  | .dg, d, e => e.dg = d.dg
  | .slots, d, e => e.slots = d.slots
  | .ns, d, e => e.ns = d.ns
  | .kw, d, e => e.kw = d.kw
  | .hs, d, e => e.hs = d.hs
  | .tp, d, e => e.tp = d.tp
  | .fc, d, e => e.fc = d.fc
  | .nv, d, e => e.nv = d.nv
  | .vault, d, e => e.vault = d.vault
  | .mi, d, e => e.mi = d.mi
  | .mc, d, e => e.mc = d.mc
  | .ca, d, e => e.ca = d.ca
  | .lr, d, e => e.lr = d.lr
  | .jt, d, e => e.jt = d.jt
  | .aon, d, e => e.aon = d.aon
  | .pairs, d, e => e.pairs = d.pairs
  | .out, d, e => e.out = d.out
  | .fresh, d, e => e.fresh = d.fresh
  | .dirty, d, e => (e.tu.map unclean, e.bo.map unclean, e.bb.dirty) = (d.tu.map unclean, d.bo.map unclean, d.bb.dirty)

/-- The frame of a command: every part of the device but those listed is as before. -/
def changesOnly (ps : List Part) (d e : Device) : Prop := ∀ p, p ∉ ps → p.same d e

/-- The frame over states: the queue is as before too. -/
def keepsRest (ps : List Part) (s t : State) : Prop := t.pending = s.pending ∧ changesOnly ps s.dev t.dev

/-- A host write to BAR0 reaches its block (R40, R44, R321, R360, R393): module 0 serves it, the device is neither shackled nor Scrapped,
and firmware runs. -/
abbrev hostOpen (s : State) : Prop :=
  s.dev.serves 0 = true ∧ s.dev.shackled = false ∧ s.dev.mc.romOnly = false ∧ s.dev.scrapped = false

/-- No command of the block runs: BUSY is 0 (R61). -/
abbrev unitIdle (s : State) (j : JobId) : Prop := (s.dev.unit j).job = none

/-- The command registers of a block show an ended command with this status (R61). -/
abbrev endedWith (t : State) (j : JobId) (st : Status) : Prop := (t.dev.unit j).job = none ∧ (t.dev.unit j).status = st.toNat

/-- The state in which a command has ended at once with a status and has done nothing else (R61, R62). -/
def refusedWith (s : State) (j : JobId) (st : Status) : State := { s with dev := s.dev.finish j st }

/-- A command of block `j` may run and finds no command running (R61). -/
abbrev mayCommand (s : State) (j : JobId) : Prop := hostOpen s ∧ unitIdle s j

/-- A read of `len` bytes at `addr` stands in the list of module `m`'s DMA engine (R47). -/
abbrev readAsked (t : State) (m : Nat) (pasid : Option Nat) (addr len : Nat) (why : ReadWhy) : Prop :=
  ∃ r ∈ (t.dev.dma m).reads, r.pasid = pasid ∧ r.addr = addr ∧ r.len = len ∧ r.why = why

/-- The commands of the hinge, keyway and hasp blocks by block, unlisted opcodes apart. -/
def blockCommands : List (JobId × Instr) :=
  [(.hinge, .hgCreate), (.hinge, .hgQconfig), (.hinge, .hgReset), (.hinge, .hgDestroy), (.hinge, .hgQuiesce), (.hinge, .hgResume),
   (.hinge, .hgRebind), (.hinge, .hgDlogSet), (.hinge, .hgDlogHarvest), (.hinge, .hgDlogStop), (.hinge, .hgImportOpen), (.hinge, .hgExport),
   (.hinge, .hgImport), (.keyway, .kwIdgen), (.keyway, .kwCertInstall), (.keyway, .kwCertRead), (.keyway, .kwAttest), (.hasp, .hsOpen),
   (.hasp, .hsDropRights), (.hasp, .hsTransition), (.hasp, .hsIntkeyInstall)]

/-- The maintenance requests by opcode (R400). -/
def interlockRows : List (Nat × Instr) :=
  [(0x01, .miPatch), (0x02, .miRetire), (0x03, .miFwSwap), (0x10, .miPinRecal), (0x11, .miPinRetire), (0x12, .miRawCapture),
   (0x13, .miReseedAll), (0x20, .miMramScrub), (0x21, .miWearRelocate), (0x22, .miImageWrite), (0x23, .miJournalCompact), (0x30, .miWardRekey),
   (0x31, .miTamperRecal)]

/-- A request of this opcode passes its checks and starts at once under this ticket (R400 to R403). -/
abbrev startsAtOnce (s : State) (op ticket : Nat) : Prop :=
  hostOpen s ∧ s.dev.reqCheck op s.dev.mi.cmd.args = none ∧ s.dev.mi.freeTicket = some ticket ∧ s.dev.mi.queue.length < 8 ∧
  s.dev.canStart (reqClass op) = true ∧ s.dev.mi.queue.any (fun q => exclusive q.cls) = false

/-- The Zaxus rows whose instruction holds no engine, with the instruction that each runs (R123). -/
def zaxusPlainRows : List (ZKind × (Nat → Instr)) :=
  [(.nop, .zxNop), (.fin, .zxEnd), (.fence, .zxFence), (.wait, .zxWait), (.skipIf, .zxSkipIf), (.loop, .zxRepeat), (.alloc, .zxAlloc),
   (.free, .zxFree), (.load, .zxLoad), (.store, .zxStore), (.storeStream, .zxStoreStream), (.copyWhole, .zxCopyWhole),
   (.copySlice, .zxCopySlice), (.copyAppend, .zxCopyAppend), (.copyCtr, .zxCopyCtr), (.zero, .zxZero), (.xor, .zxXor),
   (.randFill, .zxRandFill), (.keywClear, .zxKeywClear), (.digestInit, .zxDigestInit), (.digestStream, .zxDigestStream),
   (.digestFinal, .zxDigestFinal), (.macInit, .zxMacInit), (.cmpCt, .zxCmpCt), (.bnSetmod, .zxBnSetmod), (.ctxSaveVault, .zxCtxSaveVault),
   (.ctxRestoreVault, .zxCtxRestoreVault)]

/-- The Zaxus rows whose instruction takes its strokes on engines, its data in cells, with the instruction that each runs (R123). -/
def zaxusEngineRows : List (ZKind × (Nat → Instr)) :=
  [(.keywCut, .zxKeywCut), (.keywGen, .zxKeywGen), (.keywWrap, .zxKeywWrap), (.keywUnwrap, .zxKeywUnwrap), (.keywDerive, .zxKeywDerive),
   (.mlkemKeygen, .zxMlkemKeygen), (.mlkemEncaps, .zxMlkemEncaps), (.mlkemDecaps, .zxMlkemDecaps), (.mldsaKeygen, .zxMldsaKeygen),
   (.mldsaSign, .zxMldsaSign), (.mldsaVerify, .zxMldsaVerify), (.hqcKeygen, .zxHqcKeygen), (.hqcEncaps, .zxHqcEncaps),
   (.hqcDecaps, .zxHqcDecaps), (.mceKeygen, .zxMceKeygen), (.mceEncaps, .zxMceEncaps), (.mceDecaps, .zxMceDecaps),
   (.digestAbsorb, .zxDigestAbsorb), (.xofSqueeze, .zxXofSqueeze), (.macKeystate, .zxMacKeystate), (.macFinal, .zxMacFinal),
   (.slhKeygen, .zxSlhKeygen), (.slhSign, .zxSlhSign), (.slhVerify, .zxSlhVerify), (.bnAdd, .zxBnAdd), (.bnSub, .zxBnSub),
   (.bnMul, .zxBnMul), (.bnExp, .zxBnExp), (.bnInv, .zxBnInv), (.ecKeygen, .zxEcKeygen), (.ecSign, .zxEcSign), (.ecVerify, .zxEcVerify),
   (.ecDh, .zxEcDh), (.ecxKeygen, .zxEcxKeygen), (.ecxMul, .zxEcxMul), (.edKeygen, .zxEdKeygen), (.edSign, .zxEdSign),
   (.edVerify, .zxEdVerify), (.rsaPub, .zxRsaPub), (.rsaPriv, .zxRsaPriv), (.rsaCrt, .zxRsaCrt), (.blkEnc, .zxBlkEnc),
   (.blkDec, .zxBlkDec), (.ghash, .zxGhmGhash), (.xtsSeq, .zxGhmXtsSeq), (.ctxSaveWrapped, .zxCtxSaveWrapped),
   (.ctxRestoreWrapped, .zxCtxRestoreWrapped)]

/-- The turn in `slot` is `u` in `t`, and every other turn is as it was in `s`. -/
def onlyTurn (s t : State) (slot : Nat) (u : Turn) : Prop :=
  Map.get? t.dev.turns slot = some u ∧ ∀ n, n ≠ slot → Map.get? t.dev.turns n = Map.get? s.dev.turns n

/-- The turn in `slot` has ended with a status at a PC, and its cells and its engines are released (R106, R117). -/
def turnEnded (t : State) (slot : Nat) (st : Status) (pc : Nat) : Prop :=
  ∃ u, Map.get? t.dev.turns slot = some u ∧ u.ending = some (st, pc) ∧ u.cells = [] ∧ u.op = none ∧ u.stores = []

/-- No store error is armed in the home engine of a turn (R219, R270): a write of its cells goes as it should. -/
abbrev storeQuiet (s : State) (x : Turn) : Prop := (x.home.all fun n => (s.dev.homeEngine x.bolt n).armed == none) = true

/-- No younger turn has written context slot `n` of the turn's leaf in this beat (R276). -/
abbrev lastToWrite (s : State) (x : Turn) (n : Nat) : Prop :=
  ((Map.get? (s.dev.leaf x.leaf).ctxAt n).any fun w => w.1 == s.dev.sc.beat && x.stamp.getD 0 < w.2) = false

/-- The draw of `n` bytes has been served from the oldest internal lines, each counted and gone (R289). -/
abbrev linesTaken (s t : State) (n : Nat) : Prop :=
  t.dev.ns = { s.dev.ns with internal := s.dev.ns.internal.drop (drawLines n), lines := (s.dev.ns.lines + drawLines n) % 2 ^ 48 }

/-- The turn at the next word after its instruction returned a status of class 0 or 3 (R109). -/
def wentOn (x : Turn) (st : Status) : Turn := { x.next with last := st }

/-- The parts that the end of a turn may change: it, its record and the page log of the record (R50, R113, R117). -/
def endParts : List Part := [.turns, .leaves, .slots, .dma0, .dma1, .ul, .out, .dirty]

/-- The Klozor monitor answers a line (R432, R434). -/
abbrev monitorOpen (s : State) : Prop := s.dev.monitorOn = true ∧ s.dev.scrapped = false

/-- The same engine, turn or register is compared by what it holds; a link is that of a module 0 or 1. -/
def linkPart (m : Nat) : Part := if m = 0 then .link0 else .link1

/-- The DMA engine of a module. -/
def dmaPart (m : Nat) : Part := if m = 0 then .dma0 else .dma1

/-- No high half waits in the shadow with this key (R21). -/
abbrev noShadow (s : State) (k : Nat) : Prop := Map.get? s.dev.pairs.shadow k = none

/-- An access without its right (R333): HS_EVT.DEBUG_ACCESS and source 1492. -/
abbrev deniedIn (s t : State) : Prop :=
  t.dev.hs = { s.dev.hs with evt := s.dev.hs.evt ||| 0x20 } ∧ t.dev.fc = { s.dev.fc with incoming := s.dev.fc.incoming ++ [{ source := 1492 }] }

/-- A source is raised in its own domain, and nothing else changes in the collector (R350). -/
abbrev raisedIn (s t : State) (n : Nat) : Prop := t.dev.fc = { s.dev.fc with incoming := s.dev.fc.incoming ++ [{ source := n }] }

/-- The window of leaf `l` is served on module `m` (R34, R35, R40, R58). -/
abbrev windowOpen (s : State) (m l : Nat) : Prop := m < 2 ∧ s.dev.serves m = true ∧ s.dev.leafHit m l = true

/-- An access of so many bytes with all its byte enables (R16, R32). -/
abbrev fullAccess (size : Nat) : Access := { size := size, enables := 2 ^ size - 1 }

/-- Module `m` holds no read of the random window (R291). -/
abbrev noneHeld (s : State) (m : Nat) : Prop := (s.dev.ns.held.any fun h => h.1 == m) = false

/-- The line of module `m`'s prefetch register has been served: it is counted and gone, and the register takes the next window line where the
other module's holds one already (R289, R290). -/
def lineServed (n n' : Entropy) (m : Nat) : Prop :=
  n'.lines = (n.lines + 1) % 2 ^ 48 ∧ n'.held = n.held ∧ n'.internal = n.internal ∧ (n.window = [] → n'.pre m = none ∧ n'.window = []) ∧
  (∀ x r, n.window = x :: r → (n.pre (1 - m)).isSome = true → n' = { n.setPre m (some x) with window := r, lines := (n.lines + 1) % 2 ^ 48 })

/-- The Klozor monitor answers a line, and its pin is not held by the test access port (R432, R434, R455). -/
abbrev monitorHeard (s : State) : Prop := monitorOpen s ∧ s.dev.jt.holds = false

/-- The monitor has sent these lines and has done nothing else; the valid line confirms its rate (R433, R438). -/
def monReplied (s t : State) (lines : List Out) : Prop :=
  t.dev.ca = { s.dev.ca with baudTrial := false } ∧ t.dev.out = s.dev.out ++ lines ∧ keepsRest [.ca, .out] s t

/-- The last line of a reply that ended with DONE (R433). -/
def okLine : Out := .monitor "ok" []

/-- The last line of a reply that ended with another status (R433). -/
def errLine (st : Status) : Out := .monitor "err" [st.toNat]

/-- A command of the calibration engine may run and finds none running or waiting (R429). -/
abbrev calIdle (s : State) : Prop := hostOpen s ∧ s.dev.ca.jobs = []

/-- The write command of CA_ITEM and CA_VALUE with an opcode, whose line writes verify (R429). -/
def calJob (s : State) (op : Nat) : CalJob :=
  { op := op, code := s.dev.ca.code, inst := s.dev.ca.inst, value := s.dev.ca.bytes, fails := [false] }

/-- The calibration commands of the hinge (R429). -/
def calRows : List Instr := [.caRead, .caSet false, .caDrop false, .caRestoreFactory [], .caFactorySet false]

/-- The same block of the calibration engine: the last command ended with a status, no command waits (R429). -/
abbrev calEnded (t : State) (st : Status) : Prop := t.dev.ca.jobs = [] ∧ t.dev.ca.cmd.status = st.toNat

/-- The eight words of a calibration value (R439). -/
def calWords (v : Bytes) : List Nat := (List.range 8).map fun i => u32 v (4 * i)

/-- The lines of the monitor, one command of each (R435). -/
def monRows : List Instr :=
  [.monHelp, .monVer, .monHasp, .monBeats, .monFaults, .monFaultsClear 0, .monWard, .monNoise, .monCal 0 0, .monCalSet 0 0 [] false,
   .monCalDrop 0 0 false, .monCalRestore [], .monPatch, .monPeek 0, .monDump 0 1, .monPoke 0 0, .monOpen [], .monOpenTimeout, .monDrop,
   .monBaud 0, .monBadLine true]

/-- A source whose check does nothing beyond the collector is raised alone, in a running collector into which nothing else comes (R350, R357). -/
abbrev raisedAlone (s : State) (n : Nat) : Prop :=
  s.dev.collects = true ∧ assigned n = true ∧ s.dev.fc.incoming = [] ∧ s.dev.check { source := n } = s.dev

/-- The reactions of a source that hold a bit (R352). -/
abbrev reacts (s : State) (n rx : Nat) : Prop := s.dev.fc.effective n &&& rx ≠ 0

/-- A received frame that is whole and has neither come round nor used up its hops (R449). -/
abbrev frameGoesOn (s : State) (b : Bytes) : Prop :=
  s.dev.onRing = true ∧ frameGood b = true ∧ u8 b 2 ≠ s.dev.lr.node ∧ u8 b 3 ≠ 1

/-- The slots that the range of leaf `l` has lost between two states are empty (R246). -/
def slotsOutsideGone (s t : State) (l : Nat) : Prop :=
  s.dev.slots.slots.sorted = true → ∀ n, (s.dev.leaf l).slotBase ≤ n → n < (s.dev.leaf l).slotBase + (s.dev.leaf l).slotCount →
    ¬ ((t.dev.leaf l).slotBase ≤ n ∧ n < (t.dev.leaf l).slotBase + (t.dev.leaf l).slotCount) → Map.get? t.dev.slots.slots n = none

/-- Accesses by the host, the monitor and the test port that no pin's or queue's state rules out. -/
def hostAccess (c : Instr) : Bool :=
  match c with
  | .registerWrite _ _ _ | .pairLoRead _ _ | .pairHiRead _ _ | .pairLoWrite _ _ | .pairHiWrite _ _ | .vaultWindowRead _
  | .vaultWindowWrite _ _ | .moduleEnableWrite _ | .lvtIndexWrite _ | .lvtCommit _ | .lvtMaskWrite _ | .hingeUnknownOpcode _
  | .kwUnknownOpcode _ | .hsUnknownOpcode _ | .miUnknownOpcode _ | .errorInject _ _ | .microtraceStart _ | .microtraceRead
  | .nsRawDataRead | .slotRangeCommit | .dgSlotSelWrite _ | .aliveRestart | .evlIndexWrite _ | .ufRead _ | .tamperPolWrite _ | .caRead
  | .caSet _ | .caDrop _ | .caRestoreFactory _ | .caFactorySet _ | .monHelp | .monVer | .monHasp | .monBeats | .monFaults
  | .monFaultsClear _ | .monWard | .monNoise | .monCal _ _ | .monCalSet _ _ _ _ | .monCalDrop _ _ _ | .monCalRestore _ | .monPatch
  | .monPeek _ | .monDump _ _ | .monPoke _ _ | .monOpen _ | .monOpenTimeout | .monDrop | .monBaud _ | .monBadLine _ | .hgCreate
  | .hgQconfig | .hgReset | .hgDestroy | .hgQuiesce | .hgResume | .hgRebind | .hgDlogSet | .hgDlogHarvest | .hgDlogStop | .hgImportOpen
  | .hgExport | .hgImport | .kwIdgen | .kwCertInstall | .kwCertRead | .kwAttest | .hsOpen | .hsDropRights | .hsTransition
  | .hsIntkeyInstall | .miPatch | .miRetire | .miFwSwap | .miPinRecal | .miPinRetire | .miRawCapture | .miReseedAll | .miMramScrub
  | .miWearRelocate | .miImageWrite | .miJournalCompact | .miWardRekey | .miTamperRecal => true
  | _ => false

end Sys2Proof.Safety
end

