-- ==== Sys2Proof/Certificates/Slice0/Obligations.lean ====
section
/-! DEFINITION. The statements for the provers. -/

open Sys2Proof Sys2Proof.Machine Sys2Proof.Safety

/-! ### The machine as a whole -/

/-- A step takes the command at the front of the queue and is `exec` of it with the queue's rest: the statements about `exec` reach a run
through this one. -/
def Obligations.StepRunsTheFrontCommand : Prop :=
  ∀ (c : Instr) (rest : List Instr) (d : Device), step { pending := c :: rest, dev := d } = exec c { pending := rest, dev := d }

/-- On an empty queue the block idles (the model's choice, log entry 4): no command runs, the real-time counter goes on by one tick while
the always-on island lives (R420), and no fuse, no flash byte, no turn, no leaf and no beat changes. -/
def Obligations.EmptyQueueOnlyTicks : Prop :=
  ∀ (s : State), s.pending = [] → ∃ t, step s = .next t ∧ t.pending = [] ∧
    (s.dev.aon.dead = false → t.dev.aon.rtc = (s.dev.aon.rtc + 1) % 2 ^ 48) ∧ (s.dev.aon.dead = true → t.dev.aon = s.dev.aon) ∧
    t.dev.perm = s.dev.perm ∧ t.dev.turns = s.dev.turns ∧ t.dev.leaves = s.dev.leaves ∧ t.dev.sc = s.dev.sc

/-- The state after reset: no command waits, no leaf, no turn, no fuse burned, the beat at 0, no sticky source, no right, not shackled, RST_N
low, the pass path closed, and the permanent memories in canonical form. -/
def Obligations.ResetIsCanonical : Prop :=
  Inv State.reset ∧ State.reset.pending = [] ∧ State.reset.dev.leaves = [] ∧ State.reset.dev.turns = [] ∧ State.reset.dev.hasp = 0 ∧
  State.reset.dev.sc.beat = 0 ∧ State.reset.dev.hs.rights = 0 ∧ State.reset.dev.shackled = false ∧ State.reset.dev.power.rstN = false ∧
  State.reset.dev.lr.passOpen = false ∧ State.reset.dev.fc.sticky = 0

/-- Every step keeps the user flash in canonical form (R382): equal flash contents are equal data. -/
def Obligations.EveryStepKeepsFlashCanonical : Prop :=
  ∀ (s t : State), Inv s → step s = .next t → Inv t

/-- No step unburns a fuse: every burned bit of every hasp row and the burned device secret stay so (R318, R322), and the hasp value never
falls (R317). -/
def Obligations.NoStepUnburnsAFuse : Prop :=
  ∀ (s t : State), step s = .next t → fusesKept s.dev.perm t.dev.perm ∧ s.dev.hasp ≤ t.dev.hasp

/-- A command leaves the queue as it is: whatever exec answers as a next state holds the same waiting commands. -/
def Obligations.CommandsLeaveTheQueue : Prop :=
  ∀ (c : Instr) (s t : State), exec c s = .next t → t.pending = s.pending

/-- Only the burns of the hasp, the boot ROM, a wipe step and a user flash write change the fuses or the user flash (R317, R318, R322, R324, R382); of
these a flash write changes no fuse, and a burn no flash byte. -/
def Obligations.OnlyBurnsAndFlashWritesChangePermanentMemory : Prop :=
  (∀ (c : Instr) (s t : State), exec c s = .next t →
    (∀ f n, c ≠ .bootRomStart f n) → (∀ n, c ≠ .haspOddBurn n) → (∀ n, c ≠ .haspEvenBurn n) → (∀ b, c ≠ .wipeStep b) → (∀ b, c ≠ .ufWrite b) →
    t.dev.perm = s.dev.perm) ∧
  (∀ (b : Bool) (s t : State), exec (.ufWrite b) s = .next t →
    t.dev.perm.row0 = s.dev.perm.row0 ∧ t.dev.perm.row1 = s.dev.perm.row1 ∧ t.dev.perm.row2 = s.dev.perm.row2 ∧
    t.dev.perm.secretBurned = s.dev.perm.secretBurned) ∧
  (∀ (n : Nat) (s t : State), exec (.haspOddBurn n) s = .next t → ∀ a, t.dev.perm.flash.read a = s.dev.perm.flash.read a) ∧
  (∀ (n : Nat) (s t : State), exec (.haspEvenBurn n) s = .next t → ∀ a, t.dev.perm.flash.read a = s.dev.perm.flash.read a)

/-- No command is refused, and a command stops only where the state rules its event out: every arm has its meaning, and the one fault is
`cannotOccur`. An access by the host, the monitor or the test port that the model does not bound by a pin's or a queue's state never ends a run,
whatever the state holds. -/
def Obligations.CommandsStopOnlyWhereTheEventCannotOccur : Prop :=
  (∀ (c : Instr) (s : State), (∃ t, exec c s = .next t) ∨ exec c s = .fault .cannotOccur) ∧
  (∀ (c : Instr) (s : State), hostAccess c = true → ∃ t, exec c s = .next t ∧ t.pending = s.pending)

/-- Decode of encode is the instruction, for every Zaxus instruction whose fields its word can hold and decode accepts (R99, R123): no bit
of a word is dropped. -/
def Obligations.ZaxusWordsDecodeToTheirInstruction : Prop :=
  ∀ (z : ZInstr), z.wf = true → decodeWord z.encode = .ok z

/-- R126: a written cell that stands in another field of the same word is refused with BAD_CELL where its (OP, VAR) pair is an
instruction other than XOR, BLK.ENC, BLK.DEC and the GHASH variant; those four are accepted wherever their three fields are cells. -/
def Obligations.WrittenCellInTwoFieldsIsRefused : Prop :=
  (∀ (k : ZKind) (var dst a b imm : Nat), var < 256 → dst < 256 → a < 256 → b < 256 → imm < 2 ^ 24 → classify k.op var imm = .ok k →
    [ZKind.xor, .blkEnc, .blkDec, .ghash].contains k = false →
    (let r := (ZInstr.mk k var dst a b imm).roles
     (r.1.writes = true ∧ ((r.2.1 ≠ .none ∧ dst = a) ∨ (r.2.2 ≠ .none ∧ dst = b))) ∨
     (r.2.1.writes = true ∧ ((r.1 ≠ .none ∧ dst = a) ∨ (r.2.2 ≠ .none ∧ a = b)))) →
    decodeWord (ZInstr.mk k var dst a b imm).encode = .error St.badCell) ∧
  (∀ (z : ZInstr), [ZKind.xor, .blkEnc, .blkDec, .ghash].contains z.kind = true → z.var < 256 → z.imm < 2 ^ 24 →
    classify z.kind.op z.var z.imm = .ok z.kind → z.roles.1.fits z.dst = true → z.roles.2.1.fits z.a = true → z.roles.2.2.fits z.b = true →
    decodeWord z.encode = .ok z)

/-! ### Supplies, resets and start-up -/

/-- CHIP_RESET and RST_N_ASSERT (R353, R370, R443): with VDD_CORE present, a CHIP reset from any cause ends every turn and every leaf, returns the
beat and the entropy state to their reset values and closes the pass path (R453); fuses and flash, vault memory, the always-on island, the sticky
bits and the held rights stay, a commit under way completes unless MRAM writes are inhibited, and LAST_RESET names the cause. While VDD_CORE is off
RST_N_ASSERT only takes the pin low. -/
def Obligations.ChipResetLosesVolatileStateOnly : Prop :=
  (∀ (cause : ResetCause) (s : State), s.dev.power.off = false → ∃ t, exec (.chipReset cause) s = .next t ∧ t.pending = s.pending ∧
    t.dev.leaves = [] ∧ t.dev.turns = [] ∧ t.dev.sc.beat = 0 ∧ t.dev.ns.state = .starting ∧ t.dev.lr.passOpen = false ∧
    t.dev.fc.cause = resetCode cause ∧ t.dev.fc.sticky = s.dev.fc.sticky ∧ t.dev.fc.shackled = s.dev.fc.shackled ∧
    t.dev.hs.rights = s.dev.hs.rights ∧ t.dev.nv.cuts = s.dev.settleCommit.nv.cuts ∧ t.dev.nv.gens = s.dev.settleCommit.nv.gens ∧
    t.dev.perm = s.dev.perm ∧ t.dev.vault = s.dev.vault ∧ t.dev.aon = s.dev.aon ∧ t.dev.jt = s.dev.jt ∧ t.dev.out = s.dev.out) ∧
  (∀ (s : State), s.dev.power.rstN = true → s.dev.power.off = false → ∃ t, exec .rstNAssert s = .next t ∧ t.pending = s.pending ∧
    t.dev.power.rstN = false ∧ t.dev.power.boot = 0 ∧ t.dev.leaves = [] ∧ t.dev.turns = [] ∧ t.dev.lr.passOpen = false ∧ t.dev.fc.cause = 1 ∧
    t.dev.fc.sticky = s.dev.fc.sticky ∧ t.dev.hs.rights = s.dev.hs.rights ∧ t.dev.nv.cuts = s.dev.settleCommit.nv.cuts ∧
    t.dev.perm = s.dev.perm ∧ t.dev.vault = s.dev.vault ∧ t.dev.aon = s.dev.aon) ∧
  (∀ (s : State), s.dev.power.rstN = true → s.dev.power.off = true → ∃ t, exec .rstNAssert s = .next t ∧ t.dev.power.rstN = false ∧
    keepsRest [.power] s t)

/-- POWER_LOSS and POWER_UP (R333, R374, R410): the loss of VDD_CORE ends every turn and leaf, empties vault memory and clears the rights; fuses,
flash and the journal stay but for the commit that the loss cuts at the given cycle, and with VDD_IO still good so does the always-on island. Where
VDD_IO falls too the island goes on under VBAT, or loses everything without VBAT. When VDD_CORE returns, the rights and SHACKLED are clear. -/
def Obligations.PowerCycleClearsRightsAndShackle : Prop :=
  (∀ (ioFalls : Bool) (cycle : Nat) (s : State), s.dev.power.off = false → ∃ t, exec (.powerLoss ioFalls cycle) s = .next t ∧
    t.pending = s.pending ∧ t.dev.power.off = true ∧ t.dev.power.core = false ∧ t.dev.hs.rights = 0 ∧ t.dev.leaves = [] ∧ t.dev.turns = [] ∧
    t.dev.vault = [] ∧ t.dev.perm = s.dev.perm ∧ (s.dev.nv.current = none → t.dev.nv.cuts = s.dev.nv.cuts) ∧
    (cycle < 40 → t.dev.nv.cuts = s.dev.nv.cuts) ∧ (ioFalls = false → t.dev.aon = s.dev.aon ∧ t.dev.fc.sticky = s.dev.fc.sticky) ∧
    (ioFalls = true → s.dev.power.io = true → s.dev.power.vbat = true → t.dev.aon.onBackup = true ∧ t.dev.aon.share = s.dev.aon.share) ∧
    (ioFalls = true → s.dev.power.io = true → s.dev.power.vbat = false → t.dev.aon.dead = true ∧ t.dev.aon.share = [] ∧ t.dev.fc.sticky = 0)) ∧
  (∀ (s : State), s.dev.power.off = true → ∃ t, exec .powerUp s = .next t ∧ t.pending = s.pending ∧ t.dev.power.off = false ∧
    t.dev.power.core = true ∧ t.dev.hs.rights = 0 ∧ t.dev.fc.shackled = false ∧ t.dev.fc.cause = 0 ∧ t.dev.fc.shSrc = s.dev.fc.shSrc ∧
    t.dev.leaves = [] ∧ t.dev.turns = [] ∧ t.dev.perm = s.dev.perm ∧ t.dev.aon = s.dev.aon)

/-- AON_POWER_UP, HANDOVER_TO_VBAT, HANDBACK_TO_VDD_IO, VBAT_LOW and AON_RETENTION_LOSS (R420 to R422): the first supply starts the island with
its counter at 0 and without a key share; it moves to VBAT and back with its counter kept, and the move is owed to boot firmware as source 1430;
a low VBAT is owed as source 1434; without a supply all that it holds is lost. -/
def Obligations.AlwaysOnIslandFollowsItsSupplies : Prop :=
  (∀ (vbat : Bool) (s : State), s.dev.aon.dead = true → ∃ t, exec (.aonPowerUp vbat) s = .next t ∧ t.dev.aon.por = true ∧ t.dev.aon.rtc = 0 ∧
    t.dev.aon.share = [] ∧ t.dev.aon.dead = false ∧ t.dev.aon.onBackup = vbat ∧ 1435 ∈ t.dev.aon.owed ∧ t.dev.tp.srcs = tamperDefaults ∧
    t.dev.tp.sticky = 0 ∧ keepsRest [.aon, .tp, .power] s t) ∧
  (∀ (s : State), s.dev.power.vbat = true → s.dev.aon.onBackup = false → s.dev.aon.dead = false → ∃ t, exec .handoverToVbat s = .next t ∧
    t.pending = s.pending ∧ t.dev.aon.onBackup = true ∧ t.dev.aon.backupSeen = true ∧ 1430 ∈ t.dev.aon.owed ∧ t.dev.power.io = false ∧
    t.dev.aon.rtc = s.dev.aon.rtc ∧ t.dev.aon.share = s.dev.aon.share ∧ t.dev.perm = s.dev.perm ∧
    (s.dev.power.io = true → s.dev.power.off = false → t.dev.leaves = [] ∧ t.dev.turns = [] ∧ t.dev.fc.cause = 3) ∧
    (s.dev.power.io = false → keepsRest [.power, .aon] s t)) ∧
  (∀ (s : State), s.dev.aon.onBackup = true → ∃ t, exec .handbackToVddIo s = .next t ∧ t.dev.aon.onBackup = false ∧ t.dev.power.io = true ∧
    t.dev.aon.rtc = s.dev.aon.rtc ∧ keepsRest [.power, .aon] s t) ∧
  (∀ (s : State), s.dev.power.vbatOk = true → s.dev.aon.dead = false → ∃ t, exec .vbatLow s = .next t ∧ t.dev.power.vbatOk = false ∧
    t.dev.aon.vbatLow = true ∧ 1434 ∈ t.dev.aon.owed ∧ keepsRest [.power, .aon] s t) ∧
  (∀ (s : State), s.dev.aon.dead = false → ∃ t, exec .aonRetentionLoss s = .next t ∧ t.pending = s.pending ∧ t.dev.aon.dead = true ∧
    t.dev.aon.share = [] ∧ t.dev.aon.rtc = 0 ∧ t.dev.tp.srcs = tamperDefaults ∧ t.dev.fc.sticky = 0 ∧ t.dev.fc.shackled = false ∧
    t.dev.kw.valid = false ∧ t.dev.perm = s.dev.perm)

/-- RST_N_RELEASE, HOUSEKEEPING_PLL_LOCK, ENGINE_PLL_LOCK and PLL_LOCK_LOSS (R11, R167, R340, R409, R423, R443): the start begins with good rails, a
lock clocks its domain, a loss raises its source. BLOCK_RESET_RELEASE (R354, R397): the block is out of reset; an engine that passes its self-test and
may run takes strokes again, one that fails is retired with source 1472. -/
def Obligations.ReleasesAndClocks : Prop :=
  (∀ (s : State), s.dev.power.rstN = false → ∃ t, exec .rstNRelease s = .next t ∧ t.dev.power.rstN = true ∧
    t.dev.power.boot = (if s.dev.power.boot = 0 ∧ s.dev.power.railsGood = true ∧ s.dev.power.thermal ≠ 4 ∧ s.dev.power.sensed ≠ 4 then 1
      else s.dev.power.boot) ∧ keepsRest [.power] s t) ∧
  (∀ (s : State), 1 ≤ s.dev.power.boot → s.dev.power.hkPll = false →
    exec .housekeepingPllLock s = .next { s with dev := { s.dev with power := { s.dev.power with hkPll := true } } }) ∧
  (∀ (s : State), 1 ≤ s.dev.power.boot → s.dev.power.hkPll = true → s.dev.power.engPll = false → ∃ t, exec .enginePllLock s = .next t ∧
    t.dev.power.engPll = true ∧ (s.dev.power.railsGood = true → ∀ n, 8 ≤ n → n < 18 → (nth t.dev.tp.srcs n {}).armed = true) ∧
    keepsRest [.power, .tp] s t) ∧
  (∀ (s : State), s.dev.power.engPll = true → ∃ t, exec (.pllLockLoss .engine) s = .next t ∧ t.dev.power.engPll = false ∧
    t.dev.fc.incoming = s.dev.fc.incoming ++ [{ source := 1436 }] ∧ t.dev.power.evt = s.dev.power.evt ||| 0x10 ∧
    keepsRest [.power, .fc, .ul, .out] s t) ∧
  (∀ (s : State), s.dev.power.hkPll = true → ∃ t, exec (.pllLockLoss .housekeeping) s = .next t ∧ t.dev.power.hkPll = false ∧
    t.dev.fc.incoming = s.dev.fc.incoming ++ [{ source := 1437 }] ∧ t.dev.power.evt = s.dev.power.evt ||| 0x10 ∧
    keepsRest [.power, .fc, .ul, .out] s t) ∧
  (∀ (m : Nat) (s : State), m < 2 → 1 ≤ s.dev.power.boot → s.dev.power.hkPll = true → ∃ t, exec (.pllLockLoss (.ucie m)) s = .next t ∧
    { source := 1438 + m } ∈ t.dev.fc.incoming ∧ t.dev.power.evt = s.dev.power.evt ||| 0x10 ∧
    ((s.dev.link m).state = .active → (t.dev.link m).state = .retrain) ∧
    keepsRest [linkPart m, .power, .fc, .ul, .out] s t) ∧
  (∀ (n : Nat) (s : State), n < s.dev.tu.length → .tumbler n ∈ s.dev.fc.resets → ∃ t, exec (.blockResetRelease (.tumbler n) true) s = .next t ∧
    .tumbler n ∉ t.dev.fc.resets ∧ (t.dev.tumbler n).inReset = false ∧
    ((s.dev.tumbler n).retired = false → (nth s.dev.mc.classes 0 {}).held = false → (s.dev.tumbler n).stopped = false →
      (t.dev.tumbler n).inService = true) ∧ keepsRest [.fc, .tu] s t) ∧
  (∀ (n : Nat) (s : State), n < s.dev.bo.length → .bolt n ∈ s.dev.fc.resets → ∃ t, exec (.blockResetRelease (.bolt n) true) s = .next t ∧
    .bolt n ∉ t.dev.fc.resets ∧ (t.dev.bolt n).inReset = false ∧ keepsRest [.fc, .bo] s t) ∧
  (∀ (b : BlockId) (s : State), b ∈ s.dev.fc.resets → (∀ n, b ≠ .tumbler n) → (∀ n, b ≠ .bolt n) → ∃ t,
    exec (.blockResetRelease b true) s = .next t ∧ b ∉ t.dev.fc.resets ∧ keepsRest [.fc, .bb, .bk, .dg, .mc] s t) ∧
  (∀ (n : Nat) (s : State), n < s.dev.tu.length → .tumbler n ∈ s.dev.fc.resets → ∃ t, exec (.blockResetRelease (.tumbler n) false) s = .next t ∧
    t.pending = s.pending ∧ (t.dev.tumbler n).retired = true ∧ (t.dev.tumbler n).inService = false ∧ { source := 1472 } ∈ t.dev.fc.incoming) ∧
  (∀ (n : Nat) (s : State), n < s.dev.bo.length → .bolt n ∈ s.dev.fc.resets → ∃ t, exec (.blockResetRelease (.bolt n) false) s = .next t ∧
    t.pending = s.pending ∧ (t.dev.bolt n).retired = true ∧ (t.dev.bolt n).inService = false ∧ { source := 1472 } ∈ t.dev.fc.incoming) ∧
  (∀ (b : BlockId) (s : State), b = .bank ∨ b = .blockArray → b ∈ s.dev.fc.resets → ∃ t, exec (.blockResetRelease b false) s = .next t ∧
    (b = .bank → t.dev.bb.stopped = true) ∧ (b = .blockArray → t.dev.bk.stopped = true) ∧ { source := 1472 } ∈ t.dev.fc.incoming ∧
    keepsRest [.fc, .bb, .bk] s t)

/-- VCORE_STAGE_CHANGE, THERMAL_SAMPLE, RAIL_LOSS and RAILS_GOOD (R409, R411, R412, R417 to R419): the sensed and the thermal stage follow the
voltage and the temperature, and a stage 4 is a CHIP reset. -/
def Obligations.StagesFollowSupplyAndTemperature : Prop :=
  (∀ (mv : Nat) (s : State), s.dev.power.off = false → s.dev.power.boot ≠ 0 → s.dev.power.sensed ≠ 4 → sensedAt s.dev.power.sensed mv ≠ 4 →
    s.dev.hs.trans = none → ∃ t, exec (.vcoreStageChange mv) s = .next t ∧ t.dev.power.mv = mv ∧
    t.dev.power.sensed = sensedAt s.dev.power.sensed mv ∧ t.dev.power.applied = min 3 (max (sensedAt s.dev.power.sensed mv) s.dev.power.thermal) ∧
    t.dev.nv.inhibit = decide (mv < 685) ∧ keepsRest [.power, .nv, .fc, .ul, .out] s t) ∧
  (∀ (mv : Nat) (s : State), s.dev.power.off = false → s.dev.power.sensed ≠ 4 → mv < 685 → ∃ t, exec (.vcoreStageChange mv) s = .next t ∧
    t.pending = s.pending ∧ t.dev.power.sensed = 4 ∧ t.dev.power.core = false ∧ t.dev.power.boot = 0 ∧ t.dev.fc.cause = 3 ∧ t.dev.leaves = [] ∧
    t.dev.turns = [] ∧ t.dev.perm = s.dev.perm ∧ t.dev.aon = s.dev.aon) ∧
  (∀ (mv : Nat) (s : State), s.dev.power.off = false → sensedAt s.dev.power.sensed mv ≠ 4 → (s.dev.power.sensed = 4 ∨ s.dev.power.boot = 0) → ∃ t,
    exec (.vcoreStageChange mv) s = .next t ∧ t.dev.power.mv = mv ∧ t.dev.power.sensed = sensedAt s.dev.power.sensed mv ∧
    t.dev.power.applied = sensedAt s.dev.power.sensed mv ∧ keepsRest [.power, .nv] s t) ∧
  (∀ (c : Int) (s : State), s.dev.power.off = false → s.dev.power.boot ≠ 0 → s.dev.power.thermal ≠ 4 → s.dev.power.thermalAt c ≠ 4 →
    s.dev.hs.trans = none → ∃ t, exec (.thermalSample c) s = .next t ∧ t.dev.power.tempNow = c ∧ t.dev.power.tempMax = max s.dev.power.tempMax c ∧
    t.dev.power.thermal = s.dev.power.thermalAt c ∧ t.dev.power.applied = min 3 (max s.dev.power.sensed (s.dev.power.thermalAt c)) ∧
    keepsRest [.power, .fc, .ul, .out] s t) ∧
  (∀ (c : Int) (s : State), s.dev.power.off = false → s.dev.power.thermal ≠ 4 → 120 ≤ c → ∃ t, exec (.thermalSample c) s = .next t ∧
    t.pending = s.pending ∧ t.dev.power.thermal = 4 ∧ t.dev.power.boot = 0 ∧ t.dev.fc.cause = 3 ∧ t.dev.leaves = [] ∧ t.dev.turns = [] ∧
    t.dev.perm = s.dev.perm) ∧
  (∀ (c : Int) (s : State), s.dev.power.off = false → s.dev.power.thermalAt c ≠ 4 → (s.dev.power.thermal = 4 ∨ s.dev.power.boot = 0) → ∃ t,
    exec (.thermalSample c) s = .next t ∧ t.dev.power.tempNow = c ∧ t.dev.power.thermal = s.dev.power.thermalAt c ∧
    keepsRest [.power, .fc, .ul, .out] s t) ∧
  (∀ (r : Rail) (s : State), s.dev.power.off = false → s.dev.power.railGood r = true → ∃ t, exec (.railLoss r) s = .next t ∧
    t.pending = s.pending ∧ t.dev.power.railGood r = false ∧ t.dev.power.boot = 0 ∧ t.dev.fc.cause = 3 ∧ t.dev.leaves = [] ∧ t.dev.turns = [] ∧
    (∀ n, 8 ≤ n → n < 18 → n < t.dev.tp.srcs.length → (nth t.dev.tp.srcs n {}).armed = false) ∧ t.dev.perm = s.dev.perm ∧ t.dev.aon = s.dev.aon) ∧
  (∀ (s : State), s.dev.power.off = false → s.dev.power.core = true → s.dev.aon.dead = false → ∃ t, exec .railsGood s = .next t ∧
    t.dev.power.railsGood = true ∧ (s.dev.power.boot ≠ 0 → t.dev.power.boot = s.dev.power.boot) ∧
    (s.dev.power.boot = 0 → s.dev.power.rstN = true → s.dev.power.thermal ≠ 4 → s.dev.power.sensed ≠ 4 → t.dev.power.boot = 1) ∧
    keepsRest [.power, .tp] s t)

/-- The start sequence (R40, R77, R325, R329, R358, R393): BOOT_ROM_START hands over to the firmware bank it chose, serves
itself in a Scrapped device or without a bank, and ends an odd hasp value with its even burn, or stops at a wipe step that fails; BOOT_FIRMWARE_START
makes the journal usable, raises the generation of every live leaf number and leaves none live, counts the boot and raises what is owed, or enters
the shackle state again; BOOT_COMPLETE serves accesses and starts ALIVE unless something stops it. -/
def Obligations.StartSequence : Prop :=
  (∀ (rows : Nat) (f : Option Nat) (b : Nat) (s : State), s.dev.power.boot = 1 → s.dev.power.hkPll = true → s.dev.perm.repair = s.dev.perm →
    s.dev.hasp % 2 = 0 → s.dev.hasp ≠ 8 → s.dev.chooseFw = some b → ∃ t, exec (.bootRomStart f rows) s = .next t ∧ t.dev.power.boot = 2 ∧
    t.dev.mc.bank = b ∧ keepsRest [.power, .mc] s t) ∧
  (∀ (rows : Nat) (f : Option Nat) (s : State), s.dev.power.boot = 1 → s.dev.power.hkPll = true → s.dev.perm.repair = s.dev.perm →
    s.dev.hasp = 8 → ∃ t, exec (.bootRomStart f rows) s = .next t ∧ t.dev.power.boot = 4 ∧ t.dev.mc.romOnly = false ∧
    keepsRest [.power, .mc] s t) ∧
  (∀ (rows : Nat) (f : Option Nat) (s : State), s.dev.power.boot = 1 → s.dev.power.hkPll = true → s.dev.perm.repair = s.dev.perm →
    s.dev.hasp % 2 = 0 → s.dev.hasp ≠ 8 → s.dev.chooseFw = none → ∃ t, exec (.bootRomStart f rows) s = .next t ∧ t.dev.power.boot = 4 ∧
    t.dev.mc.romOnly = true ∧ { source := 1458 } ∈ t.dev.fc.incoming ∧ keepsRest [.power, .mc, .fc] s t) ∧
  (∀ (s : State), s.dev.power.boot = 1 → s.dev.power.hkPll = true → s.dev.perm.repair = s.dev.perm → s.dev.hasp % 2 = 1 →
    s.dev.shackled = false → s.dev.power.applied ≤ 1 → ∃ t, exec (.bootRomStart none 3) s = .next t ∧ t.pending = s.pending ∧
    t.dev.hasp = s.dev.hasp + 1) ∧
  (∀ (rows : Nat) (f : Option Nat) (s : State), s.dev.power.boot = 1 → s.dev.power.hkPll = true → s.dev.perm.repair = s.dev.perm →
    s.dev.hasp % 2 = 1 → s.dev.shackled = false → s.dev.power.applied ≤ 1 → wipeStops (s.dev.hasp + 1) f = true → ∃ t,
    exec (.bootRomStart f rows) s = .next t ∧ t.pending = s.pending ∧ t.dev.hasp = s.dev.hasp ∧ t.dev.power.boot = 1 ∧
    { source := 1491 } ∈ t.dev.fc.incoming) ∧
  (∀ (r : BootReport) (s : State), s.dev.power.boot = 2 → s.dev.shackled = false → r.lostSeq = none → s.dev.tp.pendShackle = false → ∃ t,
    exec (.bootFirmwareStart r) s = .next t ∧ t.pending = s.pending ∧ t.dev.power.boot = 3 ∧ t.dev.nv.ready = true ∧
    t.dev.nv.lives = [] ∧ (s.dev.nv.lives.Nodup → ∀ l ∈ s.dev.nv.lives, t.dev.gen l = min (s.dev.gen l + 1) (2 ^ 32 - 1)) ∧
    t.dev.hs.boot = min (s.dev.hs.boot + 1) (2 ^ 32 - 1) ∧ t.dev.aon.owed = [] ∧ (∀ n ∈ s.dev.aon.owed, { source := n } ∈ t.dev.fc.incoming) ∧
    t.dev.perm = s.dev.perm) ∧
  (∀ (r : BootReport) (s : State), s.dev.power.boot = 2 → s.dev.shackled = true → ∃ t, exec (.bootFirmwareStart r) s = .next t ∧
    t.pending = s.pending ∧ t.dev.power.boot = 3 ∧ t.dev.shackled = true ∧ t.dev.leaves = [] ∧ t.dev.vault = [] ∧ t.dev.perm = s.dev.perm) ∧
  (∀ (s : State), s.dev.power.boot = 3 → s.dev.shackled = false → ∃ t, exec .bootComplete s = .next t ∧ t.dev.power.boot = 4 ∧
    t.dev.mc.healthy = true ∧ t.dev.fc.alive = !s.dev.fc.aliveStopped ∧ keepsRest [.power, .mc, .fc] s t)


/-! ### Links, configuration space, registers -/

/-- PARTNER_SIDEBAND_ACTIVE, NO_PARTNER_TIMEOUT and LINK_TRAINED (R37, R38, R42, R56): a partner's sideband starts training, none leaves the module
listening in DOWN_NO_PARTNER, and a training ends in ACTIVE at the lower of the two top rates, or in DOWN_REPAIR with more bad lanes than can be
replaced. LINK_RETRAIN, LINK_DOWN and REPLAY_THRESHOLD (R43, R44, R57): each is counted or sets its event, and raises its source; a down abandons the
reads that were on the link, which are issued again later. -/
def Obligations.LinksTrainAndLeaveActive : Prop :=
  (∀ (m : Nat) (s : State), s.dev.trains m = true → s.dev.running = true → (s.dev.link m).partner = false → ∃ t,
    exec (.partnerSidebandActive m) s = .next t ∧ (t.dev.link m).partner = true ∧
    ((s.dev.link m).state = .reset ∨ (s.dev.link m).state = .downNoPartner → (t.dev.link m).state = .training) ∧
    ((s.dev.link m).state ≠ .reset → (s.dev.link m).state ≠ .downNoPartner → (t.dev.link m).state = (s.dev.link m).state) ∧
    keepsRest [linkPart m] s t) ∧
  (∀ (m : Nat) (s : State), s.dev.trains m = true → s.dev.running = true → (s.dev.link m).partner = false → (s.dev.link m).state = .reset → ∃ t,
    exec (.noPartnerTimeout m) s = .next t ∧ t.dev.link m = { s.dev.link m with state := .downNoPartner } ∧ keepsRest [linkPart m] s t) ∧
  (∀ (m rate tx rx : Nat) (s : State), m < 2 → rate < 3 → tx ≤ 4 → rx ≤ 4 → (s.dev.link m).partner = true →
    (s.dev.link m).state = .training ∨ (s.dev.link m).state = .retrain → (s.dev.link m).repairEn = true ∨ (tx = 0 ∧ rx = 0) → ∃ t,
    exec (.linkTrained m rate tx rx) s = .next t ∧ (t.dev.link m).state = .active ∧ (t.dev.link m).rate = max rate (s.dev.topRate m) ∧
    (t.dev.link m).sparesTx = tx ∧ (t.dev.link m).sparesRx = rx ∧ keepsRest [linkPart m, dmaPart m, .fc, .ul, .out] s t) ∧
  (∀ (m rate tx rx : Nat) (s : State), m < 2 → rate < 3 → tx ≤ 68 → rx ≤ 68 → (s.dev.link m).partner = true →
    (s.dev.link m).state = .training ∨ (s.dev.link m).state = .retrain → (4 < tx ∨ 4 < rx) → ∃ t,
    exec (.linkTrained m rate tx rx) s = .next t ∧ (t.dev.link m).state = .downRepair ∧ { source := 1184 + 16 * m + 4 } ∈ t.dev.fc.incoming ∧
    (∀ r ∈ (t.dev.dma m).reads, r.issued = false) ∧ (t.dev.dma m).reads.map DmaRead.tag = (s.dev.dma m).reads.map DmaRead.tag ∧
    keepsRest [linkPart m, dmaPart m, .fc, .ul, .out] s t) ∧
  (∀ (m : Nat) (s : State), m < 2 → s.dev.linkUp m = true → ∃ t, exec (.linkRetrain m) s = .next t ∧ (t.dev.link m).state = .retrain ∧
    (t.dev.link m).retrains = min ((s.dev.link m).retrains + 1) 65535 ∧ t.dev.fc.incoming = s.dev.fc.incoming ++ [{ source := 1184 + 16 * m + 1 }] ∧
    keepsRest [linkPart m, .fc] s t) ∧
  (∀ (m : Nat) (s : State), m < 2 → (s.dev.link m).state = .active ∨ (s.dev.link m).state = .retrain → ∃ t, exec (.linkDown m) s = .next t ∧
    (t.dev.link m).state = .downNoPartner ∧ (t.dev.link m).partner = false ∧ (t.dev.link m).evt = (s.dev.link m).evt ||| 1 ∧
    (∀ r ∈ (t.dev.dma m).reads, r.issued = false) ∧ (t.dev.dma m).reads.map DmaRead.tag = (s.dev.dma m).reads.map DmaRead.tag ∧
    (t.dev.dma m).writes = (s.dev.dma m).writes ∧ { source := 1184 + 16 * m } ∈ t.dev.fc.incoming ∧
    keepsRest [linkPart m, dmaPart m, .fc, .ul, .out] s t) ∧
  (∀ (m : Nat) (s : State), m < 2 → s.dev.linkUp m = true → ∃ t, exec (.replayThreshold m) s = .next t ∧
    (t.dev.link m).evt = (s.dev.link m).evt ||| 0x20 ∧ t.dev.fc.incoming = s.dev.fc.incoming ++ [{ source := 1184 + 16 * m + 5 }] ∧
    keepsRest [linkPart m, .fc, .ul, .out] s t)

/-- MODULE_RETRAIN and MODULE_ENABLE_WRITE (R18, R38, R43, R55, R57): a write of UL_MOD_CTL sets REPAIR_EN and MAX_RATE; RETRAIN retrains an ACTIVE
module; ENABLE 0 disables module 1 unless a leaf is bound to it, which drops the write with its event, and ENABLE 1 brings it back. -/
def Obligations.ModuleControl : Prop :=
  (∀ (m : Nat) (v : Word) (s : State), m < 2 → hostOpen s → .link m ∉ s.dev.fc.resets → s.dev.linkUp m = true → bitOf v.toNat 1 = true →
    (m = 1 → bitOf v.toNat 0 = true ∧ s.dev.link1.enable = true) → ∃ t, exec (.moduleRetrain m v) s = .next t ∧ (t.dev.link m).state = .retrain ∧
    (t.dev.link m).repairEn = bitOf v.toNat 4 ∧ (t.dev.link m).maxRate = field v.toNat 2 2 ∧ { source := 1184 + 16 * m + 1 } ∈ t.dev.fc.incoming ∧
    keepsRest [linkPart m, .fc] s t) ∧
  (∀ (v : Word) (s : State), hostOpen s → .link 1 ∉ s.dev.fc.resets → bitOf v.toNat 0 = false → bitOf v.toNat 1 = false →
    s.dev.link1.enable = true → s.dev.boundToOne = false → ∃ t, exec (.moduleEnableWrite v) s = .next t ∧ t.dev.link1.enable = false ∧
    t.dev.link1.state = .disabled ∧ (∀ r ∈ t.dev.dma1.reads, r.issued = false) ∧ keepsRest [.link1, .dma1] s t) ∧
  (∀ (v : Word) (s : State), hostOpen s → .link 1 ∉ s.dev.fc.resets → bitOf v.toNat 0 = false → bitOf v.toNat 1 = false →
    s.dev.link1.enable = true → s.dev.boundToOne = true → ∃ t, exec (.moduleEnableWrite v) s = .next t ∧ t.dev.link1.enable = true ∧
    t.dev.link1.state = s.dev.link1.state ∧ t.dev.link1.evt = s.dev.link1.evt ||| 0x40 ∧ keepsRest [.link1, .ul, .out] s t) ∧
  (∀ (v : Word) (s : State), hostOpen s → .link 1 ∉ s.dev.fc.resets → bitOf v.toNat 0 = true → bitOf v.toNat 1 = false →
    s.dev.link1.enable = false → s.dev.link1.state = .disabled → ∃ t, exec (.moduleEnableWrite v) s = .next t ∧ t.dev.link1.enable = true ∧
    t.dev.link1.state = (if s.dev.link1.partner = true then .training else .reset) ∧ keepsRest [.link1] s t)

/-- CONFIG_READ and CONFIG_WRITE (R40, R47, R51): Retry Status until boot firmware has finished; then the vendor and part codes, MSI-X enable and
Max_Payload_Size between 128 and 512 bytes. Other registers are the model's (log entry 14). -/
def Obligations.ConfigurationAccesses : Prop :=
  (∀ (m reg : Nat) (s : State), m < 2 → s.dev.cfgServed m = true → s.dev.power.boot ≠ 4 → s.dev.shackled = false →
    exec (.configRead m reg) s = .next { s with dev := s.dev.emit .retryStatus }) ∧
  (∀ (m : Nat) (f : CfgWrite) (s : State), m < 2 → s.dev.cfgServed m = true → s.dev.power.boot ≠ 4 → s.dev.shackled = false →
    exec (.configWrite m f) s = .next { s with dev := s.dev.emit .retryStatus }) ∧
  (∀ (m : Nat) (s : State), m < 2 → s.dev.cfgServed m = true → s.dev.power.boot = 4 →
    exec (.configRead m 0) s = .next { s with dev := s.dev.emit (.configData 0x10007C3A) }) ∧
  (∀ (m : Nat) (on : Bool) (s : State), m < 2 → s.dev.cfgServed m = true → s.dev.power.boot = 4 → ∃ t,
    exec (.configWrite m (.msixEnable on)) s = .next t ∧ t.dev.link m = { s.dev.link m with msixEn := on } ∧ keepsRest [linkPart m] s t) ∧
  (∀ (m n : Nat) (s : State), m < 2 → s.dev.cfgServed m = true → s.dev.power.boot = 4 → ∃ t,
    exec (.configWrite m (.maxPayload n)) s = .next t ∧ t.dev.link m = { s.dev.link m with mps := min 512 (max 128 n) } ∧
    keepsRest [linkPart m] s t) ∧
  (∀ (m reg : Nat) (v : Word) (s : State), m < 2 → s.dev.cfgServed m = true → s.dev.power.boot = 4 → reg ≠ 0 → ∃ t u,
    exec (.configWrite m (.other reg v)) s = .next t ∧ keepsRest [linkPart m] s t ∧ exec (.configRead m reg) t = .next u ∧
    u.dev.out = t.dev.out ++ [.configData v])

/-- LVT_INDEX_WRITE, LVT_COMMIT and LVT_MASK_WRITE (R53, R57): the index loads the staging registers with the entry; COMMIT writes the staged address
and data to the entry; unmasking an entry whose message is pending sends it once and clears the pending bit. -/
def Obligations.LeafVectorTableWrites : Prop :=
  (∀ (v : Word) (s : State), hostOpen s → ∃ t, exec (.lvtIndexWrite v) s = .next t ∧ t.dev.ul.index = v.toNat % 2 ^ 14 ∧
    t.dev.ul.data = (s.dev.vec (v.toNat % 2 ^ 14)).data ∧ t.dev.ul.addrLo = (s.dev.vec (v.toNat % 2 ^ 14)).addr % 2 ^ 32 ∧
    t.dev.ul.addrHi = (s.dev.vec (v.toNat % 2 ^ 14)).addr / 2 ^ 32 % 2 ^ 32 ∧
    t.dev.ul.lvt = s.dev.ul.lvt ∧ t.dev.ul.msix = s.dev.ul.msix ∧ keepsRest [.ul] s t) ∧
  (∀ (v : Word) (s : State), hostOpen s → bitOf v.toNat 2 = true → bitOf v.toNat 0 = true → ∃ t, exec (.lvtCommit v) s = .next t ∧
    (t.dev.vec s.dev.ul.index).addr = s.dev.ul.addrLo / 4 * 4 + 2 ^ 32 * s.dev.ul.addrHi ∧ (t.dev.vec s.dev.ul.index).data = s.dev.ul.data ∧
    (t.dev.vec s.dev.ul.index).mask = true ∧ (∀ i, i ≠ s.dev.ul.index → t.dev.vec i = s.dev.vec i) ∧ keepsRest [.ul] s t) ∧
  (∀ (v : Word) (s : State), hostOpen s → bitOf v.toNat 2 = false → bitOf v.toNat 0 = false → (s.dev.vec s.dev.ul.index).pend = true →
    s.dev.linkUp (s.dev.leaf (s.dev.ul.index / 4)).module = true → ∃ t, exec (.lvtMaskWrite v) s = .next t ∧
    (t.dev.vec s.dev.ul.index).mask = false ∧ (t.dev.vec s.dev.ul.index).pend = false ∧
    t.dev.out = s.dev.out ++ [.msix (s.dev.leaf (s.dev.ul.index / 4)).module s.dev.ul.index (s.dev.vec s.dev.ul.index).addr
      (s.dev.vec s.dev.ul.index).data] ∧ (∀ i, i ≠ s.dev.ul.index → t.dev.vec i = s.dev.vec i) ∧ keepsRest [.ul, .out] s t) ∧
  (∀ (v : Word) (s : State), hostOpen s → bitOf v.toNat 2 = false → bitOf v.toNat 0 = true → ∃ t, exec (.lvtMaskWrite v) s = .next t ∧
    t.dev.vec s.dev.ul.index = { s.dev.vec s.dev.ul.index with mask := true } ∧ t.dev.out = s.dev.out ∧ keepsRest [.ul] s t) ∧
  (∀ (v : Word) (s : State), hostOpen s → bitOf v.toNat 2 = false → bitOf v.toNat 0 = false → (s.dev.vec s.dev.ul.index).pend = false → ∃ t,
    exec (.lvtMaskWrite v) s = .next t ∧ t.dev.vec s.dev.ul.index = { s.dev.vec s.dev.ul.index with mask := false } ∧ keepsRest [.ul] s t) ∧
  (∀ (v : Word) (s : State), hostOpen s → bitOf v.toNat 2 = false → bitOf v.toNat 0 = false → (s.dev.vec s.dev.ul.index).pend = true →
    s.dev.linkUp (s.dev.leaf (s.dev.ul.index / 4)).module = false → ∃ t, exec (.lvtMaskWrite v) s = .next t ∧
    (t.dev.vec s.dev.ul.index).mask = false ∧ (t.dev.vec s.dev.ul.index).wait = true ∧ keepsRest [.ul] s t)

/-! ### Registers, debug windows and leaf windows -/

/-- REGISTER_WRITE (R16, R18, R20, R24, R27, R43, R44, R360): during a retrain the access stalls, without its link it is not served, source 1232 for an access that is not one
aligned word with all its byte enables, a written RW register, nothing at a reserved page, in a block held in BLOCK reset or in the shackle state, a
cleared W1C bit, and a locked field kept with its lock source. -/
def Obligations.RegisterWritesFollowTheirAccessCode : Prop :=
  (∀ (off : Nat) (acc : Access) (v : Word) (s : State), s.dev.serves 0 = false → s.dev.link0.state ≠ .retrain →
    exec (.registerWrite off acc v) s = .next { s with dev := s.dev.emit .notServed }) ∧
  (∀ (off : Nat) (acc : Access) (v : Word) (s : State), s.dev.serves 0 = false → s.dev.link0.state = .retrain →
    exec (.registerWrite off acc v) s = .next { s with dev := s.dev.emit .stalled }) ∧
  (∀ (off : Nat) (acc : Access) (v : Word) (s : State), s.dev.serves 0 = true → acc.size ≠ 4 ∨ acc.enables ≠ 15 ∨ off % 4 ≠ 0 →
    exec (.registerWrite off acc v) s = .next { s with dev := s.dev.raiseSrc 1232 }) ∧
  (∀ (v : Word) (s : State), hostOpen s →
    exec (.registerWrite 0x24 {} v) s = .next { s with dev := { s.dev with hg := { s.dev.hg with scratch := v.toNat } } }) ∧
  (∀ (off : Nat) (v : Word) (s : State), hostOpen s → off % 4 = 0 → 0x43 ≤ off / 65536 → off / 65536 < 0x80 → exec (.registerWrite off {} v) s = .next s) ∧
  (∀ (off : Nat) (v : Word) (s : State), hostOpen s → off % 4 = 0 → off / 65536 < 0x80 → s.dev.held off = true → exec (.registerWrite off {} v) s = .next s) ∧
  (∀ (v : Word) (s : State), s.dev.serves 0 = true → s.dev.shackled = true → exec (.registerWrite 0x24 {} v) s = .next s) ∧
  (∀ (v : Word) (s : State), hostOpen s → ∃ t, exec (.registerWrite 0x11200 {} v) s = .next t ∧
    (t.dev.leaf s.dev.hg.sel).causes = clearBits (s.dev.leaf s.dev.hg.sel).causes v.toNat ∧ keepsRest [.leaves] s t) ∧
  (∀ (v : Word) (s : State), hostOpen s → s.dev.held 0x20010 = false → s.dev.sc.lock = true → field v.toNat 4 4 ≠ s.dev.sc.gap → ∃ t,
    exec (.registerWrite 0x20010 {} v) s = .next t ∧ t.dev.sc = s.dev.sc ∧ raisedIn s t 1524 ∧ keepsRest [.fc] s t)

/-- The pair rows (R16, R21, R23, R25): a read of BEAT_LO returns the live low half and the read of BEAT_HI after it the high half of that moment,
whatever BEAT is by then; without a shadow the live half. A _LO write is staged, and a write of BEAT_HI changes nothing: the pair is read-only. An
access of a half that is not one aligned word is refused with source 1232, a read with Unsupported Request. -/
def Obligations.RegisterPairsReadOneMoment : Prop :=
  (∀ (s : State), hostOpen s → ∃ t, exec (.pairLoRead .hinge { off := 0x20000 }) s = .next t ∧ t.dev.out = s.dev.out ++ [.readData (s.dev.sc.beat % 2 ^ 32)] ∧
    keepsRest [.pairs, .out] s t ∧
    (∀ (u : State), hostOpen u → u.dev.pairs = t.dev.pairs → ∃ w, exec (.pairHiRead .hinge { off := 0x20004 }) u = .next w ∧
      w.dev.out = u.dev.out ++ [.readData (s.dev.sc.beat / 2 ^ 32 % 2 ^ 32)] ∧ (u.dev.pairs.shadow.sorted = true → noShadow w 0x20004) ∧
      keepsRest [.pairs, .out] u w)) ∧
  (∀ (s : State), hostOpen s → noShadow s 0x20004 →
    exec (.pairHiRead .hinge { off := 0x20004 }) s = .next { s with dev := s.dev.emit (.readData (s.dev.sc.beat / 2 ^ 32 % 2 ^ 32)) }) ∧
  (∀ (m l : Nat) (s : State), windowOpen s m l → ∃ t, exec (.pairLoRead (.leafWin m l) { off := 0x5040 }) s = .next t ∧
    t.dev.out = s.dev.out ++ [.readData (s.dev.sc.beat % 2 ^ 32)] ∧ keepsRest [.pairs, .out] s t) ∧
  (∀ (m l : Nat) (s : State), windowOpen s m l → noShadow s (2 ^ 27 + l * 65536 + 0x2010) →
    exec (.pairHiRead (.leafWin m l) { off := 0x2010 }) s = .next { s with dev := s.dev.emit (.readData (s.dev.leaf l).recLostQ) }) ∧
  (∀ (off : Nat) (v : Word) (s : State), hostOpen s → off % 4 = 0 → pairLo off = true → ∃ t, exec (.pairLoWrite { off := off } v) s = .next t ∧
    Map.get? t.dev.pairs.staged off = some v.toNat ∧ t.dev.pairs.shadow = s.dev.pairs.shadow ∧ keepsRest [.pairs] s t) ∧
  (∀ (v : Word) (s : State), hostOpen s → exec (.pairHiWrite { off := 0x20004 } v) s = .next s) ∧
  (∀ (off : Nat) (acc : Access) (s : State), s.dev.serves 0 = true → acc.size ≠ 4 ∨ acc.enables ≠ 15 ∨ off % 4 ≠ 0 →
    exec (.pairLoRead .hinge ⟨acc, off⟩) s = .next { s with dev := (s.dev.emit .notServed).raiseSrc 1232 } ∧
    exec (.pairHiRead .hinge ⟨acc, off⟩) s = .next { s with dev := (s.dev.emit .notServed).raiseSrc 1232 }) ∧
  (∀ (off : Nat) (acc : Access) (v : Word) (s : State), s.dev.serves 0 = true → acc.size ≠ 4 ∨ acc.enables ≠ 15 ∨ off % 4 ≠ 0 →
    exec (.pairLoWrite ⟨acc, off⟩ v) s = .next { s with dev := s.dev.raiseSrc 1232 } ∧
    exec (.pairHiWrite ⟨acc, off⟩ v) s = .next { s with dev := s.dev.raiseSrc 1232 })

/-- VAULT_WINDOW_READ and _WRITE, MICROTRACE_START and _READ, NS_RAW_DATA_READ (R30, R297, R300, R333, R404, R407): with its right each gives the vault
word as stored, writes it where the monitor reads it back, begins an empty capture, or reads the raw word at its position; without it a read returns 0,
a write does nothing, and the debug-access fault is raised. A trace read past the last entry returns 0. -/
def Obligations.DebugReadsNeedTheirRights : Prop :=
  (∀ (off : Nat) (s : State), hostOpen s → inVault off = true → off % 4 = 0 → noShadow s off → s.dev.right 0 = true →
    exec (.vaultWindowRead { off := off }) s = .next { s with dev := s.dev.emit (.readData
      (leNat ((List.range 4).map fun i => s.dev.vaultByte (s.dev.vaultAddr off + i)))) }) ∧
  (∀ (off : Nat) (s : State), hostOpen s → inVault off = true → off % 4 = 0 → noShadow s off → s.dev.right 0 = false → ∃ t,
    exec (.vaultWindowRead { off := off }) s = .next t ∧ t.dev.out.getLast? = some (.readData 0) ∧ deniedIn s t ∧ keepsRest [.hs, .fc, .ul, .out] s t) ∧
  (∀ (off : Nat) (v : Word) (s : State), hostOpen s → inVault off = true → off % 4 = 0 → s.dev.right 1 = true → s.dev.vault.wf = true →
    (∀ i < 4, s.dev.homedByte (s.dev.vaultAddr off + i) = none) → ∃ t, exec (.vaultWindowWrite { off := off } v) s = .next t ∧
    (∀ i < 4, t.dev.vaultByte (s.dev.vaultAddr off + i) = nth (leBytes v.toNat 4) i 0) ∧
    (∀ a, a < s.dev.vaultAddr off ∨ s.dev.vaultAddr off + 4 ≤ a → t.dev.vaultByte a = s.dev.vaultByte a) ∧ keepsRest [.vault] s t) ∧
  (∀ (off : Nat) (v : Word) (s : State), hostOpen s → inVault off = true → off % 4 = 0 → s.dev.right 1 = true →
    sharedBase ≤ s.dev.vaultAddr off → (∀ i < 4, (s.dev.slots.keyByte (s.dev.vaultAddr off + i - sharedBase)).isSome = true) → ∃ t,
    exec (.vaultWindowWrite { off := off } v) s = .next t ∧ (∀ i < 4, t.dev.vaultByte (s.dev.vaultAddr off + i) = nth (leBytes v.toNat 4) i 0) ∧
    keepsRest [.slots] s t) ∧
  (∀ (off : Nat) (v : Word) (s : State), hostOpen s → inVault off = true → off % 4 = 0 → s.dev.right 1 = true → ∃ t,
    exec (.vaultWindowWrite { off := off } v) s = .next t ∧ keepsRest [.vault, .leaves, .slots, .turns] s t) ∧
  (∀ (off : Nat) (v : Word) (s : State), hostOpen s → inVault off = true → off % 4 = 0 → s.dev.right 1 = false → ∃ t,
    exec (.vaultWindowWrite { off := off } v) s = .next t ∧ t.dev.vault = s.dev.vault ∧ deniedIn s t ∧ keepsRest [.hs, .fc, .ul, .out] s t) ∧
  (∀ (v : Word) (s : State), hostOpen s → s.dev.right 5 = true → bitOf v.toNat 31 = true → field v.toNat 0 8 < 0x32 → ∃ t,
    exec (.microtraceStart v) s = .next t ∧ t.dev.mc.traceEn = true ∧ t.dev.mc.trace = [] ∧ t.dev.mc.tracePos = 0 ∧
    t.dev.mc.traceSeq = field v.toNat 0 8 ∧ keepsRest [.mc] s t) ∧
  (∀ (v : Word) (s : State), hostOpen s → s.dev.right 5 = true → bitOf v.toNat 31 = false ∨ 0x32 ≤ field v.toNat 0 8 → ∃ t,
    exec (.microtraceStart v) s = .next t ∧ t.dev.mc.traceEn = false ∧ t.dev.mc.trace = s.dev.mc.trace ∧ keepsRest [.mc] s t) ∧
  (∀ (v : Word) (s : State), hostOpen s → s.dev.right 5 = false → ∃ t, exec (.microtraceStart v) s = .next t ∧ deniedIn s t ∧
    keepsRest [.hs, .fc, .ul, .out] s t) ∧
  (∀ (s : State), hostOpen s → noShadow s 0xC0064 → ∃ t v, exec .microtraceRead s = .next t ∧ t.dev.out = s.dev.out ++ [.readData v] ∧
    v = (nth s.dev.mc.trace s.dev.mc.tracePos (0, 0)).1 * 65536 + (nth s.dev.mc.trace s.dev.mc.tracePos (0, 0)).2 ∧
    (s.dev.mc.trace.length ≤ s.dev.mc.tracePos → v = 0) ∧ t.dev.mc = { s.dev.mc with tracePos := (s.dev.mc.tracePos + 1) % 4096 } ∧
    keepsRest [.mc, .out] s t) ∧
  (∀ (s : State), hostOpen s → .entropy ∉ s.dev.fc.resets → s.dev.rawAllowed = true → ∃ t, exec .nsRawDataRead s = .next t ∧
    t.dev.out = s.dev.out ++ [.readData s.dev.ns.rawData] ∧ t.dev.ns = { s.dev.ns with rawAddr := (s.dev.ns.rawAddr + 1) % 2 ^ 18 } ∧
    keepsRest [.ns, .out] s t) ∧
  (∀ (s : State), hostOpen s → .entropy ∉ s.dev.fc.resets → s.dev.rawAllowed = false → ∃ t, exec .nsRawDataRead s = .next t ∧
    t.dev.out.getLast? = some (.readData 0) ∧ deniedIn s t ∧ keepsRest [.hs, .fc, .ul, .out] s t)

/-- ERROR_INJECT (R219, R255, R270, R280, R333): under FAULT_INJECT an injection of the kind is armed in its block; without the right the write of
INJECT is dropped with the debug-access fault. Kind 3 injects nothing in the bank, the block array and the digest cores. -/
def Obligations.ErrorInjectionNeedsItsRight : Prop :=
  (∀ (n : Nat) (v : Word) (s : State), hostOpen s → n < 32 → n < s.dev.tu.length → .tumbler n ∉ s.dev.fc.resets → s.dev.right 6 = true →
    bitOf v.toNat 8 = true → ∃ t, exec (.errorInject (.tumbler n) v) s = .next t ∧ (t.dev.tumbler n).armed = some (field v.toNat 4 2) ∧
    (t.dev.tumbler n).scrubEn = bitOf v.toNat 0 ∧ (∀ k, k ≠ n → t.dev.tumbler k = s.dev.tumbler k) ∧ keepsRest [.tu] s t) ∧
  (∀ (n : Nat) (v : Word) (s : State), hostOpen s → n < 16 → n < s.dev.bo.length → s.dev.held (injectOffset (.bolt n)) = false → s.dev.right 6 = true →
    bitOf v.toNat 8 = true → ∃ t, exec (.errorInject (.bolt n) v) s = .next t ∧ (t.dev.bolt n).armed = some (field v.toNat 4 2) ∧
    (∀ k, k ≠ n → t.dev.bolt k = s.dev.bolt k) ∧ keepsRest [.bo] s t) ∧
  (∀ (x : InjectTarget) (v : Word) (s : State), hostOpen s → s.dev.right 6 = true → bitOf v.toNat 8 = true → field v.toNat 4 2 ≠ 3 →
    s.dev.held (injectOffset x) = false → (x = .bank ∨ x = .blockArray ∨ x = .digest) → ∃ t, exec (.errorInject x v) s = .next t ∧
    (x = .bank → t.dev.bb.armed = some (field v.toNat 4 2)) ∧ (x = .blockArray → t.dev.bk.armed = some (field v.toNat 4 2)) ∧
    (x = .digest → t.dev.dg.armed = some (field v.toNat 4 2)) ∧ keepsRest [.bb, .bk, .dg] s t) ∧
  (∀ (x : InjectTarget) (v : Word) (s : State), hostOpen s → (∀ n, x = .tumbler n → n < 32) → (∀ n, x = .bolt n → n < 16) →
    s.dev.held (injectOffset x) = false → s.dev.right 6 = false → bitOf v.toNat 8 = true → ∃ t, exec (.errorInject x v) s = .next t ∧ deniedIn s t ∧
    (∀ k, (t.dev.tumbler k).armed = (s.dev.tumbler k).armed) ∧ (∀ k, (t.dev.bolt k).armed = (s.dev.bolt k).armed) ∧
    t.dev.bb.armed = s.dev.bb.armed ∧ t.dev.bk.armed = s.dev.bk.armed ∧ t.dev.dg.armed = s.dev.dg.armed ∧
    keepsRest [.tu, .bo, .bb, .bk, .dg, .hs, .fc, .ul, .out] s t)

/-- DOORBELL_WRITE and LF_STATUS_CLEAR (R18, R32, R34, R35, R40, R58, R69, R92): an enabled queue of an ACTIVE leaf takes SQ_TAIL and CQ_HEAD, a pointer
past its ring or a disabled queue stops it with Q_ERR, a quiesced leaf latches the doorbell, a stray access raises source 1233, and W1C bits clear. -/
def Obligations.LeafWindowWrites : Prop :=
  (∀ (m l q size : Nat) (v : DWord) (s : State), windowOpen s m l → q < 64 → size = 4 ∨ size = 8 → (s.dev.leaf l).state = .active →
    (s.dev.leaf l).resetting = false → ((s.dev.leaf l).queue q).en = true → ((s.dev.leaf l).queue q).stopped = false →
    v.toNat % 2 ^ 16 < 2 ^ ((s.dev.leaf l).queue q).sqLog → v.toNat / 2 ^ 16 % 2 ^ 16 < 2 ^ ((s.dev.leaf l).queue q).cqLog → ∃ t,
    exec (.doorbellWrite m l (8 * q) size v) s = .next t ∧
    (t.dev.leaf l).queue q = { (s.dev.leaf l).queue q with sqTail := v.toNat % 2 ^ 16, cqHead := v.toNat / 2 ^ 16 % 2 ^ 16 } ∧
    (t.dev.leaf l).state = .active ∧ keepsRest [.leaves, .sc] s t) ∧
  (∀ (m l q size : Nat) (v : DWord) (s : State), windowOpen s m l → q < 64 → size = 4 ∨ size = 8 → (s.dev.leaf l).state = .active →
    (s.dev.leaf l).resetting = false →
    ((s.dev.leaf l).queue q).en = false ∨ 2 ^ ((s.dev.leaf l).queue q).sqLog ≤ v.toNat % 2 ^ 16 ∨
      2 ^ ((s.dev.leaf l).queue q).cqLog ≤ v.toNat / 2 ^ 16 % 2 ^ 16 → ∃ t,
    exec (.doorbellWrite m l (8 * q) size v) s = .next t ∧ (t.dev.leaf l).queue q = { (s.dev.leaf l).queue q with stopped := true } ∧
    (t.dev.leaf l).status = (s.dev.leaf l).status ||| 0x2 ∧ (t.dev.leaf l).causes = (s.dev.leaf l).causes ||| 0x40 ∧
    keepsRest [.leaves, .ul, .out] s t) ∧
  (∀ (m l q size : Nat) (v : DWord) (s : State), windowOpen s m l → q < 64 → size = 4 ∨ size = 8 →
    (s.dev.leaf l).state = .quiescing ∨ (s.dev.leaf l).state = .quiesced → (s.dev.leaf l).resetting = false → ∃ t,
    exec (.doorbellWrite m l (8 * q) size v) s = .next t ∧ Map.get? (t.dev.leaf l).latched q = some (v.toNat % 2 ^ 32) ∧
    (t.dev.leaf l).queues = (s.dev.leaf l).queues ∧ keepsRest [.leaves] s t) ∧
  (∀ (m l off size : Nat) (v : DWord) (s : State), m < 2 → s.dev.serves m = true → s.dev.leafHit m l = false →
    exec (.doorbellWrite m l off size v) s = .next { s with dev := s.dev.raiseSrc 1233 }) ∧
  (∀ (m l off size : Nat) (v : DWord) (s : State), windowOpen s m l → leafWriteOk off size = false → ∃ t,
    exec (.doorbellWrite m l off size v) s = .next t ∧ (t.dev.leaf l).status = (s.dev.leaf l).status ||| 1 ∧ keepsRest [.leaves, .ul, .out] s t) ∧
  (∀ (m l : Nat) (v : Word) (s : State), windowOpen s m l → ∃ t, exec (.lfStatusClear m l v) s = .next t ∧
    (t.dev.leaf l).status = clearBits (s.dev.leaf l).status (v.toNat &&& 0x17) ∧ keepsRest [.leaves] s t)

/-- RANDOM_WINDOW_READ and RANDOM_READ_RELEASE (R32, R33, R289 to R291): while NOT_READY is 1 zeros; else the first bytes of the line in the module's
prefetch register, which takes the next window line, or the read is held until a line comes and completes in order; every line is counted and served
once. A read that R32 does not accept returns 0 with ACC_ERR; a word read from 0x2000 on is that of the register. -/
def Obligations.RandomWindowServesEachLineOnce : Prop :=
  (∀ (m l off size : Nat) (s : State), windowOpen s m l → randomOk off (fullAccess size) = true → s.dev.heldFull m = false → s.dev.ns.notReady = true →
    exec (.randomWindowRead m l off size) s = .next { s with dev := s.dev.emit (.readData 0) }) ∧
  (∀ (m l off size : Nat) (line : Bytes) (s : State), windowOpen s m l → randomOk off (fullAccess size) = true → s.dev.heldFull m = false →
    s.dev.ns.notReady = false → noneHeld s m → s.dev.ns.pre m = some line → ∃ t, exec (.randomWindowRead m l off size) s = .next t ∧
    t.dev.out = s.dev.out ++ [.readData (leNat (line.take size))] ∧ lineServed s.dev.ns t.dev.ns m ∧ keepsRest [.ns, .out] s t) ∧
  (∀ (m l off size : Nat) (s : State), windowOpen s m l → randomOk off (fullAccess size) = true → s.dev.heldFull m = false → s.dev.ns.notReady = false →
    ¬ noneHeld s m ∨ s.dev.ns.pre m = none → ∃ t, exec (.randomWindowRead m l off size) s = .next t ∧
    t.dev.ns = { s.dev.ns with held := s.dev.ns.held ++ [(m, l, size)] } ∧ keepsRest [.ns] s t) ∧
  (∀ (m l off size : Nat) (s : State), windowOpen s m l → randomOk off (fullAccess size) = false → leafWordOk off (fullAccess size) = false → ∃ t,
    exec (.randomWindowRead m l off size) s = .next t ∧ (t.dev.leaf l).status = (s.dev.leaf l).status ||| 1 ∧ .readData 0 ∈ t.dev.out ∧
    keepsRest [.leaves, .ul, .out] s t) ∧
  (∀ (m l off : Nat) (s : State), windowOpen s m l → leafWordOk off {} = true → ∃ t,
    exec (.randomWindowRead m l off 4) s = .next t ∧ exec (.pairLoRead (.leafWin m l) { off := off }) s = .next t ∧
    t.dev.out = s.dev.out ++ [.readData (s.dev.leafRead l off).1] ∧ keepsRest [.pairs, .out] s t) ∧
  (∀ (m l size : Nat) (line : Bytes) (s : State), m < 2 → s.dev.ns.held.find? (fun h => h.1 == m) = some (m, l, size) → s.dev.ns.notReady = false →
    0 < size → s.dev.ns.pre m = some line → ∃ t, exec (.randomReadRelease m) s = .next t ∧
    t.dev.out = s.dev.out ++ [.readData (leNat (line.take size))] ∧
    lineServed { s.dev.ns with held := s.dev.ns.held.erase (m, l, size) } t.dev.ns m ∧ keepsRest [.ns, .out] s t) ∧
  (∀ (m l size : Nat) (s : State), s.dev.ns.held.find? (fun h => h.1 == m) = some (m, l, size) → s.dev.ns.notReady = true → ∃ t,
    exec (.randomReadRelease m) s = .next t ∧ t.dev.out = s.dev.out ++ [.readData 0] ∧
    t.dev.ns = { s.dev.ns with held := s.dev.ns.held.erase (m, l, size) } ∧ keepsRest [.ns, .out] s t)

/-! ### DMA -/

/-- DMA_READ_COMPLETE, DMA_READ_ERROR and DMA_COMPLETION_TIMEOUT (R48, R49, R56, R57, R96, R138, R233): the data of a LOAD goes to its cell and the
program goes on; a part of a longer read is kept; a slice that comes short or out of order ends its turn with ENGINE_FAULT and source 24n + 19; data for a requester that has ended is discarded; a short read, an error or a timeout ends the turn with
DMA_FAULT, and the last two set their UL_DMA_EVT bit, count and raise the module's source. -/
def Obligations.DmaReadsReachTheirTurnOrEndIt : Prop :=
  (∀ (m tag off slot : Nat) (data : Bytes) (r : DmaRead) (x : Turn) (z : ZInstr) (s : State), m < 2 → s.dev.linkUp m = true →
    (s.dev.dma m).issuedRead tag = some r → r.why = .load slot off → data.length = r.len → Map.get? s.dev.turns slot = some x → x.awaiting = 1 →
    x.phase = .waitDma → x.due = none → x.prog[x.pc]? = some z → storeQuiet s x → ∃ t, exec (.dmaReadComplete m tag data) s = .next t ∧
    Map.get? t.dev.turns slot = some { ({ (x.gotPart off data).write z.dst (x.gotPart off data).joined with parts := [] } : Turn).next with last := St.done } ∧
    (∀ y ∈ (t.dev.dma m).reads, y.tag ≠ tag) ∧ keepsRest [dmaPart m, .turns, .out] s t) ∧
  (∀ (m tag off slot : Nat) (data : Bytes) (r : DmaRead) (x : Turn) (s : State), m < 2 → s.dev.linkUp m = true →
    (s.dev.dma m).issuedRead tag = some r → r.why = .load slot off ∨ r.why = .prog slot off → data.length = r.len →
    Map.get? s.dev.turns slot = some x → 2 ≤ x.awaiting → ∃ t, exec (.dmaReadComplete m tag data) s = .next t ∧
    Map.get? t.dev.turns slot = some (x.gotPart off data) ∧ keepsRest [dmaPart m, .turns, .out] s t) ∧
  (∀ (m tag off slot : Nat) (data : Bytes) (r : DmaRead) (x : Turn) (s : State), m < 2 → s.dev.linkUp m = true →
    (s.dev.dma m).issuedRead tag = some r → r.why = .slice slot off → data.length = r.len → Map.get? s.dev.turns slot = some x →
    prefixLen x.parts 0 = off → ∃ t, exec (.dmaReadComplete m tag data) s = .next t ∧
    Map.get? t.dev.turns slot = some (x.gotPart off data) ∧ keepsRest [dmaPart m, .turns, .out] s t) ∧
  (∀ (m tag off slot n : Nat) (data : Bytes) (r : DmaRead) (x : Turn) (s : State), m < 2 → s.dev.linkUp m = true →
    (s.dev.dma m).issuedRead tag = some r → r.why = .slice slot off → Map.get? s.dev.turns slot = some x → x.ending = none → x.home = some n →
    data.length < r.len ∨ (data.length = r.len ∧ prefixLen x.parts 0 ≠ off) → ∃ t, exec (.dmaReadComplete m tag data) s = .next t ∧
    Map.get? t.dev.turns slot = some (x.setDue St.engineFault) ∧ raisedIn s t (24 * n + 19) ∧
    keepsRest [dmaPart m, .turns, .tu, .fc, .out] s t) ∧
  (∀ (m tag : Nat) (data : Bytes) (r : DmaRead) (s : State), m < 2 → s.dev.linkUp m = true → (s.dev.dma m).issuedRead tag = some r →
    r.why = .dropped → ∃ t, exec (.dmaReadComplete m tag data) s = .next t ∧ (∀ y ∈ (t.dev.dma m).reads, y.tag ≠ tag) ∧
    keepsRest [dmaPart m, .out] s t) ∧
  (∀ (m tag off slot : Nat) (data : Bytes) (r : DmaRead) (x : Turn) (s : State), m < 2 → s.dev.linkUp m = true →
    (s.dev.dma m).issuedRead tag = some r → r.why = .load slot off ∨ r.why = .prog slot off → data.length ≠ r.len →
    Map.get? s.dev.turns slot = some x → ∃ t, exec (.dmaReadComplete m tag data) s = .next t ∧
    Map.get? t.dev.turns slot = some (x.setDue St.dmaFault) ∧ keepsRest [dmaPart m, .turns, .out] s t) ∧
  (∀ (m tag off slot bit : Nat) (kind : ReadError) (r : DmaRead) (x : Turn) (s : State), m < 2 → s.dev.linkUp m = true →
    (s.dev.dma m).issuedRead tag = some r → r.why = .load slot off ∨ r.why = .prog slot off → Map.get? s.dev.turns slot = some x →
    (kind = .ur ∧ bit = 0) ∨ (kind = .ca ∧ bit = 1) ∨ (kind = .poison ∧ bit = 3) → ∃ t, exec (.dmaReadError m tag kind) s = .next t ∧
    Map.get? t.dev.turns slot = some (x.setDue St.dmaFault) ∧ (t.dev.dma m).evt = (s.dev.dma m).evt ||| 2 ^ bit ∧
    (t.dev.dma m).errcnt = min ((s.dev.dma m).errcnt + 1) 65535 ∧ raisedIn s t (1216 + 8 * m + bit) ∧
    keepsRest [dmaPart m, .turns, .fc, .ul, .out] s t) ∧
  (∀ (m tag off slot : Nat) (r : DmaRead) (x : Turn) (s : State), m < 2 →
    ((s.dev.dma m).reads.find? fun r => r.tag == tag && r.timed) = some r → r.why = .load slot off ∨ r.why = .prog slot off →
    Map.get? s.dev.turns slot = some x → ∃ t, exec (.dmaCompletionTimeout m tag) s = .next t ∧
    Map.get? t.dev.turns slot = some (x.setDue St.dmaFault) ∧ (t.dev.dma m).evt = (s.dev.dma m).evt ||| 4 ∧
    (t.dev.dma m).errcnt = min ((s.dev.dma m).errcnt + 1) 65535 ∧ raisedIn s t (1216 + 8 * m + 2) ∧
    keepsRest [dmaPart m, .turns, .fc, .ul, .out] s t)

/-- DMA_WRITE_HANDED and DMA_WRITE_FAIL (R72, R113, R459): the oldest queued write goes out and then, behind a turn record, the queue's message; one that
the link does not take is dropped with WR_FAIL, the count and its source, and a lost record sets RECORD_LOST with the queue number. -/
def Obligations.DmaWritesGoOutInOrder : Prop :=
  (∀ (m slot : Nat) (w : DmaWrite) (rest : List DmaWrite) (x : Turn) (s : State), m < 2 → s.dev.linkUp m = true → (s.dev.dma m).writes = w :: rest →
    w.why = .result slot → Map.get? s.dev.turns slot = some x → x.ending = none → ∃ t, exec (.dmaWriteHanded m) s = .next t ∧
    t.dev.out = s.dev.out ++ [.dmaWrite m w.pasid w.addr w.data] ∧ (t.dev.dma m).writes = rest ∧
    Map.get? t.dev.turns slot = some { x with pendingW := x.pendingW - 1, stored := (x.stored + w.data.length) % 2 ^ 32 } ∧
    keepsRest [dmaPart m, .turns, .out] s t) ∧
  (∀ (m slot : Nat) (w : DmaWrite) (rest : List DmaWrite) (x : Turn) (s : State), m < 2 → s.dev.linkUp m = true → (s.dev.dma m).writes = w :: rest →
    w.why = .record slot → s.dev.turns = [(slot, x)] → (s.dev.leaf x.leaf).module = m → s.dev.hg.cmd.job = none →
    (s.dev.vec (x.leaf * 4 + ((s.dev.leaf x.leaf).queue x.queue).vector)).mask = false → ∃ t, exec (.dmaWriteHanded m) s = .next t ∧
    t.dev.out = s.dev.out ++ [.dmaWrite m w.pasid w.addr w.data, .msix m (x.leaf * 4 + ((s.dev.leaf x.leaf).queue x.queue).vector)
      (s.dev.vec (x.leaf * 4 + ((s.dev.leaf x.leaf).queue x.queue).vector)).addr
      (s.dev.vec (x.leaf * 4 + ((s.dev.leaf x.leaf).queue x.queue).vector)).data] ∧
    t.dev.turns = [] ∧ (t.dev.dma m).writes = rest ∧ keepsRest [dmaPart m, .turns, .sc, .out] s t) ∧
  (∀ (m slot : Nat) (w : DmaWrite) (rest : List DmaWrite) (x : Turn) (s : State), m < 2 → (s.dev.dma m).writes = w :: rest →
    w.why = .record slot → s.dev.turns = [(slot, x)] → s.dev.hg.cmd.job = none → ∃ t, exec (.dmaWriteFail m) s = .next t ∧
    t.dev.turns = [] ∧ (t.dev.dma m).writes = rest ∧ (t.dev.dma m).evt = (s.dev.dma m).evt ||| 0x10 ∧
    (t.dev.dma m).errcnt = min ((s.dev.dma m).errcnt + 1) 65535 ∧ raisedIn s t (1216 + 8 * m + 5) ∧
    (t.dev.leaf x.leaf).status = (s.dev.leaf x.leaf).status ||| 0x10 ∧ (t.dev.leaf x.leaf).recLostQ = x.queue ∧
    (t.dev.leaf x.leaf).causes = (s.dev.leaf x.leaf).causes ||| 0x80 ∧ keepsRest [dmaPart m, .turns, .leaves, .sc, .fc, .ul, .out] s t)

/-! ### Command blocks -/

/-- R40, R43, R61, R360, R393: a command of the hinge, keyway or hasp block written while BUSY is 1 is dropped and sets OVERRUN; during a retrain the
write stalls, without a served link it is not served, and in the shackle state, or while the boot ROM serves, it does nothing. Opcodes that the tables do not list end with
BAD_ARGUMENT and change nothing else (R62, R315, R336, R400). -/
def Obligations.BusyBlocksDropCommands : Prop :=
  (∀ e ∈ blockCommands,
    (∀ (s : State), hostOpen s → ¬ unitIdle s e.1 → exec e.2 s = .next { s with dev := s.dev.onUnit e.1 fun u => { u with overrun := true } }) ∧
    (∀ (s : State), s.dev.serves 0 = false → s.dev.link0.state ≠ .retrain → exec e.2 s = .next { s with dev := s.dev.emit .notServed }) ∧
    (∀ (s : State), s.dev.serves 0 = false → s.dev.link0.state = .retrain → exec e.2 s = .next { s with dev := s.dev.emit .stalled }) ∧
    (∀ (s : State), s.dev.serves 0 = true → s.dev.shackled = true ∨ s.dev.mc.romOnly = true → exec e.2 s = .next s)) ∧
  (∀ (b : Byte) (s : State), mayCommand s .hinge → exec (.hingeUnknownOpcode b) s = .next (refusedWith s .hinge St.badArgument)) ∧
  (∀ (b : Byte) (s : State), mayCommand s .keyway → exec (.kwUnknownOpcode b) s = .next (refusedWith s .keyway St.badArgument)) ∧
  (∀ (b : Byte) (s : State), mayCommand s .hasp → exec (.hsUnknownOpcode b) s = .next (refusedWith s .hasp St.badArgument)) ∧
  (∀ (b : Byte) (s : State), hostOpen s → ∃ t, exec (.miUnknownOpcode b) s = .next t ∧
    t.dev.mi = { s.dev.mi with cmd := { s.dev.mi.cmd with status := St.badArgument.toNat, res := 0 } } ∧ keepsRest [.mi] s t)

/-- The leaf commands that end at once (R54, R58, R62, R68, R73, R82, R91): QCONFIG, RESET, QUIESCE, RESUME, REBIND and DLOG_SET do their work on the
selected leaf and end with DONE; each ends with LEAF_STATE, and does nothing else, on a FREE leaf. -/
def Obligations.LeafCommandsActOnTheSelectedLeaf : Prop :=
  (∀ c ∈ [Instr.hgQconfig, .hgReset, .hgDestroy, .hgQuiesce, .hgResume, .hgRebind, .hgDlogSet, .hgDlogHarvest, .hgDlogStop], ∀ (s : State),
    mayCommand s .hinge → (s.dev.leaf s.dev.hg.sel).state = .free → exec c s = .next (refusedWith s .hinge St.leafState)) ∧
  (∀ (s : State), mayCommand s .hinge → (s.dev.leaf s.dev.hg.sel).state = .active ∨ (s.dev.leaf s.dev.hg.sel).state = .quiesced →
    s.dev.arg .hinge 0 < 64 → s.dev.queueTurns s.dev.hg.sel (s.dev.arg .hinge 0) = [] → s.dev.arg64 .hinge 1 % 4096 = 0 →
    s.dev.arg64 .hinge 3 % 4096 = 0 → field (s.dev.arg .hinge 5) 28 3 = 0 → field (s.dev.arg .hinge 5) 22 2 = 0 →
    field (s.dev.arg .hinge 5) 12 8 = 0 → field (s.dev.arg .hinge 5) 4 4 = 0 → 4 ≤ field (s.dev.arg .hinge 5) 8 4 →
    4 ≤ field (s.dev.arg .hinge 5) 0 4 → ∃ t, exec .hgQconfig s = .next t ∧ endedWith t .hinge St.done ∧
    (t.dev.leaf s.dev.hg.sel).queue (s.dev.arg .hinge 0) = {
      sqBase := s.dev.arg64 .hinge 1, cqBase := s.dev.arg64 .hinge 3, en := bitOf (s.dev.arg .hinge 5) 31,
      floor := field (s.dev.arg .hinge 5) 24 4, vector := field (s.dev.arg .hinge 5) 20 2,
      sqLog := field (s.dev.arg .hinge 5) 8 4, cqLog := field (s.dev.arg .hinge 5) 0 4 } ∧ keepsRest [.hg, .leaves] s t) ∧
  (∀ (s : State), mayCommand s .hinge → (s.dev.leaf s.dev.hg.sel).state = .active ∨ (s.dev.leaf s.dev.hg.sel).state = .quiescing ∨
    (s.dev.leaf s.dev.hg.sel).state = .quiesced → ∃ t, exec .hgReset s = .next t ∧ endedWith t .hinge St.done ∧
    t.dev.leaf s.dev.hg.sel = { s.dev.leaf s.dev.hg.sel with resetting := true, latched := [] } ∧
    (∀ slot x, Map.get? s.dev.turns slot = some x → x.leaf = s.dev.hg.sel → Map.get? t.dev.turns slot = some { x with resetDue := true }) ∧
    (∀ slot x, Map.get? s.dev.turns slot = some x → x.leaf ≠ s.dev.hg.sel → Map.get? t.dev.turns slot = some x) ∧
    keepsRest [.hg, .leaves, .turns] s t) ∧
  (∀ (s : State), mayCommand s .hinge → (s.dev.leaf s.dev.hg.sel).state = .active → s.dev.arg .hinge 0 = 0 → 0 < s.dev.arg .hinge 1 →
    s.dev.arg .hinge 1 < 2 ^ 24 → ∃ t, exec .hgQuiesce s = .next t ∧ endedWith t .hinge St.done ∧
    (t.dev.leaf s.dev.hg.sel).state = .quiescing ∧ (t.dev.leaf s.dev.hg.sel).deadline = some ((s.dev.sc.beat + s.dev.arg .hinge 1) % 2 ^ 48) ∧
    keepsRest [.hg, .leaves, .turns, .slots, .vault, .dma0, .dma1, .ul, .out, .dirty] s t) ∧
  (∀ (s : State), mayCommand s .hinge → (s.dev.leaf s.dev.hg.sel).state = .quiesced → ∃ t, exec .hgResume s = .next t ∧ endedWith t .hinge St.done ∧
    (t.dev.leaf s.dev.hg.sel).state = .active ∧ (t.dev.leaf s.dev.hg.sel).latched = [] ∧ keepsRest [.hg, .leaves, .sc, .ul, .out] s t) ∧
  (∀ (s : State), mayCommand s .hinge → (s.dev.leaf s.dev.hg.sel).state = .quiesced → s.dev.bindingOk (s.dev.arg .hinge 2) = true → ∃ t,
    exec .hgRebind s = .next t ∧ endedWith t .hinge St.done ∧ t.dev.leaf s.dev.hg.sel = (s.dev.leaf s.dev.hg.sel).bind (s.dev.arg .hinge 2) ∧
    ((∀ v < 4, (s.dev.vec (4 * s.dev.hg.sel + v)).wait = false) → keepsRest [.hg, .leaves] s t) ∧ keepsRest [.hg, .leaves, .ul, .out] s t) ∧
  (∀ (s : State), mayCommand s .hinge → (s.dev.leaf s.dev.hg.sel).state = .active ∨ (s.dev.leaf s.dev.hg.sel).state = .quiesced →
    s.dev.arg64 .hinge 0 % 4096 = 0 → s.dev.arg64 .hinge 2 % 4096 = 0 → s.dev.arg64 .hinge 4 % 4096 = 0 → s.dev.arg .hinge 6 % 64 = 0 →
    0 < s.dev.arg .hinge 6 → s.dev.arg .hinge 6 ≤ 2 ^ 26 → ∃ t, exec .hgDlogSet s = .next t ∧ endedWith t .hinge St.done ∧
    (t.dev.leaf s.dev.hg.sel).dlog.en = true ∧ (t.dev.leaf s.dev.hg.sel).dlog.bufB = false ∧
    (t.dev.leaf s.dev.hg.sel).dlog.a = s.dev.arg64 .hinge 0 ∧ (t.dev.leaf s.dev.hg.sel).dlog.b = s.dev.arg64 .hinge 2 ∧
    (t.dev.leaf s.dev.hg.sel).dlog.base = s.dev.arg64 .hinge 4 ∧ (t.dev.leaf s.dev.hg.sel).dlog.pages = s.dev.arg .hinge 6 ∧
    keepsRest [.hg, .leaves] s t)

/-- DLOG_HARVEST and DLOG_STOP (R84): with no update pending a harvest switches the bitmap, sets DLOG_SWAPPED and ends, and a stop ends; with updates
pending both stay busy (log entry 29). RESET_DONE, QUIESCE_DEADLINE, QUIESCE_COMPLETE and HINGE_WORK_RESTART (R65, R73, R74, R91): with the leaf's last turn gone a
reset zeroes its pointers and a quiesce ends QUIESCED; at its deadline the remaining turns are aborted; hinge work that lost its engine starts again. -/
def Obligations.LeafWorkFinishes : Prop :=
  (∀ (s : State), mayCommand s .hinge → (s.dev.leaf s.dev.hg.sel).state = .active → (s.dev.leaf s.dev.hg.sel).dlog.en = true →
    (s.dev.leaf s.dev.hg.sel).dlog.upd = [] → ∃ t, exec .hgDlogHarvest s = .next t ∧ endedWith t .hinge St.done ∧
    (t.dev.leaf s.dev.hg.sel).dlog.bufB = !(s.dev.leaf s.dev.hg.sel).dlog.bufB ∧ (t.dev.leaf s.dev.hg.sel).dlog.harvest = false ∧
    (t.dev.leaf s.dev.hg.sel).causes = (s.dev.leaf s.dev.hg.sel).causes ||| 2 ∧ keepsRest [.hg, .leaves, .ul, .out] s t) ∧
  (∀ (s : State), mayCommand s .hinge → (s.dev.leaf s.dev.hg.sel).state = .active → (s.dev.leaf s.dev.hg.sel).dlog.en = true →
    (s.dev.leaf s.dev.hg.sel).dlog.upd ≠ [] → ∃ t, exec .hgDlogHarvest s = .next t ∧ t.dev.hg.cmd.job = some { op := 9, leaf := s.dev.hg.sel } ∧
    (t.dev.leaf s.dev.hg.sel).dlog.harvest = true ∧ (t.dev.leaf s.dev.hg.sel).dlog.bufB = !(s.dev.leaf s.dev.hg.sel).dlog.bufB ∧
    keepsRest [.hg, .leaves] s t) ∧
  (∀ (s : State), mayCommand s .hinge → (s.dev.leaf s.dev.hg.sel).state ≠ .free → (s.dev.leaf s.dev.hg.sel).dlog.upd = [] → ∃ t,
    exec .hgDlogStop s = .next t ∧ endedWith t .hinge St.done ∧ (t.dev.leaf s.dev.hg.sel).dlog.en = false ∧ keepsRest [.hg, .leaves] s t) ∧
  (∀ (s : State), mayCommand s .hinge → (s.dev.leaf s.dev.hg.sel).state ≠ .free → (s.dev.leaf s.dev.hg.sel).dlog.upd ≠ [] → ∃ t,
    exec .hgDlogStop s = .next t ∧ t.dev.hg.cmd.job = some { op := 10, leaf := s.dev.hg.sel } ∧
    (t.dev.leaf s.dev.hg.sel).dlog.en = false ∧ keepsRest [.hg, .leaves] s t) ∧
  (∀ (l : Nat) (s : State), (s.dev.leaf l).resetting = true → (s.dev.leaf l).destroying = false → s.dev.turnsOf l = [] → ∃ t,
    exec (.resetDone l) s = .next t ∧
    (t.dev.leaf l).state = (if (s.dev.leaf l).state = .quiescing then .quiesced else (s.dev.leaf l).state) ∧
    (t.dev.leaf l).resetting = false ∧ (t.dev.leaf l).latched = [] ∧ (t.dev.leaf l).ctx = [] ∧
    (∀ q, ((t.dev.leaf l).queue q).sqHead = 0 ∧ ((t.dev.leaf l).queue q).sqTail = 0 ∧ ((t.dev.leaf l).queue q).cqHead = 0 ∧
      ((t.dev.leaf l).queue q).cqTail = 0 ∧ ((t.dev.leaf l).queue q).stopped = false) ∧
    (t.dev.leaf l).status = (s.dev.leaf l).status ||| 4 ∧ (t.dev.leaf l).meters = (s.dev.leaf l).meters ∧ (t.dev.leaf l).kw = (s.dev.leaf l).kw ∧
    (t.dev.leaf l).causes = (s.dev.leaf l).causes ||| (if (s.dev.leaf l).state = .quiescing then 0x11 else 0x10) ∧
    keepsRest [.leaves, .ul, .out] s t) ∧
  (∀ (l b : Nat) (s : State), (s.dev.leaf l).state = .quiescing → (s.dev.leaf l).deadline = some b → met s.dev.sc.beat b = true → ∃ t,
    exec (.quiesceDeadline l) s = .next t ∧ (t.dev.leaf l).deadline = none ∧ (t.dev.leaf l).state = .quiescing ∧
    (∀ slot x, Map.get? s.dev.turns slot = some x → x.leaf = l → x.ending = none →
      Map.get? t.dev.turns slot = some (x.setDue St.leafQuiesce)) ∧ keepsRest [.leaves, .turns] s t) ∧
  (∀ (l : Nat) (s : State), (s.dev.leaf l).state = .quiescing → (s.dev.leaf l).resetting = false → s.dev.turnsOf l = [] → ∃ t,
    exec (.quiesceComplete l) s = .next t ∧ (t.dev.leaf l).state = .quiesced ∧ (t.dev.leaf l).causes = (s.dev.leaf l).causes ||| 1 ∧
    keepsRest [.leaves, .ul, .out] s t) ∧
  (∀ (j : Job) (w : List Seg) (s : State), s.dev.hg.cmd.job = some j → j.failed = true → j.phase = .working w → j.op ≠ 12 →
    s.dev.workPossible j.plan = true → ∃ t, exec .hingeWorkRestart s = .next t ∧
    t.dev.hg.cmd.job = some (if j.unit.isSome = true
      then { j with phase := .working j.plan, unit := none, inStroke := none, pads := 0, micro := {}, failed := false }
      else { j with phase := .working j.plan, failed := false }) ∧ keepsRest [.hg, .kw, .hs, .mi, .fresh, .dirty] s t) ∧
  (∀ (j : Job) (w : List Seg) (s : State), s.dev.hg.cmd.job = some j → j.failed = true → j.phase = .working w → j.op ≠ 12 →
    s.dev.workPossible j.plan = false → ∃ t, exec .hingeWorkRestart s = .next t ∧ endedWith t .hinge St.engineReset ∧
    keepsRest [.hg, .kw, .hs, .mi, .fresh, .dirty] s t) ∧
  (∀ (j : Job) (w : List Seg) (s : State), s.dev.hg.cmd.job = some j → j.failed = true → j.phase = .working w → j.op = 12 →
    s.dev.ns.notReady = false → s.dev.hingeCanDraw 88 = true →
    s.dev.workPossible (certWork ++ [kemWork 4, boltWork 36 3 true]) = true → ∃ t k, exec .hingeWorkRestart s = .next t ∧
    t.dev.hg.cmd.job = some k ∧ k.phase = .working (certWork ++ [kemWork 4, boltWork 36 3 true]) ∧ k.failed = false ∧
    k.out = s.dev.ns.lineBytes 88 ∧ keepsRest [.hg, .kw, .hs, .mi, .ns, .fresh, .dirty] s t)

/-- CREATE, DESTROY, IMPORT_OPEN, EXPORT and IMPORT (R47, R60, R62 to R66, R76, R85 to R89): the first failed check ends them with its status; else they
read their input from the host, write a held blob again, queue the commit of the next generation, or reserve the leaf with a fresh nonce
of the internal region, for whose line IMPORT_OPEN waits. -/
def Obligations.LeafLifeCommandsBegin : Prop :=
  (∀ c ∈ [Instr.hgCreate, .hgImportOpen, .hgExport, .hgImport], ∀ (s : State), mayCommand s .hinge →
    (s.dev.lifeBusy = true → exec c s = .next (refusedWith s .hinge St.lifeBusy)) ∧
    (s.dev.lifeBusy = false → s.dev.kw.valid = false → exec c s = .next (refusedWith s .hinge St.stateForbidden))) ∧
  (∀ (l : Nat) (s : State), mayCommand s .hinge → s.dev.lifeBusy = false → s.dev.kw.valid = true → s.dev.pickFree = .ok l →
    s.dev.bindingOk (s.dev.arg .hinge 2) = true → ∃ t j, exec .hgCreate s = .next t ∧ t.dev.hg.cmd.job = some j ∧ j.op = 1 ∧ j.leaf = l ∧
    j.phase = .reading ∧ j.awaiting = 1 ∧ t.dev.hg.cmd.res = l ∧ readAsked t 0 none (s.dev.arg64 .hinge 0 % 2 ^ 64) 1624 (.job .hinge 0) ∧
    keepsRest [.hg, .dma0, .out] s t) ∧
  (∀ (l : Nat) (s : State), mayCommand s .hinge → s.dev.lifeBusy = false → s.dev.kw.valid = true → s.dev.pickFree = .ok l →
    s.dev.ns.notReady = false → s.dev.hingeCanDraw 16 = true → ∃ t, exec .hgImportOpen s = .next t ∧ endedWith t .hinge St.done ∧
    (t.dev.leaf l).state = .reserved ∧ (t.dev.leaf l).nonce = s.dev.ns.lineBytes 16 ∧ t.dev.hg.nonce.length = 4 ∧ t.dev.hg.cmd.res = l ∧
    keepsRest [.hg, .leaves, .ns, .ul] s t) ∧
  (∀ (l : Nat) (s : State), mayCommand s .hinge → s.dev.lifeBusy = false → s.dev.kw.valid = true → s.dev.pickFree = .ok l →
    s.dev.ns.notReady = false → s.dev.hingeCanDraw 16 = false → ∃ t, exec .hgImportOpen s = .next t ∧
    t.dev.hg.cmd.job = some { op := 11, leaf := l } ∧ keepsRest [.hg] s t) ∧
  (∀ (l : Nat) (s : State), mayCommand s .hinge → s.dev.lifeBusy = false → s.dev.kw.valid = true → s.dev.pickFree = .ok l →
    s.dev.ns.notReady = true → exec .hgImportOpen s = .next (refusedWith s .hinge St.entropyUnavailable)) ∧
  (∀ (s : State), mayCommand s .hinge → (s.dev.leaf s.dev.hg.sel).state = .reserved → ∃ t, exec .hgDestroy s = .next t ∧
    endedWith t .hinge St.done ∧ (t.dev.leaf s.dev.hg.sel).state = .free ∧
    (t.dev.leaf s.dev.hg.sel).meters = (s.dev.leaf s.dev.hg.sel).meters ∧
    (t.dev.leaf s.dev.hg.sel).causes = (s.dev.leaf s.dev.hg.sel).causes ||| 0x20 ∧ keepsRest [.hg, .leaves, .ul, .sc, .slots, .vault, .out] s t) ∧
  (∀ (s : State), mayCommand s .hinge → (s.dev.leaf s.dev.hg.sel).state ≠ .free → (s.dev.leaf s.dev.hg.sel).state ≠ .reserved → ∃ t,
    exec .hgDestroy s = .next t ∧ t.dev.hg.cmd.job = some { op := 4, leaf := s.dev.hg.sel, phase := .committing } ∧
    t.dev.nv.queue = s.dev.nv.queue ++ [Commit.mk (.leafGen s.dev.hg.sel (min (s.dev.gen s.dev.hg.sel + 1) (2 ^ 32 - 1)) false
      (s.dev.cut s.dev.hg.sel)) (.job .hinge)] ∧ keepsRest [.hg, .nv] s t) ∧
  (∀ (s : State), mayCommand s .hinge → s.dev.lifeBusy = false → s.dev.kw.valid = true → (s.dev.leaf s.dev.hg.sel).state = .quiesced →
    s.dev.arg .hinge 2 = 9051 → s.dev.arg .hinge 5 < 4096 → s.dev.ns.notReady = false → ∃ t j,
    exec .hgExport s = .next t ∧ t.dev.hg.cmd.job = some j ∧ j.op = 12 ∧ j.leaf = s.dev.hg.sel ∧ j.phase = .reading ∧ j.awaiting = 3 ∧
    readAsked t 0 none (s.dev.arg64 .hinge 0 % 2 ^ 64 + 8192) 859 (.job .hinge 8192) ∧ keepsRest [.hg, .dma0, .out] s t) ∧
  (∀ (b : Bytes) (s : State), mayCommand s .hinge → s.dev.lifeBusy = false → s.dev.kw.valid = true →
    (s.dev.leaf s.dev.hg.sel).state = .exported → Map.get? s.dev.hg.blobs s.dev.hg.sel = some b → ∃ t j, exec .hgExport s = .next t ∧
    t.dev.hg.cmd.job = some j ∧ j.phase = .writing ∧
    t.dev.dma0.writes.length = s.dev.dma0.writes.length + ceilDiv b.length (s.dev.payload 0) ∧ keepsRest [.hg, .dma0, .leaves, .ul, .out] s t) ∧
  (∀ (s : State), mayCommand s .hinge → s.dev.lifeBusy = false → s.dev.kw.valid = true → (s.dev.leaf s.dev.hg.sel).state = .reserved →
    s.dev.bindingOk (s.dev.arg .hinge 2) = true → ∃ t j, exec .hgImport s = .next t ∧ t.dev.hg.cmd.job = some j ∧ j.op = 13 ∧
    j.leaf = s.dev.hg.sel ∧ j.phase = .reading ∧ j.awaiting = 2 ∧
    readAsked t 0 none (s.dev.arg64 .hinge 0 % 2 ^ 64 + 4096) 4096 (.job .hinge 4096) ∧ keepsRest [.hg, .dma0, .out] s t)

/-- The keyway commands (R47, R285, R311, R313 to R315): the checks in their order; then IDGEN asks for root material, the others read their input or
write the certificate on module 0 without a PASID. The hasp commands (R323, R328 to R330, R333, R334): a certificate of the right length is read, one
of another length is refused with source 1493 and no right changed; DROP_RIGHTS clears every right; integrator keys are taken in Integrator only. -/
def Obligations.KeywayAndHaspCommandsBegin : Prop :=
  (∀ (s : State), mayCommand s .keyway → s.dev.hasp % 2 = 1 → exec .kwIdgen s = .next (refusedWith s .keyway St.lifeBusy)) ∧
  (∀ (s : State), mayCommand s .keyway → s.dev.hasp % 2 = 0 → s.dev.hasp ≠ 2 → exec .kwIdgen s = .next (refusedWith s .keyway St.stateForbidden)) ∧
  (∀ (s : State), mayCommand s .keyway → s.dev.hasp = 2 → s.dev.leaves.any (fun e => e.2.state != .free) = true →
    exec .kwIdgen s = .next (refusedWith s .keyway St.leafState)) ∧
  (∀ (s : State), mayCommand s .keyway → s.dev.hasp = 2 → s.dev.leaves.any (fun e => e.2.state != .free) = false → s.dev.ns.rootBlocked = false →
    ∃ t, exec .kwIdgen s = .next t ∧ t.dev.kw.cmd.job = some { op := 1, args := s.dev.kw.cmd.args } ∧
    t.dev.ns = { s.dev.ns with rootWanted := true } ∧ keepsRest [.kw, .ns] s t) ∧
  (∀ (s : State), mayCommand s .keyway → s.dev.arg .keyway 2 ≠ 9051 → exec .kwCertInstall s = .next (refusedWith s .keyway St.badArgument)) ∧
  (∀ (s : State), mayCommand s .keyway → s.dev.arg .keyway 2 = 9051 → ∃ t j, exec .kwCertInstall s = .next t ∧ t.dev.kw.cmd.job = some j ∧
    j.op = 2 ∧ j.phase = .reading ∧ j.awaiting = 3 ∧ readAsked t 0 none (s.dev.arg64 .keyway 0 % 2 ^ 64) 4096 (.job .keyway 0) ∧
    keepsRest [.kw, .dma0, .out] s t) ∧
  (∀ (s : State), mayCommand s .keyway → s.dev.kw.cert = [] → exec .kwCertRead s = .next (refusedWith s .keyway St.stateForbidden)) ∧
  (∀ (s : State), mayCommand s .keyway → s.dev.kw.cert ≠ [] → ∃ t j, exec .kwCertRead s = .next t ∧ t.dev.kw.cmd.job = some j ∧ j.op = 3 ∧
    j.phase = .writing ∧ t.dev.dma0.writes.length = s.dev.dma0.writes.length + ceilDiv s.dev.kw.cert.length (s.dev.payload 0) ∧
    keepsRest [.kw, .dma0] s t) ∧
  (∀ (s : State), mayCommand s .keyway → s.dev.kw.valid = false → exec .kwAttest s = .next (refusedWith s .keyway St.stateForbidden)) ∧
  (∀ (s : State), mayCommand s .keyway → s.dev.kw.valid = true → ∃ t j, exec .kwAttest s = .next t ∧ t.dev.kw.cmd.job = some j ∧ j.op = 4 ∧
    j.phase = .reading ∧ j.awaiting = 1 ∧ readAsked t 0 none (s.dev.arg64 .keyway 0 % 2 ^ 64) 32 (.job .keyway 0) ∧
    keepsRest [.kw, .dma0, .out] s t) ∧
  (∀ (s : State), mayCommand s .hasp → s.dev.arg .hasp 2 = 4787 → ∃ t j, exec .hsOpen s = .next t ∧ t.dev.hs.cmd.job = some j ∧ j.op = 1 ∧
    j.phase = .reading ∧ j.awaiting = 2 ∧ readAsked t 0 none (s.dev.arg64 .hasp 0 % 2 ^ 64 + 4096) 691 (.job .hasp 4096) ∧
    t.dev.hs.rights = s.dev.hs.rights ∧ keepsRest [.hs, .dma0, .out] s t) ∧
  (∀ (s : State), mayCommand s .hasp → s.dev.arg .hasp 2 = 4787 → ∃ t j, exec .hsTransition s = .next t ∧ t.dev.hs.cmd.job = some j ∧ j.op = 3 ∧
    j.phase = .reading ∧ j.awaiting = 2 ∧ t.dev.hs.rights = s.dev.hs.rights ∧ keepsRest [.hs, .dma0, .out] s t) ∧
  (∀ c ∈ [Instr.hsOpen, .hsTransition], ∀ (s : State), mayCommand s .hasp → s.dev.arg .hasp 2 ≠ 4787 → ∃ t, exec c s = .next t ∧
    endedWith t .hasp St.badArgument ∧ t.dev.hs.rights = s.dev.hs.rights ∧ t.dev.hs.evt = s.dev.hs.evt ||| 2 ∧ raisedIn s t 1493 ∧
    keepsRest [.hs, .fc, .ul, .out] s t) ∧
  (∀ (s : State), mayCommand s .hasp → ∃ t, exec .hsDropRights s = .next t ∧ endedWith t .hasp St.done ∧ t.dev.hs.rights = 0 ∧
    keepsRest [.hs] s t) ∧
  (∀ (s : State), mayCommand s .hasp → s.dev.hasp = 2 → s.dev.arg .hasp 2 = 2688 → ∃ t j, exec .hsIntkeyInstall s = .next t ∧
    t.dev.hs.cmd.job = some j ∧ j.op = 4 ∧ j.phase = .reading ∧ j.awaiting = 1 ∧
    readAsked t 0 none (s.dev.arg64 .hasp 0 % 2 ^ 64) 2688 (.job .hasp 0) ∧ keepsRest [.hs, .dma0, .out] s t) ∧
  (∀ (s : State), mayCommand s .hasp → s.dev.hasp % 2 = 0 → s.dev.hasp ≠ 2 →
    exec .hsIntkeyInstall s = .next (refusedWith s .hasp St.stateForbidden))

/-! ### Maintenance -/

/-- R400 to R403: a maintenance request that passes its checks gets a ticket and DONE and runs, or waits with QUEUED behind an activity that excludes it;
with eight requests queued INTERLOCK_FULL; a failed check is the status and nothing runs. -/
def Obligations.MaintenanceRequestsGetTickets : Prop :=
  ∀ e ∈ interlockRows,
    (∀ (k : Nat) (s : State), startsAtOnce s e.1 k → ∃ t, exec e.2 s = .next t ∧ t.pending = s.pending ∧ t.dev.mi.cmd.status = 0 ∧
      t.dev.mi.cmd.res = k ∧ Map.get? t.dev.mi.tickets k = some { state := 2, op := e.1 } ∧ (∃ r ∈ t.dev.mi.running, r.ticket = k ∧ r.op = e.1)) ∧
    (∀ (k : Nat) (s : State), hostOpen s → s.dev.reqCheck e.1 s.dev.mi.cmd.args = none → s.dev.mi.freeTicket = some k → s.dev.mi.queue.length < 8 →
      s.dev.canStart (reqClass e.1) = false → ∃ t, exec e.2 s = .next t ∧ t.dev.mi.cmd.status = St.queued.toNat ∧ t.dev.mi.cmd.res = k ∧
      Map.get? t.dev.mi.tickets k = some { state := 1, op := e.1 } ∧ t.dev.mi.running = s.dev.mi.running ∧ keepsRest [.mi] s t) ∧
    (∀ (s : State), hostOpen s → s.dev.reqCheck e.1 s.dev.mi.cmd.args = none → 8 ≤ s.dev.mi.queue.length → ∃ t, exec e.2 s = .next t ∧
      t.dev.mi.cmd.status = St.interlockFull.toNat ∧ t.dev.mi.evt = s.dev.mi.evt ||| 2 ∧ t.dev.mi.queue = s.dev.mi.queue ∧
      keepsRest [.mi, .ul, .out] s t) ∧
    (∀ (st : Status) (s : State), hostOpen s → s.dev.reqCheck e.1 s.dev.mi.cmd.args = some st → st ≠ St.rightMissing → ∃ t, exec e.2 s = .next t ∧
      t.dev.mi = { s.dev.mi with cmd := { s.dev.mi.cmd with status := st.toNat, res := 0 } } ∧ keepsRest [.mi] s t)

/-- What each activity does when it starts (R297, R298, R338, R373, R378, R392, R395, R397 to R400, R430): PATCH drains the first engine of its
classes, RETIRE takes the engine out of service for good, FW_SWAP halts the core, a pin restarts or retires, a capture waits for its boundary, DRBGs
reseed, a scrub pass begins, the journal is copied forward, an image is read, the ward key is to be replaced. -/
def Obligations.MaintenanceActivitiesDoTheirWork : Prop :=
  (∀ (k : Nat) (s : State), startsAtOnce s 0x01 k → s.dev.mi.running.any (fun r => r.op == 1) = false →
    bitOf (nth s.dev.mi.cmd.args 0 0) 0 = true → (s.dev.tumbler 0).retired = false →
    (s.dev.tumbler 0).parked = false → ∃ t p, exec .miPatch s = .next t ∧ t.dev.mc.pass = some p ∧ p.cls = 0 ∧ p.engine = 0 ∧ p.drain = true ∧
    p.step = 0 ∧ p.toB = bitOf (nth s.dev.mi.cmd.args 0 0) 8 ∧
    p.deadline = (s.dev.sc.beat + nth s.dev.mi.cmd.args 1 0 % 2 ^ 24) % 2 ^ 48 ∧ keepsRest [.mi, .mc] s t) ∧
  (∀ (k n : Nat) (s : State), startsAtOnce s 0x02 k → n < 32 → nth s.dev.mi.cmd.args 0 0 = n → n < s.dev.tu.length → ∃ t,
    exec .miRetire s = .next t ∧ (t.dev.tumbler n).retired = true ∧ (t.dev.tumbler n).inService = false ∧ raisedIn s t 1472 ∧
    (∀ slot x, Map.get? s.dev.turns slot = some x → x.ending = none → x.bolt = false → x.home = some n →
      Map.get? t.dev.turns slot = some (x.setDue St.engineReset)) ∧ keepsRest [.mi, .tu, .turns, .fc, .hg, .kw, .hs] s t) ∧
  (∀ (k : Nat) (s : State), startsAtOnce s 0x03 k → ∃ t, exec .miFwSwap s = .next t ∧
    t.dev.mc = { s.dev.mc with swapping := some (nth s.dev.mi.cmd.args 0 0), halted := true, healthy := false } ∧ keepsRest [.mi, .mc] s t) ∧
  (∀ (k p : Nat) (s : State), startsAtOnce s 0x10 k → nth s.dev.mi.cmd.args 0 0 = p → p < s.dev.ns.pins.length → ∃ t,
    exec .miPinRecal s = .next t ∧ (t.dev.ns.pin p).state = .restarting ∧ (t.dev.ns.pin p).fails = (s.dev.ns.pin p).fails ∧
    keepsRest [.mi, .ns, .ca, .turns, .fc, .ul, .out] s t) ∧
  (∀ (k p : Nat) (s : State), startsAtOnce s 0x11 k → nth s.dev.mi.cmd.args 0 0 = p → p < s.dev.ns.pins.length → ∃ t,
    exec .miPinRetire s = .next t ∧ (t.dev.ns.pin p).state = .retired ∧ keepsRest [.mi, .ns, .turns, .fc, .ul, .out] s t) ∧
  (∀ (k : Nat) (s : State), startsAtOnce s 0x12 k → ∃ t, exec .miRawCapture s = .next t ∧
    t.dev.ns = { s.dev.ns with rawWait := some (nth s.dev.mi.cmd.args 0 0) } ∧ keepsRest [.mi, .ns] s t) ∧
  (∀ (k : Nat) (s : State), startsAtOnce s 0x13 k → ∃ t, exec .miReseedAll s = .next t ∧
    (∀ g ∈ t.dev.ns.drbgs, g.inst = true → g.reseedAll = true) ∧ t.dev.ns.drbgs.length = s.dev.ns.drbgs.length ∧ keepsRest [.mi, .ns] s t) ∧
  (∀ (k : Nat) (s : State), startsAtOnce s 0x20 k → ∃ t, exec .miMramScrub s = .next t ∧
    t.dev.nv = { s.dev.nv with scrubActive := true, scrubLine := 0 } ∧ keepsRest [.mi, .nv] s t) ∧
  (∀ (k : Nat) (c : Instr) (s : State), (c = .miWearRelocate ∧ startsAtOnce s 0x21 k) ∨ (c = .miJournalCompact ∧ startsAtOnce s 0x23 k) → ∃ t,
    exec c s = .next t ∧ t.dev.nv.cuts = s.dev.nv.cuts ∧ t.dev.nv.gens = s.dev.nv.gens ∧
    (∃ r ∈ t.dev.mi.running, r.ticket = k ∧ r.ended = some 0) ∧ keepsRest [.mi, .nv] s t) ∧
  (∀ (k : Nat) (s : State), startsAtOnce s 0x22 k → ∃ t j, exec .miImageWrite s = .next t ∧ t.dev.mi.cmd.job = some j ∧ j.op = 0x22 ∧
    j.args = s.dev.mi.cmd.args ∧ j.phase = .reading ∧ j.awaiting = ceilDiv (nth s.dev.mi.cmd.args 2 0) 4096 ∧ keepsRest [.mi, .dma0, .out] s t) ∧
  (∀ (k : Nat) (s : State), startsAtOnce s 0x30 k → ∃ t, exec .miWardRekey s = .next t ∧ t.dev.tp = { s.dev.tp with rekeyWanted := true } ∧
    keepsRest [.mi, .tp] s t) ∧
  (∀ (k : Nat) (s : State), startsAtOnce s 0x31 k → ∃ t, exec .miTamperRecal s = .next t ∧ (∃ r ∈ t.dev.mi.running, r.ticket = k ∧ r.ended = some 0) ∧
    (∀ n, bitOf (nth s.dev.mi.cmd.args 0 0) n = false → nth t.dev.tp.srcs n {} = nth s.dev.tp.srcs n {}) ∧ keepsRest [.mi, .tp, .ca] s t)

/-- ACTIVITY_START, ACTIVITY_END and WARD_KEY_SWITCH (R338, R401, R402): a queued request that may start runs under its ticket; an activity whose work
has ended finishes its ticket with its status and MI_DONE bit; a fresh ward key of 128 bits is used once entropy can be served. -/
def Obligations.ActivitiesStartAndFinish : Prop :=
  (∀ (r : Req) (s : State), s.dev.mi.queue = [r] → s.dev.canStart r.cls = true → (s.dev.onMi fun m => { m with queue := [] }).recheck r = none → ∃ t,
    exec .activityStart s = .next t ∧ t.pending = s.pending ∧ t.dev.mi.queue = [] ∧
    Map.get? t.dev.mi.tickets r.ticket = some { state := 2, op := r.op }) ∧
  (∀ (c : ActClass) (r : Req) (st : Status) (s : State), s.dev.activityOver c = some (r, st) → ∃ t, exec (.activityEnd c) s = .next t ∧
    t.dev.mi.running = s.dev.mi.running.filter (fun x => x.ticket != r.ticket) ∧ t.dev.mi.done = s.dev.mi.done ||| 2 ^ r.ticket ∧
    (∀ x, Map.get? s.dev.mi.tickets r.ticket = some x → Map.get? t.dev.mi.tickets r.ticket = some { x with state := 3, status := st.toNat }) ∧
    t.dev.mi.evt = s.dev.mi.evt ||| 1 ∧ keepsRest [.mi, .ul, .out] s t) ∧
  (∀ (s : State), s.dev.tp.rekeyWanted = true → s.dev.ns.notReady = false → ∃ t, exec .wardKeySwitch s = .next t ∧
    t.dev.tp.wardKey.map List.length = some 16 ∧
    t.dev.tp = { s.dev.tp with rekeyWanted := false, wardKey := t.dev.tp.wardKey, rekeys := min (s.dev.tp.rekeys + 1) 65535 } ∧
    keepsRest [.tp, .fresh] s t)

/-- A patch pass (R395, R396): a drained engine stops for its section, though not at stage 3 (R403); at the deadline started operations are aborted with ENGINE_RESET and source
1471; a passed self-test returns the engine to service, a failed one raises source 1461 and reverts the pass. A firmware swap (R394, R399, R405): a
healthy one runs the new bank and ends DONE, another reverts with source 1459 and ENGINE_FAULT; outside a swap the core restarts with source 1456. -/
def Obligations.PatchesAndSwapsEnd : Prop :=
  (∀ (n : Nat) (p : Pass) (s : State), s.dev.mc.pass = some p → p.drain = true → p.step = 0 → p.cls = 0 → p.engine = n → n < s.dev.tu.length →
    s.dev.drained p = true → s.dev.power.applied < 3 → ∃ t, exec .engineDrainStop s = .next t ∧ (t.dev.tumbler n).stopped = true ∧ (t.dev.tumbler n).inService = false ∧
    t.dev.mc = { s.dev.mc with pass := some { p with drain := false, step := 1 } } ∧ keepsRest [.tu, .mc] s t) ∧
  (∀ (p : Pass) (s : State), s.dev.mc.pass = some p → p.drain = true → p.step = 0 → p.late = false → met s.dev.sc.beat p.deadline = true →
    s.dev.drained p = false → (s.dev.engineOf p.cls p.engine).parked = false → ∃ t, exec .patchDrainDeadline s = .next t ∧
    t.dev.mc = { s.dev.mc with pass := some { p with late := true } } ∧ raisedIn s t 1471 ∧
    (∀ slot x, Map.get? s.dev.turns slot = some x → x.ending = none → x.startedOn p.cls p.engine = true →
      Map.get? t.dev.turns slot = some (x.setDue St.engineReset)) ∧ keepsRest [.mc, .turns, .fc, .hg, .kw, .hs, .mi] s t ∧
    (s.dev.jobOn p.cls p.engine = false → keepsRest [.mc, .turns, .fc] s t)) ∧
  (∀ (n : Nat) (p : Pass) (s : State), s.dev.mc.pass = some p → p.step = 1 → p.cls = 0 → p.engine = n → n < s.dev.tu.length → p.revert = false → ∃ t,
    exec (.engineSelftestEnd true) s = .next t ∧ (t.dev.tumbler n).inService = true ∧ (t.dev.tumbler n).stopped = false ∧
    (∀ q, t.dev.mc.pass = some q → n ∈ q.done) ∧ keepsRest [.tu, .mc, .mi, .nv, .ul, .out] s t) ∧
  (∀ (p : Pass) (s : State), s.dev.mc.pass = some p → p.step = 1 → p.revert = false → ∃ t, exec (.engineSelftestEnd false) s = .next t ∧
    t.dev.mc.pass = some { p with revert := true, step := 1, drain := false } ∧ t.dev.mc.evt = s.dev.mc.evt ||| 8 ∧ raisedIn s t 1461 ∧
    keepsRest [.mc, .fc, .ul, .out] s t) ∧
  (∀ (b : Nat) (r : Req) (s : State), s.dev.mc.swapping = some b → s.dev.swapReq = some r → ∃ t, exec .fwHealthy s = .next t ∧ t.dev.mc.bank = b ∧
    t.dev.mc.swapping = none ∧ t.dev.mc.healthy = true ∧ t.dev.mc.evt = s.dev.mc.evt ||| 2 ∧
    (s.dev.nv.fwVer < (s.dev.mc.ver (b == 1)).getD 0 →
      t.dev.nv.queue = s.dev.nv.queue ++ [{ val := .fwVersion ((s.dev.mc.ver (b == 1)).getD 0) }]) ∧
    (∀ x, Map.get? s.dev.mi.tickets r.ticket = some x → Map.get? t.dev.mi.tickets r.ticket = some { x with state := 3, status := 0 }) ∧
    keepsRest [.mc, .nv, .mi, .ul, .out] s t) ∧
  (∀ (b : Nat) (r : Req) (s : State), s.dev.mc.swapping = some b → s.dev.swapReq = some r → ∃ t, exec .fwSwapWatchdog s = .next t ∧
    t.dev.mc.bank = s.dev.mc.bank ∧ t.dev.mc.swapping = none ∧ t.dev.mc.evt = s.dev.mc.evt ||| 4 ∧ raisedIn s t 1459 ∧
    (∀ x, Map.get? s.dev.mi.tickets r.ticket = some x →
      Map.get? t.dev.mi.tickets r.ticket = some { x with state := 3, status := St.engineFault.toNat }) ∧ keepsRest [.mc, .fc, .mi, .ul, .out] s t) ∧
  (∀ (s : State), s.dev.mc.swapping = none → s.dev.power.boot = 4 → s.dev.shackled = false →
    exec .mgmtWatchdogExpiry s = .next { s with dev := s.dev.raiseSrc 1456 }) ∧
  (∀ (s : State), 3 ≤ s.dev.power.applied → exec .engineDrainStop s = .fault .cannotOccur)

/-! ### Life cycle -/

/-- HASP_ODD_BURN, WIPE_STEP and HASP_EVEN_BURN (R317, R319, R322, R324, R326, R327): a transition burns its odd position and clears every right, runs
the wipe steps of its target in order, and burns its even position; a third failed check or a row that fails stops it where it stands. -/
def Obligations.TransitionsBurnWipeAndBurn : Prop :=
  (∀ (x : Trans) (s : State), s.dev.hs.trans = some x → x.step = 0 → s.dev.power.applied ≤ 1 → s.dev.shackled = false → ∃ t,
    exec (.haspOddBurn 3) s = .next t ∧ t.dev.perm = s.dev.perm.burn (x.target - 2) ∧ t.dev.hs.rights = 0 ∧
    t.dev.hs.evt = s.dev.hs.evt ||| 4 ∧ t.dev.hs.trans = some { x with step := nextStep x.target 0, tries := 0 } ∧
    { source := 1495 } ∈ t.dev.fc.incoming ∧ keepsRest [.perm, .hs, .fc, .nv, .power, .ul, .out] s t) ∧
  (∀ (rows : Nat) (x : Trans) (s : State), s.dev.hs.trans = some x → x.step = 0 → s.dev.power.applied ≤ 1 → s.dev.shackled = false → rows < 3 →
    ∃ t, exec (.haspOddBurn rows) s = .next t ∧ t.dev.perm = s.dev.perm.burnRows (x.target - 2) rows ∧
    t.dev.hs.trans = none ∧ t.dev.hs.rights = 0 ∧ { source := 1489 } ∈ t.dev.fc.incoming ∧
    keepsRest [.perm, .hs, .fc, .mi, .power, .ul, .out] s t) ∧
  (∀ (x : Trans) (s : State), s.dev.hs.trans = some x → x.step = 4 → ∃ t, exec (.wipeStep true) s = .next t ∧
    t.dev.perm = { s.dev.perm with flash := [] } ∧ t.dev.hs.trans = some { x with step := nextStep x.target 4, tries := 0 } ∧
    keepsRest [.perm, .hs, .power, .fc, .ul, .out] s t) ∧
  (∀ (x : Trans) (s : State), s.dev.hs.trans = some x → 1 ≤ x.step → x.step ≤ 8 → 2 ≤ x.tries → ∃ t, exec (.wipeStep false) s = .next t ∧
    t.dev.hs.trans = none ∧ { source := 1491 } ∈ t.dev.fc.incoming ∧ keepsRest [.hs, .fc, .mi, .power, .ul, .out] s t) ∧
  (∀ (x : Trans) (s : State), s.dev.hs.trans = some x → 1 ≤ x.step → x.step ≤ 8 → x.tries < 2 → ∃ t, exec (.wipeStep false) s = .next t ∧
    t.dev.hs.trans = some { x with tries := x.tries + 1 } ∧ keepsRest [.hs] s t) ∧
  (∀ (x : Trans) (s : State), s.dev.hs.trans = some x → x.step = 9 → s.dev.power.applied ≤ 1 → s.dev.shackled = false → ∃ t,
    exec (.haspEvenBurn 3) s = .next t ∧ t.dev.perm = s.dev.perm.burn (x.target - 1) ∧ t.dev.hs.trans = none ∧
    t.dev.hs.evt = s.dev.hs.evt ||| 8 ∧ { source := 1496 } ∈ t.dev.fc.incoming ∧
    keepsRest [.perm, .hs, .fc, .nv, .mi, .power, .ul, .out] s t)

/-! ### Zaxus -/

/-- NOP, FENCE, WAIT, SKIP.IF and REPEAT (R101, R134, R136, R137) change no cell and move the PC: at once, once the fence or the delay has passed, past
IMM words, or into a body with index 0. ALLOC, FREE, the COPY variants, ZERO, XOR, CMP.CT and RAND.FILL (R103, R106, R109, R132, R138, R141, R157)
write the cells their text names and go on; a second allocation ends the turn with BAD_CELL, unequal cells give TAG_MISMATCH and go on. RAND.FILL takes
its bytes from the oldest internal lines or waits (R289), and a store error armed in the home engine meets the next write (R219). -/
def Obligations.ControlAndCellWords : Prop :=
  (∀ (slot : Nat) (x : Turn) (z : ZInstr) (s : State), s.dev.atWord slot .nop = some (x, z) → ∃ t, exec (.zxNop slot) s = .next t ∧
    onlyTurn s t slot x.next ∧ keepsRest [.turns] s t) ∧
  (∀ (slot : Nat) (x : Turn) (z : ZInstr) (s : State), s.dev.atWord slot .fence = some (x, z) → ∃ t, exec (.zxFence slot) s = .next t ∧
    onlyTurn s t slot (if s.dev.fenceMet x = true then x.next else { x with phase := .waitFence, woken := false }) ∧ keepsRest [.turns] s t) ∧
  (∀ (slot : Nat) (x : Turn) (z : ZInstr) (s : State), s.dev.atWord slot .wait = some (x, z) → ∃ t, exec (.zxWait slot) s = .next t ∧
    onlyTurn s t slot { x with phase := .waitDelay ((s.dev.sc.beat + 1 + z.imm) % 2 ^ 48), woken := false } ∧ keepsRest [.turns] s t) ∧
  (∀ (slot : Nat) (x : Turn) (z : ZInstr) (s : State), s.dev.atWord slot .skipIf = some (x, z) → ∃ t, exec (.zxSkipIf slot) s = .next t ∧
    onlyTurn s t slot (if statusClass x.last = (if z.var = 0 then 0 else 3) then x.skip z.imm else x.next) ∧ keepsRest [.turns] s t) ∧
  (∀ (slot : Nat) (x : Turn) (z : ZInstr) (s : State), s.dev.atWord slot .loop = some (x, z) → ∃ t, exec (.zxRepeat slot) s = .next t ∧
    onlyTurn s t slot { x with
      reps := { first := x.pc + 1, len := z.imm / 2 ^ 12 % 2 ^ 12, count := z.imm % 2 ^ 12, i := 0 } :: x.reps, pc := x.pc + 1 } ∧
    keepsRest [.turns] s t) ∧
  (∀ (slot : Nat) (x : Turn) (z : ZInstr) (s : State), s.dev.atWord slot .alloc = some (x, z) → x.cell? z.dst = none → ∃ t,
    exec (.zxAlloc slot) s = .next t ∧ onlyTurn s t slot (wentOn { x with cells := Map.set x.cells z.dst { size := z.imm } } St.done) ∧
    keepsRest [.turns] s t) ∧
  (∀ (slot : Nat) (x : Turn) (z : ZInstr) (s : State), s.dev.atWord slot .alloc = some (x, z) → x.cell? z.dst ≠ none → x.wantsRecord = true → ∃ t,
    exec (.zxAlloc slot) s = .next t ∧ turnEnded t slot St.badCell x.pc ∧ keepsRest endParts s t) ∧
  (∀ (slot : Nat) (x : Turn) (z : ZInstr) (s : State), s.dev.atWord slot .free = some (x, z) → s.dev.preCheck x z = none → ∃ t,
    exec (.zxFree slot) s = .next t ∧ onlyTurn s t slot (wentOn { x with cells := Map.erase x.cells z.dst } St.done) ∧ keepsRest [.turns] s t) ∧
  (∀ (slot : Nat) (x : Turn) (z : ZInstr) (s : State), s.dev.atWord slot .zero = some (x, z) → s.dev.preCheck x z = none → storeQuiet s x → ∃ t,
    exec (.zxZero slot) s = .next t ∧ onlyTurn s t slot (wentOn (x.write z.dst (zeros z.imm)) St.done) ∧ keepsRest [.turns] s t) ∧
  (∀ (slot : Nat) (x : Turn) (z : ZInstr) (s : State), s.dev.atWord slot .copyWhole = some (x, z) → s.dev.preCheck x z = none → storeQuiet s x → ∃ t,
    exec (.zxCopyWhole slot) s = .next t ∧ onlyTurn s t slot (wentOn (x.write z.dst (x.bytes z.a)) St.done) ∧ keepsRest [.turns] s t) ∧
  (∀ (slot : Nat) (x : Turn) (z : ZInstr) (s : State), s.dev.atWord slot .copySlice = some (x, z) → s.dev.preCheck x z = none → storeQuiet s x → ∃ t,
    exec (.zxCopySlice slot) s = .next t ∧ onlyTurn s t slot (wentOn (x.write z.dst (slice (x.bytes z.a) z.imm (x.size z.dst))) St.done) ∧
    keepsRest [.turns] s t) ∧
  (∀ (slot : Nat) (x : Turn) (z : ZInstr) (s : State), s.dev.atWord slot .copyAppend = some (x, z) → s.dev.preCheck x z = none → storeQuiet s x → ∃ t,
    exec (.zxCopyAppend slot) s = .next t ∧ onlyTurn s t slot (wentOn (x.write z.dst (x.bytes z.dst ++ x.bytes z.a)) St.done) ∧
    keepsRest [.turns] s t) ∧
  (∀ (slot : Nat) (x : Turn) (z : ZInstr) (s : State), s.dev.atWord slot .copyCtr = some (x, z) → s.dev.preCheck x z = none → storeQuiet s x → ∃ t,
    exec (.zxCopyCtr slot) s = .next t ∧
    onlyTurn s t slot (wentOn ((x.write z.dst (ctrBlocks z.imm (x.bytes z.a)).1).write z.a (ctrBlocks z.imm (x.bytes z.a)).2) St.done) ∧
    keepsRest [.turns] s t) ∧
  (∀ (slot : Nat) (x : Turn) (z : ZInstr) (s : State), s.dev.atWord slot .xor = some (x, z) → s.dev.preCheck x z = none → storeQuiet s x → ∃ t,
    exec (.zxXor slot) s = .next t ∧ onlyTurn s t slot (wentOn (x.write z.dst (xorBytes (x.bytes z.a) (x.bytes z.b))) St.done) ∧
    keepsRest [.turns] s t) ∧
  (∀ (slot : Nat) (x : Turn) (z : ZInstr) (s : State), s.dev.atWord slot .cmpCt = some (x, z) → s.dev.preCheck x z = none → ∃ t,
    exec (.zxCmpCt slot) s = .next t ∧
    onlyTurn s t slot (if x.bytes z.a = x.bytes z.b then wentOn x St.done
      else { wentOn x St.tagMismatch with firstBad := x.firstBad.or (some (St.tagMismatch, x.pc)) }) ∧ keepsRest [.turns] s t) ∧
  (∀ (slot : Nat) (x : Turn) (z : ZInstr) (s : State), s.dev.atWord slot .randFill = some (x, z) → s.dev.preCheck x z = none → 0 < z.imm →
    s.dev.servesTurn x z.imm = true → storeQuiet s x → ∃ t, exec (.zxRandFill slot) s = .next t ∧
    onlyTurn s t slot (wentOn (x.write z.dst (s.dev.ns.lineBytes z.imm)) St.done) ∧ linesTaken s t z.imm ∧ keepsRest [.turns, .ns] s t) ∧
  (∀ (slot : Nat) (x : Turn) (z : ZInstr) (s : State), s.dev.atWord slot .randFill = some (x, z) → s.dev.preCheck x z = none → 0 < z.imm →
    s.dev.servesTurn x z.imm = false → ∃ t, exec (.zxRandFill slot) s = .next t ∧
    onlyTurn s t slot { x with phase := .waitEntropy, entropyWait := s.dev.sc.beat, woken := false } ∧ keepsRest [.turns] s t) ∧
  (∀ (slot n : Nat) (x : Turn) (z : ZInstr) (s : State), s.dev.atWord slot .zero = some (x, z) → s.dev.preCheck x z = none → x.bolt = false →
    x.home = some n → n < s.dev.tu.length → (s.dev.tumbler n).armed = some 0 → ∃ t, exec (.zxZero slot) s = .next t ∧
    onlyTurn s t slot (wentOn (x.write z.dst (zeros z.imm)) St.done) ∧
    (t.dev.tumbler n).ce = min ((s.dev.tumbler n).ce + 1) 65535 ∧ (t.dev.tumbler n).armed = none ∧ raisedIn s t (24 * n) ∧
    keepsRest [.turns, .tu, .fc] s t)

/-- LOAD, STORE, STORE with STREAM and END (R47, R48, R110, R111, R113, R119, R120, R139, R140): LOAD asks for its bytes and waits, STORE keeps a copy,
a stream writes at once, and END, but for a failure that is due (R118), zeroises the cells and queues the turn record at its completion slot behind the writes it defers. -/
def Obligations.HostWordsReadAndWriteInOrder : Prop :=
  (∀ (slot : Nat) (x : Turn) (z : ZInstr) (s : State), s.dev.atWord slot .load = some (x, z) → s.dev.preCheck x z = none → 0 < x.size z.dst →
    x.size z.dst ≤ 4096 → ∃ t, exec (.zxLoad slot) s = .next t ∧
    onlyTurn s t slot { x with phase := .waitDma, awaiting := 1, parts := [], woken := false } ∧
    readAsked t (s.dev.leaf x.leaf).module (s.dev.pasidOf x.leaf) (x.dataAddr z (x.size z.dst)) (x.size z.dst) (.load slot 0) ∧
    keepsRest [.turns, .dma0, .dma1, .out] s t) ∧
  (∀ (slot : Nat) (x : Turn) (z : ZInstr) (s : State), s.dev.atWord slot .store = some (x, z) → s.dev.preCheck x z = none → ∃ t,
    exec (.zxStore slot) s = .next t ∧
    onlyTurn s t slot (wentOn { x with stores := x.stores ++ [{ addr := x.dataAddr z (x.size z.a), data := x.bytes z.a }] } St.done) ∧
    keepsRest [.turns] s t) ∧
  (∀ (slot : Nat) (x : Turn) (z : ZInstr) (s : State), s.dev.atWord slot .storeStream = some (x, z) → s.dev.preCheck x z = none →
    (s.dev.leaf x.leaf).dlog.en = false → ∃ t, exec (.zxStoreStream slot) s = .next t ∧
    onlyTurn s t slot
      (wentOn { x with pendingW := x.pendingW + (payloads (s.dev.payload (s.dev.leaf x.leaf).module) (x.bytes z.a)).length } St.done) ∧
    (t.dev.dma (s.dev.leaf x.leaf).module).writes = (s.dev.dma (s.dev.leaf x.leaf).module).writes ++
      ((payloads (s.dev.payload (s.dev.leaf x.leaf).module) (x.bytes z.a)).map fun p =>
        DmaWrite.mk (s.dev.pasidOf x.leaf) ((x.dataAddr z (x.size z.a) + p.1) % 2 ^ 64) p.2 (.result slot)) ∧
    keepsRest [.turns, .dma0, .dma1] s t) ∧
  (∀ (slot : Nat) (x : Turn) (z : ZInstr) (s : State), s.dev.atWord slot .fin = some (x, z) → s.dev.preCheck x z = none → x.wantsRecord = true → x.failing = none → ∃ t,
    exec (.zxEnd slot) s = .next t ∧ turnEnded t slot (x.firstBad.getD (St.done, x.pc)).1 (x.firstBad.getD (St.done, x.pc)).2 ∧
    keepsRest endParts s t) ∧
  (∀ (slot : Nat) (st : Status) (x : Turn) (z : ZInstr) (s : State), s.dev.atWord slot .fin = some (x, z) → x.wantsRecord = true →
    x.due = some st → statusClass st ≠ 4 → ∃ t, exec (.zxEnd slot) s = .next t ∧ turnEnded t slot st x.pc ∧ keepsRest endParts s t) ∧
  (∀ (slot : Nat) (x : Turn) (z : ZInstr) (s : State), s.dev.atWord slot .fin = some (x, z) → s.dev.preCheck x z = none → x.wantsRecord = true →
    x.failing = none → x.stores = [] → x.pendingW = 0 → x.record = none → x.recordQueued = false → z.a = 0xFF → (s.dev.leaf x.leaf).dlog.en = false → ∃ t,
    exec (.zxEnd slot) s = .next t ∧
    (t.dev.dma (s.dev.leaf x.leaf).module).writes = (s.dev.dma (s.dev.leaf x.leaf).module).writes ++
      [DmaWrite.mk (s.dev.pasidOf x.leaf)
        (((s.dev.leaf x.leaf).queue x.queue).cqBase + 32 * ((s.dev.leaf x.leaf).queue x.queue).cqTail)
        (recordBytes { x with ending := some (x.firstBad.getD (St.done, x.pc)), lastLen := 0 } ((s.dev.leaf x.leaf).queue x.queue).phase)
        (.record slot)] ∧
    ((t.dev.leaf x.leaf).queue x.queue).cqTail =
      (if 2 ^ ((s.dev.leaf x.leaf).queue x.queue).cqLog ≤ ((s.dev.leaf x.leaf).queue x.queue).cqTail + 1 then 0
       else ((s.dev.leaf x.leaf).queue x.queue).cqTail + 1) ∧
    keepsRest [.turns, .leaves, .slots, .dma0, .dma1] s t)

/-- DIGEST.INIT, FINAL and STREAM, MAC.INIT, BN.SETMOD, CTX.SAVE and CTX.RESTORE to vault slots and KEYW.CLEAR (R143, R153 to R155, R162, R241 to R248,
R276, R307): the state record, digest, modulus, context slot or keyway change each makes, without an engine. -/
def Obligations.StateWordsKeepTheirRecords : Prop :=
  (∀ (slot : Nat) (x : Turn) (z : ZInstr) (s : State), s.dev.atWord slot .digestInit = some (x, z) → s.dev.preCheck x z = none → storeQuiet s x → ∃ t,
    exec (.zxDigestInit slot) s = .next t ∧
    onlyTurn s t slot (wentOn (x.write z.dst (HState.encode { chain := algInit z.var, alg := z.var, declared := z.imm }) true) St.done) ∧
    keepsRest [.turns] s t) ∧
  (∀ (slot : Nat) (x : Turn) (z : ZInstr) (s : State), s.dev.atWord slot .digestFinal = some (x, z) → s.dev.preCheck x z = none → storeQuiet s x → ∃ t,
    exec (.zxDigestFinal slot) s = .next t ∧
    onlyTurn s t slot (wentOn ((x.write z.dst ((x.hstate z.a).chain.take (algDigest (x.hstate z.a).alg))).write z.a
      (HState.encode { x.hstate z.a with closed := true }) true) St.done) ∧ keepsRest [.turns] s t) ∧
  (∀ (slot : Nat) (x : Turn) (z : ZInstr) (s : State), s.dev.atWord slot .digestStream = some (x, z) → s.dev.preCheck x z = none →
    (x.hstate z.dst).closed = false → ∃ t, exec (.zxDigestStream slot) s = .next t ∧
    onlyTurn s t slot { x with op := some (x.newOp z []), phase := .waitDma, parts := [], woken := false,
                               awaiting := ceilDiv (((x.hstate z.dst).declared - (x.hstate z.dst).fed) * algBlock (x.hstate z.dst).alg) 4096 } ∧
    keepsRest [.turns, .dma0, .dma1, .out] s t) ∧
  (∀ (slot alg : Nat) (i o : Bytes) (x : Turn) (z : ZInstr) (s : State), s.dev.atWord slot .macInit = some (x, z) → s.dev.preCheck x z = none → storeQuiet s x →
    Map.get? s.dev.slots.slots (leNat (x.bytes z.a)) = some (.first alg i o) → s.dev.dg.armed ≠ some 2 → ∃ t, exec (.zxMacInit slot) s = .next t ∧
    onlyTurn s t slot (wentOn (x.write z.dst (HState.encode { chain := i, alg := alg, mac := true, slot := leNat (x.bytes z.a), declared := z.imm,
                                                              stamp := s.dev.slotStamp (leNat (x.bytes z.a)) }) true) St.done) ∧
    keepsRest [.turns] s t) ∧
  (∀ (slot : Nat) (x : Turn) (z : ZInstr) (s : State), s.dev.atWord slot .macInit = some (x, z) → s.dev.preCheck x z = none →
    s.dev.dg.armed = some 2 → x.wantsRecord = true → ∃ t, exec (.zxMacInit slot) s = .next t ∧ turnEnded t slot St.memoryFault x.pc ∧
    Map.get? t.dev.slots.slots (leNat (x.bytes z.a)) = none ∧ { source := 1104 } ∈ t.dev.fc.incoming ∧
    keepsRest (endParts ++ [.vault, .dg, .fc]) s t) ∧
  (∀ (slot : Nat) (x : Turn) (z : ZInstr) (s : State), s.dev.atWord slot .bnSetmod = some (x, z) → s.dev.preCheck x z = none →
    modulusOk z.cls (beNat (x.bytes z.a)) = true → ∃ t, exec (.zxBnSetmod slot) s = .next t ∧
    onlyTurn s t slot (wentOn { x with modulus := some (z.cls, beNat (x.bytes z.a)) } St.done) ∧ keepsRest [.turns] s t) ∧
  (∀ (slot : Nat) (x : Turn) (z : ZInstr) (s : State), s.dev.atWord slot .bnSetmod = some (x, z) → s.dev.preCheck x z = none →
    modulusOk z.cls (beNat (x.bytes z.a)) = false → x.wantsRecord = true → ∃ t, exec (.zxBnSetmod slot) s = .next t ∧
    turnEnded t slot St.refusedModulus x.pc ∧ keepsRest endParts s t) ∧
  (∀ (slot : Nat) (x : Turn) (z : ZInstr) (s : State), s.dev.atWord slot .ctxSaveVault = some (x, z) → s.dev.preCheck x z = none → ∃ t,
    exec (.zxCtxSaveVault slot) s = .next t ∧ onlyTurn s t slot (wentOn x St.done) ∧
    (lastToWrite s x z.imm → Map.get? (t.dev.leaf x.leaf).ctx z.imm = some (x.ctxCode z.a, x.bytes z.a)) ∧
    (¬ lastToWrite s x z.imm → t.dev.leaves = s.dev.leaves) ∧ keepsRest [.turns, .leaves] s t) ∧
  (∀ (slot code : Nat) (bs : Bytes) (x : Turn) (z : ZInstr) (s : State), s.dev.atWord slot .ctxRestoreVault = some (x, z) →
    s.dev.preCheck x z = none → Map.get? (s.dev.leaf x.leaf).ctx (z.imm % 8) = some (code, bs) → z.imm / 2 ^ 16 % 2 ^ 8 = code →
    storeQuiet s x → s.dev.bk.armed ≠ some 2 → ∃ t, exec (.zxCtxRestoreVault slot) s = .next t ∧
    onlyTurn s t slot (wentOn ({ x with vaultRead := some (z.imm % 8) }.write z.dst bs (code != 0xFF)) St.done) ∧ keepsRest [.turns] s t) ∧
  (∀ (slot : Nat) (x : Turn) (z : ZInstr) (s : State), s.dev.atWord slot .ctxRestoreVault = some (x, z) →
    s.dev.preCheck x z = none → s.dev.bk.armed = some 2 → x.wantsRecord = true → ∃ t, exec (.zxCtxRestoreVault slot) s = .next t ∧
    turnEnded t slot St.memoryFault x.pc ∧ Map.get? (t.dev.leaf x.leaf).ctx (z.imm % 8) = none ∧ { source := 1058 } ∈ t.dev.fc.incoming ∧
    keepsRest (endParts ++ [.bk, .fc]) s t) ∧
  (∀ (slot : Nat) (x : Turn) (z : ZInstr) (s : State), s.dev.atWord slot .ctxRestoreVault = some (x, z) → s.dev.preCheck x z = none →
    Map.get? (s.dev.leaf x.leaf).ctx (z.imm % 8) = none → s.dev.bk.armed ≠ some 2 → x.wantsRecord = true → ∃ t, exec (.zxCtxRestoreVault slot) s = .next t ∧
    turnEnded t slot St.contextMismatch x.pc ∧ keepsRest endParts s t) ∧
  (∀ (slot : Nat) (x : Turn) (z : ZInstr) (s : State), s.dev.atWord slot .keywClear = some (x, z) → s.dev.preCheck x z = none →
    s.dev.keywayBusy x.leaf = false → s.dev.hasp % 2 = 0 → ∃ t, exec (.zxKeywClear slot) s = .next t ∧
    onlyTurn s t slot { x with phase := .waitCommit, op := none } ∧
    (t.dev.leaf x.leaf).change = some { change := some .clear, value := s.dev.cut x.leaf + 1, slot := slot, was := s.dev.cut x.leaf } ∧
    (t.dev.leaf x.leaf).kw = (s.dev.leaf x.leaf).kw ∧
    t.dev.nv.queue = s.dev.nv.queue ++ [{ val := .cut x.leaf (s.dev.cut x.leaf + 1), why := .keyway x.leaf }] ∧
    keepsRest [.turns, .leaves, .nv] s t)

/-- The engine instructions (R125, R130, R132, R175, R296): the first failed check ends the turn uncharged with its status; else the draw is served or
the turn waits for entropy, and its operation joins the ready list of its engine class. Nothing is written before the last stroke. Any Zaxus row is
its instruction only where the word at the PC of a turn that runs is that instruction (R123). -/
def Obligations.EngineWordsJoinTheirReadyList : Prop :=
  (∀ e ∈ zaxusEngineRows, ∀ (slot : Nat) (x : Turn) (z : ZInstr) (s : State), s.dev.atWord slot e.1 = some (x, z) →
    (∀ (st : Status), s.dev.preCheck x z = some st → x.wantsRecord = true → ∃ t, exec (e.2 slot) s = .next t ∧ turnEnded t slot st x.pc ∧
      (t.dev.leaf x.leaf).meters = (s.dev.leaf x.leaf).meters ∧ keepsRest endParts s t) ∧
    (s.dev.preCheck x z = none → x.strokes z ≠ 0 → z.drawLen = 0 → x.woken = false → ∃ t, exec (e.2 slot) s = .next t ∧
      onlyTurn s t slot { x with op := some (x.newOp z []), phase := .ready } ∧ keepsRest [.turns] s t) ∧
    (s.dev.preCheck x z = none → x.strokes z ≠ 0 → z.drawLen ≠ 0 → s.dev.servesTurn x z.drawLen = true → x.woken = false → ∃ t,
      exec (e.2 slot) s = .next t ∧ onlyTurn s t slot { x with op := some (x.newOp z (s.dev.ns.lineBytes z.drawLen)), phase := .ready } ∧
      linesTaken s t z.drawLen ∧ keepsRest [.turns, .ns] s t) ∧
    (s.dev.preCheck x z = none → z.drawLen ≠ 0 → s.dev.servesTurn x z.drawLen = false → ∃ t, exec (e.2 slot) s = .next t ∧
      onlyTurn s t slot { x with phase := .waitEntropy, entropyWait := s.dev.sc.beat, woken := false } ∧ keepsRest [.turns] s t)) ∧
  (∀ e ∈ zaxusPlainRows ++ zaxusEngineRows, ∀ (slot : Nat) (s : State),
    s.dev.atWord slot e.1 = none → exec (e.2 slot) s = .fault .cannotOccur)

/-! ### Beats -/

/-- BEAT_EDGE and FREEZE_POINT (R167, R169, R179, R180, R414, R415): the edge advances BEAT to the higher of its two counters and begins the beat, raising
source 1252 where they differ; the freeze point takes the applied stage, and at stage 3 it dispatches nothing. -/
def Obligations.BeatsAdvanceAndFreeze : Prop :=
  (∀ (s : State), s.dev.sc.tick = .ended → s.dev.power.engPll = true → s.dev.sc.beat = s.dev.sc.beatB → ∃ t, exec (.beatEdge none) s = .next t ∧
    t.pending = s.pending ∧ t.dev.sc.beat = (s.dev.sc.beat + 1) % 2 ^ 48 ∧ t.dev.sc.beatB = (s.dev.sc.beat + 1) % 2 ^ 48 ∧
    t.dev.sc.tick = .begun ∧ t.dev.sc.plan = [] ∧ t.dev.perm = s.dev.perm ∧ t.dev.power = s.dev.power) ∧
  (∀ (b : BitVec 48) (s : State), s.dev.sc.tick = .ended → s.dev.power.engPll = true → b.toNat ≠ (s.dev.sc.beat + 1) % 2 ^ 48 → ∃ t,
    exec (.beatEdge (some b)) s = .next t ∧ t.pending = s.pending ∧ t.dev.sc.beat = max ((s.dev.sc.beat + 1) % 2 ^ 48) b.toNat ∧
    t.dev.sc.tick = .begun ∧ { source := 1252 } ∈ t.dev.fc.incoming) ∧
  (∀ (s : State), s.dev.sc.tick = .begun → ∃ t, exec .freezePoint s = .next t ∧ t.pending = s.pending ∧ t.dev.sc.tick = .frozen ∧
    t.dev.sc.beat = s.dev.sc.beat ∧ t.dev.sc.stage = s.dev.power.applied ∧ (3 ≤ s.dev.power.applied → t.dev.sc.plan = []) ∧
    t.dev.perm = s.dev.perm ∧ t.dev.power = s.dev.power) ∧
  (∀ (b : Option (BitVec 48)) (s : State), s.dev.sc.tick ≠ .ended → exec (.beatEdge b) s = .fault .cannotOccur) ∧
  (∀ (s : State), s.dev.sc.tick ≠ .begun → exec .freezePoint s = .fault .cannotOccur)

/-- STROKE_END (R109, R171, R206, R240): the last stroke of an operation releases its outcome: its stroke writes a hashing state cell back, the write
path forms its outputs, with DONE its cells are written and its turn goes on at the next word; lane and limb registers are clear; the engines that
held strokes are those that BB_BUSY and BK_BUSY show, and the beat has ended. -/
def Obligations.LastStrokeReleasesTheOutcome : Prop :=
  (∀ (slot : Nat) (x : Turn) (o : Op) (s : State), s.dev.sc.tick = .frozen → s.dev.turns = [(slot, x)] → x.op = some o → o.active = true →
    o.goesOn = false → x.due = none → x.ending = none → o.z.kind ≠ .mceEncaps → o.hit = none → o.result.status = St.done →
    o.result.effs = [] → s.dev.hg.cmd.job = none → s.dev.kw.cmd.job = none → s.dev.hs.cmd.job = none → s.dev.mi.cmd.job = none →
    (∀ e ∈ s.dev.tu, e.armed = none) → (∀ e ∈ s.dev.bo, e.armed = none) → s.dev.bb.armed = none → s.dev.bk.armed = none → s.dev.dg.armed = none →
    s.dev.mc.traceEn = false → ∃ t, exec (.strokeEnd []) s = .next t ∧ t.dev.sc.tick = .ended ∧ t.dev.sc.held = o.engines ∧
    onlyTurn s t slot (wentOn (o.written.outs.foldl (fun u w => u.write w.1 w.2.1 w.2.2)
      { x with strokeBeat := some s.dev.sc.beat, cells := (x.hashStroke o (o.total - o.left)).cells }) St.done) ∧
    (∀ e ∈ t.dev.tu ++ t.dev.bo, e.mode = 0 ∧ e.lanes = none) ∧
    t.dev.tu.map (fun e => { kept e with mode := 0, lanes := none }) = s.dev.tu.map (fun e => { kept e with mode := 0, lanes := none }) ∧
    t.dev.bo.map (fun e => { kept e with mode := 0, lanes := none }) = s.dev.bo.map (fun e => { kept e with mode := 0, lanes := none }) ∧
    keepsRest [.turns, .sc, .tu, .bo, .bb, .bk, .dg, .dirty] s t) ∧
  (∀ (s : State), s.dev.sc.tick = .frozen → ∃ t, exec (.strokeEnd []) s = .next t ∧ t.pending = s.pending ∧ t.dev.sc.tick = .ended ∧
    t.dev.sc.beat = s.dev.sc.beat ∧ t.dev.perm = s.dev.perm)

/-- SQ_FETCH, KEYWAY_CHANGE_APPLY and SPILL_UNIT_GRANT (R70, R173, R174, R235, R307): the queue at the head of the fetch list reads up to four entries with
one request and its SQ_HEAD moves past them; a durable keyway change takes effect at an edge (after an end due, log entry 78); the oldest waiting key generation gets free units. The slot
ranges (R246, R249, R255): a committed range is refused, waits for its units, or takes effect, and the slots that leave it are zeroised. -/
def Obligations.FetchKeywaySpillAndSlotRanges : Prop :=
  (∀ (l q n : Nat) (rest : List (Nat × Nat)) (s : State), s.dev.sc.fetchList = (l, q) :: rest → 0 < n →
    s.dev.canIssue (s.dev.leaf l).module = true →
    n = min (min 4 (s.dev.fetchable l q)) (2 ^ ((s.dev.leaf l).queue q).sqLog - ((s.dev.leaf l).queue q).sqHead) →
    (s.dev.turnsOf l).length + n ≤ s.dev.sc.leafLimit → s.dev.turns.length + n ≤ 8192 → ∃ t slots, exec .sqFetch s = .next t ∧
    ((t.dev.leaf l).queue q).sqHead = (((s.dev.leaf l).queue q).sqHead + n) % 2 ^ ((s.dev.leaf l).queue q).sqLog ∧ slots.length = n ∧
    readAsked t (s.dev.leaf l).module (s.dev.pasidOf l)
      ((((s.dev.leaf l).queue q).sqBase + 128 * ((s.dev.leaf l).queue q).sqHead) % 2 ^ 64) (128 * n) (.entries slots) ∧
    keepsRest [.leaves, .turns, .sc, .dma0, .dma1, .out] s t) ∧
  (∀ (l q : Nat) (rest : List (Nat × Nat)) (s : State), s.dev.sc.fetchList = (l, q) :: rest → s.dev.fetchable l q = 0 →
    exec .sqFetch s = .next { s with dev := { s.dev with sc := { s.dev.sc with fetchList := rest } } }) ∧
  (∀ (l : Nat) (k : KwChange) (c : KwPending) (x : Turn) (s : State), (s.dev.leaf l).change = some c → c.durable = true → c.change = some k →
    s.dev.sc.tick = .ended → Map.get? s.dev.turns c.slot = some x → x.phase = .waitEdge → x.leaf = l → x.due = none → ∃ t,
    exec (.keywayChangeApply l) s = .next t ∧ (t.dev.leaf l).kw = (s.dev.leaf l).kw.change c.value k ∧ (t.dev.leaf l).change = none ∧
    onlyTurn s t c.slot (wentOn x St.done) ∧ t.dev.kw.cuts = (s.dev.kw.cuts + 1) % 2 ^ 64 ∧ keepsRest [.leaves, .kw, .turns] s t) ∧
  (∀ (slot : Nat) (x : Turn) (o : Op) (s : State), s.dev.turns = [(slot, x)] → x.phase = .waitSpill → x.op = some o →
    (mceKeygenPlan o.z.set4).2.2 ≤ s.dev.freeUnits.length → ∃ t, exec (.spillUnitGrant slot) s = .next t ∧
    Map.get? t.dev.slots.spill slot = some (Map.getD s.dev.slots.spill slot [] ++ s.dev.freeUnits.take (mceKeygenPlan o.z.set4).2.2) ∧
    onlyTurn s t slot { x with phase := .ready } ∧ keepsRest [.slots, .turns] s t) ∧
  (∀ (v : Word) (s : State), hostOpen s → .digest ∉ s.dev.fc.resets → ∃ t, exec (.dgSlotSelWrite v) s = .next t ∧
    t.dev.slots = { s.dev.slots with sel := field v.toNat 0 12, base := (s.dev.leaf (field v.toNat 0 12)).slotBase,
                                     count := (s.dev.leaf (field v.toNat 0 12)).slotCount } ∧ keepsRest [.slots] s t) ∧
  (∀ (s : State), hostOpen s → .digest ∉ s.dev.fc.resets → s.dev.rangeRefused = true → ∃ t, exec .slotRangeCommit s = .next t ∧
    t.dev.slots = { s.dev.slots with refused := true } ∧ t.dev.dg = { s.dev.dg with evt := s.dev.dg.evt ||| 1 } ∧ keepsRest [.slots, .dg] s t) ∧
  (∀ (s : State), hostOpen s → .digest ∉ s.dev.fc.resets → s.dev.rangeRefused = false →
    (rangeUnits s.dev.slots.base s.dev.slots.count).any s.dev.unitOccupied = true → ∃ t, exec .slotRangeCommit s = .next t ∧
    t.dev.slots = { s.dev.slots with refused := false, pend := some (s.dev.slots.sel, s.dev.slots.base, s.dev.slots.count) } ∧
    keepsRest [.slots] s t) ∧
  (∀ (s : State), hostOpen s → .digest ∉ s.dev.fc.resets → s.dev.rangeRefused = false →
    (rangeUnits s.dev.slots.base s.dev.slots.count).any s.dev.unitOccupied = false → ∃ t, exec .slotRangeCommit s = .next t ∧
    t.dev.leaf s.dev.slots.sel = { s.dev.leaf s.dev.slots.sel with slotBase := s.dev.slots.base, slotCount := s.dev.slots.count } ∧
    t.dev.slots.pend = none ∧ t.dev.slots.refused = false ∧ slotsOutsideGone s t s.dev.slots.sel ∧ keepsRest [.slots, .leaves, .vault] s t) ∧
  (∀ (l b n : Nat) (s : State), s.dev.slots.pend = some (l, b, n) → (rangeUnits b n).any s.dev.unitOccupied = false → ∃ t,
    exec .slotRangePendingApply s = .next t ∧ t.dev.leaf l = { s.dev.leaf l with slotBase := b, slotCount := n } ∧ t.dev.slots.pend = none ∧
    slotsOutsideGone s t l ∧ keepsRest [.slots, .leaves, .vault] s t)

/-! ### Generators, scrubbers, entropy -/

/-- MASK_RESEED, MASK_STARVED and STORE_SCRUB_STEP (R199 to R202, R209, R252, R258, R260, R351): a due reseed takes a seed from the internal region and
is due again after 4,096 beats; 65,536 beats overdue starves; a scrub step counts what it corrects and ends the turns that own what it cannot. -/
def Obligations.GeneratorsReseedAndStoresAreScrubbed : Prop :=
  (∀ (g : GenId) (s : State), genExists g = true → (∀ n, g = .tumbler n → n < s.dev.tu.length) → (∀ n, g = .bolt n → n < s.dev.bo.length) →
    s.dev.canDraw 32 = true → (s.dev.maskGen g).seeded = true → s.dev.hg.cmd.job = none → (∀ e ∈ s.dev.turns, e.2.phase ≠ .waitEntropy) →
    (s.dev.maskGen g).starved = true ∨ met s.dev.sc.beat (s.dev.maskGen g).due = true → ∃ t, exec (.maskReseed g) s = .next t ∧
    t.dev.maskGen g = { seeded := true, seed := s.dev.ns.lineBytes 32, ctr := 0, starved := false, due := (s.dev.sc.beat + 4096) % 2 ^ 48,
                        reseeds := min ((s.dev.maskGen g).reseeds + 1) 65535 } ∧
    linesTaken s t 32 ∧ keepsRest [.ns, .tu, .bo, .bb] s t) ∧
  (∀ (g : GenId) (s : State), genExists g = true → (∀ n, g = .tumbler n → n < s.dev.tu.length) → (∀ n, g = .bolt n → n < s.dev.bo.length) →
    s.dev.canDraw 32 = true → (s.dev.maskGen g).seeded = false → s.dev.hg.cmd.job = none → (∀ e ∈ s.dev.turns, e.2.phase ≠ .waitEntropy) → ∃ t,
    exec (.maskReseed g) s = .next t ∧ (t.dev.maskGen g).seeded = true ∧ (t.dev.maskGen g).seed = s.dev.ns.lineBytes 32 ∧
    (t.dev.maskGen g).due = (s.dev.sc.beat + 4096) % 2 ^ 48 ∧ linesTaken s t 32 ∧ keepsRest [.ns, .tu, .bo, .bb] s t) ∧
  (∀ (g : GenId) (s : State), genExists g = true → (∀ n, g = .tumbler n → n < s.dev.tu.length) → (∀ n, g = .bolt n → n < s.dev.bo.length) →
    (s.dev.maskGen g).seeded = true → (s.dev.maskGen g).starved = false → 65536 ≤ (s.dev.maskGen g).overdue s.dev.sc.beat → ∃ t,
    exec (.maskStarved g) s = .next t ∧ (t.dev.maskGen g).starved = true ∧
    raisedIn s t (match g with | .tumbler n => 24 * n + 6 | .bolt n => 768 + 12 * n + 9 | .bank => 1001) ∧ keepsRest [.tu, .bo, .bb, .fc] s t) ∧
  (∀ (n : Nat) (spot : StoreSpot) (s : State), n < s.dev.tu.length → s.dev.scrubs (s.dev.tumbler n) = true →
    s.dev.spotOn (.tumbler n) spot = true → ∃ t, exec (.storeScrubStep (.tumbler n) .clean spot) s = .next t ∧
    t.dev.tumbler n = (if (s.dev.tumbler n).scrubPos = 4681
      then { s.dev.tumbler n with scrubPos := 0, scrubPasses := ((s.dev.tumbler n).scrubPasses + 1) % 2 ^ 32 }
      else { s.dev.tumbler n with scrubPos := (s.dev.tumbler n).scrubPos + 1 }) ∧ keepsRest [.tu] s t) ∧
  (∀ (n : Nat) (spot : StoreSpot) (s : State), n < s.dev.tu.length → s.dev.scrubs (s.dev.tumbler n) = true →
    s.dev.spotOn (.tumbler n) spot = true → ∃ t,
    exec (.storeScrubStep (.tumbler n) .corrected spot) s = .next t ∧ (t.dev.tumbler n).ce = min ((s.dev.tumbler n).ce + 1) 65535 ∧
    (t.dev.tumbler n).evt = (s.dev.tumbler n).evt ||| 1 ∧ raisedIn s t (24 * n) ∧ keepsRest [.tu, .fc] s t) ∧
  (∀ (n slot : Nat) (x : Turn) (s : State), n < s.dev.tu.length → s.dev.scrubs (s.dev.tumbler n) = true → Map.get? s.dev.turns slot = some x →
    x.bolt = false → x.home = some n → x.ending = none → ∃ t, exec (.storeScrubStep (.tumbler n) .uncorrectable (.cells [slot])) s = .next t ∧
    onlyTurn s t slot (x.setDue St.memoryFault) ∧ (t.dev.tumbler n).ue = min ((s.dev.tumbler n).ue + 1) 65535 ∧ raisedIn s t (24 * n + 2) ∧
    keepsRest [.tu, .turns, .fc] s t) ∧
  (∀ (n : Nat) (spot : StoreSpot) (s : State), n < s.dev.tu.length → s.dev.scrubs (s.dev.tumbler n) = true → spot = .blank ∨ spot = .free → ∃ t,
    exec (.storeScrubStep (.tumbler n) .uncorrectable spot) s = .next t ∧ (t.dev.tumbler n).ue = min ((s.dev.tumbler n).ue + 1) 65535 ∧
    raisedIn s t (24 * n + 4) ∧ keepsRest [.tu, .fc] s t) ∧
  (∀ (n : Nat) (spot : StoreSpot) (s : State), n < s.dev.bo.length → s.dev.scrubs (s.dev.bolt n) = true → s.dev.spotOn (.bolt n) spot = true → ∃ t,
    exec (.storeScrubStep (.bolt n) .corrected spot) s = .next t ∧ (t.dev.bolt n).ce = min ((s.dev.bolt n).ce + 1) 65535 ∧
    raisedIn s t (768 + 12 * n) ∧ keepsRest [.bo, .fc] s t) ∧
  (∀ (h a : Nat) (spot : StoreSpot) (s : State), s.dev.power.engPll = true → s.dev.vaultHeld a = false → ∃ t,
    exec (.storeScrubStep (.vault h (.free a)) .uncorrectable spot) s = .next t ∧
    t.dev.vault = s.dev.vault.writeN (a / 8 * 8) (zeros 8) ∧ raisedIn s t (1126 + h) ∧ keepsRest [.vault, .fc] s t) ∧
  (∀ (h l : Nat) (spot : StoreSpot) (s : State), s.dev.power.engPll = true → (s.dev.leaf l).state ≠ .free → ∃ t,
    exec (.storeScrubStep (.vault h (.context l)) .uncorrectable spot) s = .next t ∧ (t.dev.leaf l).state = .quiesced ∧
    (t.dev.leaf l).kw = { gen := (s.dev.leaf l).kw.gen } ∧ (t.dev.leaf l).causes = (s.dev.leaf l).causes ||| 0x200 ∧
    (∀ slot x, Map.get? s.dev.turns slot = some x → x.leaf = l → x.ending = none → Map.get? t.dev.turns slot = some (x.setDue St.memoryFault)) ∧
    raisedIn s t (1122 + h) ∧ keepsRest [.leaves, .turns, .fc, .ul, .out] s t)

/-- NOISE_BLOCK_END, PIN_RETRIM_DONE, RAW_CAPTURE_START and RAW_CAPTURE_END (R283 to R285, R297, R298): a failed block is counted, names its test, raises the
pin's source and restarts the pin, or holds it after the fourth in a row; a passed one sets CONSEC to 0, and a master pin's gives its conditioned output; a
capture stops the output, zeroises lines and DRBGs (R293), keeps the pin's bits, and its end restarts the pin. -/
def Obligations.NoisePinsAreTested : Prop :=
  (∀ (blocks : List (BitVec 1024)) (s : State), s.dev.sampling = true → blocks.length = 32 → ∃ t, exec (.noiseBlockEnd blocks) s = .next t ∧
    keepsRest [.ns, .turns, .fc, .ul, .out] s t) ∧
  (∀ (blocks : List (BitVec 1024)) (p test run : Nat) (last : Bool) (s : State), s.dev.sampling = true → blocks.length = 32 → p < 32 →
    p < s.dev.ns.pins.length → (s.dev.ns.pin p).tested = true → s.dev.ns.healthTest (s.dev.ns.pin p) (nth blocks p 0) = (test, run, last) → test ≠ 0 → ∃ t,
    exec (.noiseBlockEnd blocks) s = .next t ∧ (t.dev.ns.pin p).consec = min 4 ((s.dev.ns.pin p).consec + 1) ∧
    (t.dev.ns.pin p).fails = min ((s.dev.ns.pin p).fails + 1) 65535 ∧ (t.dev.ns.pin p).lastTest = test ∧
    (t.dev.ns.pin p).state = (if 3 ≤ (s.dev.ns.pin p).consec then .held else .restarting) ∧ { source := 1328 + p } ∈ t.dev.fc.incoming ∧
    (3 ≤ (s.dev.ns.pin p).consec → isMaster p = true → t.dev.ns.rootBlocked = true ∧ { source := 1376 + p / 8 } ∈ t.dev.fc.incoming) ∧
    (3 ≤ (s.dev.ns.pin p).consec → isMaster p = false → { source := 1385 } ∈ t.dev.fc.incoming)) ∧
  (∀ (blocks : List (BitVec 1024)) (p run : Nat) (last : Bool) (s : State), s.dev.sampling = true → blocks.length = 32 → p < 32 →
    p < s.dev.ns.pins.length → (s.dev.ns.pin p).tested = true → s.dev.ns.healthTest (s.dev.ns.pin p) (nth blocks p 0) = (0, run, last) → ∃ t,
    exec (.noiseBlockEnd blocks) s = .next t ∧ (t.dev.ns.pin p).consec = 0 ∧ (t.dev.ns.pin p).fails = (s.dev.ns.pin p).fails ∧
    (isMaster p = true → (t.dev.ns.pin p).state = .active ∧ (p / 8, conditioned (nth blocks p 0)) ∈ t.dev.ns.masters)) ∧
  (∀ (blocks : List (BitVec 1024)) (s : State), s.dev.sampling = true → blocks.length = 32 → ∃ t, exec (.noiseBlockEnd blocks) s = .next t ∧
    t.dev.ns.raw = (if s.dev.ns.rawActive = true ∧ s.dev.ns.raw.length < 8192 then s.dev.ns.raw ++ [nth blocks s.dev.ns.rawPin 0] else s.dev.ns.raw)) ∧
  (∀ (p : Nat) (s : State), s.dev.sampling = true → p < 32 → (s.dev.ns.pin p).state = .restarting → (s.dev.ns.pin p).trimmed = false →
    (s.dev.ns.pin p).startup = false →
    exec (.pinRetrimDone p) s = .next { s with dev := s.dev.onNs fun n => n.onPin p fun x => { x with trimmed := true } }) ∧
  (∀ (p : Nat) (s : State), s.dev.ns.rawWait = some p → s.dev.ns.notReady = false → s.dev.sampling = true → s.dev.power.applied < 3 → p < s.dev.ns.pins.length → ∃ t,
    exec .rawCaptureStart s = .next t ∧ t.dev.ns.rawActive = true ∧ t.dev.ns.rawPin = p ∧ t.dev.ns.rawWait = none ∧ t.dev.ns.state = .raw ∧
    (t.dev.ns.pin p).state = .raw ∧ t.dev.ns.window = [] ∧ t.dev.ns.internal = [] ∧ t.dev.ns.pre0 = none ∧ t.dev.ns.pre1 = none ∧
    (∀ g ∈ t.dev.ns.drbgs, g = {}) ∧ t.dev.ns.raw = [] ∧ (∀ h ∈ t.dev.ns.held, h.2.2 = 0) ∧
    { source := 1383 } ∈ t.dev.fc.incoming ∧ keepsRest [.ns, .turns, .fc, .ul, .out] s t) ∧
  (∀ (s : State), s.dev.ns.rawActive = true → s.dev.ns.rawPin < s.dev.ns.pins.length → ∃ t, exec .rawCaptureEnd s = .next t ∧
    t.dev.ns.rawActive = false ∧ t.dev.ns.rawDone = true ∧ bitOf t.dev.ns.evt 9 = true ∧
    (t.dev.ns.pin s.dev.ns.rawPin).state = (if s.dev.ns.rawPrev = .held ∨ s.dev.ns.rawPrev = .retired then s.dev.ns.rawPrev else .restarting) ∧
    keepsRest [.ns, .turns, .fc, .ul, .out] s t)

/-- DRBG_GENERATE, ROOT_MATERIAL_REQUEST, ENTROPY_READY_TIMEOUT and ENTROPY_WAIT_EXPIRY (R285, R286, R288, R289, R295, R296): a generate request gives the 16
lines of its DRBG to its region; root material, the hash of the four master outputs, starts IDGEN's engine work, and while it is blocked IDGEN ends with ENTROPY_UNAVAILABLE; a turn that has waited
too long ends with that status; 1 ms without READY raises source 1384. -/
def Obligations.EntropyServesItsConsumers : Prop :=
  (∀ (g : Nat) (s : State), s.dev.canGenerate false = true → s.dev.ns.alive = true → 0 < s.dev.ns.online → s.dev.ns.nextDrbg false = some g → ∃ t,
    exec (.drbgGenerate false) s = .next t ∧ t.dev.ns.window = (s.dev.ns.fill false (nth s.dev.ns.drbgs g {}).generate.1).window ∧
    t.dev.ns.pre0 = (s.dev.ns.fill false (nth s.dev.ns.drbgs g {}).generate.1).pre0 ∧
    t.dev.ns.pre1 = (s.dev.ns.fill false (nth s.dev.ns.drbgs g {}).generate.1).pre1 ∧
    nth t.dev.ns.drbgs g {} = (nth s.dev.ns.drbgs g {}).generate.2 ∧ t.dev.ns.internal = s.dev.ns.internal ∧ keepsRest [.ns, .fc, .ul, .out] s t) ∧
  (∀ (g : Nat) (s : State), s.dev.canGenerate true = true → s.dev.ns.alive = true → 0 < s.dev.ns.online → s.dev.ns.nextDrbg true = some g →
    s.dev.hg.cmd.job = none → (∀ e ∈ s.dev.turns, e.2.phase ≠ .waitEntropy) → ∃ t, exec (.drbgGenerate true) s = .next t ∧
    t.dev.ns.internal = s.dev.ns.internal ++ (List.range 16).map (fun i => slice (nth s.dev.ns.drbgs g {}).generate.1 (64 * i) 64) ∧
    nth t.dev.ns.drbgs g {} = (nth s.dev.ns.drbgs g {}).generate.2 ∧ t.dev.ns.window = s.dev.ns.window ∧ keepsRest [.ns, .fc, .ul, .out] s t) ∧
  (∀ (j : Job) (s : State), s.dev.ns.rootWanted = true → s.dev.ns.rootBlocked = false → s.dev.ns.rootReady = true → s.dev.kw.cmd.job = some j →
    j.op = 1 → j.phase = .waiting → j.unit = none → s.dev.workPossible idgenWork = true → ∃ t, exec .rootMaterialRequest s = .next t ∧
    t.dev.kw.cmd.job = some { j with out := s.dev.ns.rootMaterial, phase := .working idgenWork, plan := idgenWork, failed := false } ∧
    t.dev.ns = { s.dev.ns with rootWanted := false, root := none } ∧ keepsRest [.ns, .kw] s t) ∧
  (∀ (j : Job) (s : State), s.dev.ns.rootWanted = true → s.dev.ns.rootBlocked = true → s.dev.kw.cmd.job = some j → j.op = 1 → j.phase = .waiting →
    ∃ t, exec .rootMaterialRequest s = .next t ∧ endedWith t .keyway St.entropyUnavailable ∧
    t.dev.ns = { s.dev.ns with rootWanted := false } ∧ keepsRest [.ns, .kw] s t) ∧
  (∀ (s : State), s.dev.ns.timedOut = false → s.dev.ns.state ≠ .ready → s.dev.power.rstN = true → ∃ t, exec .entropyReadyTimeout s = .next t ∧
    t.dev.ns = { s.dev.ns with timedOut := true } ∧ raisedIn s t 1384 ∧ keepsRest [.ns, .fc] s t) ∧
  (∀ (slot : Nat) (x : Turn) (s : State), Map.get? s.dev.turns slot = some x → x.phase = .waitEntropy → x.due = none →
    s.dev.ns.state = .failed ∨
      (s.dev.ns.notReady = true ∧ max 1 s.dev.ns.waitLimit * 4096 ≤ (s.dev.sc.beat + 2 ^ 48 - x.entropyWait) % 2 ^ 48) → ∃ t,
    exec (.entropyWaitExpiry slot) s = .next t ∧ onlyTurn s t slot { x with due := some St.entropyUnavailable } ∧ keepsRest [.turns] s t)

/-! ### Calibration, the monitor, the test access port -/

/-- The calibration commands of the hinge (R425 to R431, R439): READ loads the value that WHICH selects; SET, DROP, RESTORE_FACTORY and FACTORY_SET change
the records of CA_ITEM; a write that may not run yet waits; a failed check (in the model's order, log entry 39) is the status and nothing else; a command
while one runs sets OVERRUN. -/
def Obligations.CalibrationCommands : Prop :=
  (∀ (s : State), calIdle s → calKnown s.dev.ca.code s.dev.ca.inst = true → ∃ t, exec .caRead s = .next t ∧ calEnded t St.done ∧
    (s.dev.ca.which ≠ 1 → s.dev.ca.which ≠ 2 → t.dev.ca.value = calWords (s.dev.ca.effective s.dev.ca.code s.dev.ca.inst)) ∧
    (s.dev.ca.which = 1 → t.dev.ca.value = calWords (s.dev.ca.factoryValue s.dev.ca.code s.dev.ca.inst)) ∧ keepsRest [.ca] s t) ∧
  (∀ (s : State), calIdle s → calKnown s.dev.ca.code s.dev.ca.inst = false → ∃ t, exec .caRead s = .next t ∧ calEnded t St.badArgument ∧
    t.dev.ca.value = s.dev.ca.value ∧ keepsRest [.ca] s t) ∧
  (∀ (s : State), calIdle s → s.dev.calCheck (calJob s 2) = none → s.dev.calMayWrite = true → ∃ t, exec (.caSet false) s = .next t ∧
    calEnded t St.done ∧ Map.get? t.dev.ca.overlay (calKey s.dev.ca.code s.dev.ca.inst) = some { value := s.dev.ca.bytes } ∧
    t.dev.ca.evt = s.dev.ca.evt ||| 1 ∧ t.dev.ca.factory = s.dev.ca.factory ∧
    (s.dev.ca.code ≠ 0x08 → calKey s.dev.ca.code s.dev.ca.inst ∈ t.dev.ca.pend ∧ t.dev.power = s.dev.power) ∧
    (s.dev.ca.code = 0x08 → t.dev.power = { s.dev.power with warn := u8 (fit 32 s.dev.ca.bytes) 0, crit := u8 (fit 32 s.dev.ca.bytes) 1 }) ∧
    keepsRest [.ca, .power] s t) ∧
  (∀ (s : State), calIdle s → s.dev.calCheck (calJob s 3) = none → s.dev.calMayWrite = true → ∃ t, exec (.caDrop false) s = .next t ∧
    calEnded t St.done ∧ t.dev.ca.overlay = Map.erase s.dev.ca.overlay (calKey s.dev.ca.code s.dev.ca.inst) ∧
    t.dev.ca.factory = s.dev.ca.factory ∧ t.dev.ca.evt = s.dev.ca.evt ||| 1 ∧ keepsRest [.ca, .power] s t) ∧
  (∀ (s : State), calIdle s → s.dev.calCheck { op := 4 } = none → s.dev.ca.overlay = [] → ∃ t, exec (.caRestoreFactory []) s = .next t ∧
    calEnded t St.done ∧ t.dev.ca.overlay = [] ∧ t.dev.ca.evt = s.dev.ca.evt ||| 2 ∧ keepsRest [.ca, .power] s t) ∧
  (∀ (k : Nat) (r : CalRec) (s : State), calIdle s → s.dev.calCheck { op := 4 } = none → s.dev.ca.overlay = [(k, r)] → s.dev.calMayWrite = true → ∃ t,
    exec (.caRestoreFactory []) s = .next t ∧ calEnded t St.done ∧ t.dev.ca.overlay = [] ∧ t.dev.ca.evt = s.dev.ca.evt ||| 2 ∧
    t.dev.ca.factory = s.dev.ca.factory ∧ keepsRest [.ca, .power] s t) ∧
  (∀ (s : State), calIdle s → s.dev.calCheck (calJob s 5) = none → s.dev.calMayWrite = true → ∃ t, exec (.caFactorySet false) s = .next t ∧
    calEnded t St.done ∧ Map.get? t.dev.ca.factory (calKey s.dev.ca.code s.dev.ca.inst) = some { value := s.dev.ca.bytes } ∧
    t.dev.ca.overlay = s.dev.ca.overlay ∧ t.dev.ca.evt = s.dev.ca.evt ∧ keepsRest [.ca] s t) ∧
  (∀ (s : State), calIdle s → s.dev.calCheck (calJob s 2) = none → s.dev.calMayWrite = false → ∃ t, exec (.caSet false) s = .next t ∧
    t.dev.ca = { s.dev.ca with jobs := [calJob s 2] } ∧ keepsRest [.ca] s t) ∧
  (∀ (op : Nat) (c : Instr) (st : Status) (s : State), (op, c) ∈ [(2, Instr.caSet false), (3, .caDrop false), (5, .caFactorySet false)] →
    calIdle s → s.dev.calCheck (calJob s op) = some st → ∃ t, exec c s = .next t ∧ calEnded t st ∧
    t.dev.ca.overlay = s.dev.ca.overlay ∧ t.dev.ca.factory = s.dev.ca.factory ∧ (st = St.rightMissing → { source := 1492 } ∈ t.dev.fc.incoming) ∧
    keepsRest [.ca, .hs, .fc, .ul, .out] s t) ∧
  (∀ c ∈ calRows, ∀ (s : State), hostOpen s → s.dev.ca.jobs ≠ [] →
    exec c s = .next { s with dev := s.dev.onCa fun a => { a with cmd := { a.cmd with overrun := true } } })

/-- The monitor's reports (R432, R434, R435): each line is answered with its values and `ok`, and only the rate is confirmed; while the monitor is silent no
line does anything, and in Scrapped only `ver`, `hasp` and `faults` are answered. The layout of a line is the model's (log entry 37). -/
def Obligations.MonitorReports : Prop :=
  (∀ (s : State), monitorHeard s → ∃ t, exec .monHelp s = .next t ∧ monReplied s t [.monitor "help" [], okLine]) ∧
  (∀ (s : State), monitorHeard s → ∃ t, exec .monVer s = .next t ∧
    monReplied s t [.monitor "ver" [s.dev.readId 0, s.dev.readId 4, Config.serial, s.dev.mc.bank, ((s.dev.mc.ver (s.dev.mc.bank == 1)).getD 0)],
      okLine]) ∧
  (∀ (s : State), monitorHeard s → ∃ t, exec .monHasp s = .next t ∧ monReplied s t [.monitor "hasp" [s.dev.hasp, s.dev.hs.rights, s.dev.hs.boot], okLine]) ∧
  (∀ (s : State), monitorHeard s → ∃ t, exec .monBeats s = .next t ∧
    monReplied s t [.monitor "beats" [s.dev.sc.beat, s.dev.power.applied, s.dev.turns.length], okLine]) ∧
  (∀ (s : State), monitorHeard s → ∃ t, exec .monFaults s = .next t ∧
    monReplied s t [.monitor "faults" (s.dev.readFc 0x08 :: (List.range 1536).filter fun n => s.dev.fc.sticky.getLsbD n), okLine]) ∧
  (∀ (s : State), monitorHeard s → ∃ t, exec .monWard s = .next t ∧
    monReplied s t [.monitor "ward" [s.dev.tp.sticky, s.dev.tp.wardLast, s.dev.tp.rekeys], okLine]) ∧
  (∀ (s : State), monitorHeard s → ∃ t, exec .monNoise s = .next t ∧
    monReplied s t [.monitor "noise" (s.dev.readNs 0 :: (List.range 32).flatMap fun p => [(s.dev.ns.pin p).state.code, (s.dev.ns.pin p).consec]),
      okLine]) ∧
  (∀ (code inst : Nat) (s : State), monitorHeard s → calKnown code inst = true → ∃ t, exec (.monCal code inst) s = .next t ∧
    monReplied s t [.monitor "cal" (s.dev.ca.source code inst :: calWords (s.dev.ca.effective code inst)), okLine]) ∧
  (∀ (code inst : Nat) (s : State), monitorHeard s → calKnown code inst = false → ∃ t, exec (.monCal code inst) s = .next t ∧
    monReplied s t [errLine St.badArgument]) ∧
  (∀ (s : State), monitorHeard s → ∃ t, exec .monPatch s = .next t ∧
    monReplied s t [.monitor "patch" (s.dev.readMc 0 ::
      (List.range 4).flatMap fun k => [s.dev.readMc (0x20 + 4 * k), s.dev.readMc (0x30 + 4 * k), s.dev.readMc (0x40 + 4 * k)]), okLine]) ∧
  (∀ c ∈ monRows, ∀ (s : State), s.dev.monitorOn = false → exec c s = .next s) ∧
  (∀ c ∈ monRows, ∀ (s : State), s.dev.scrapped = true → c ∉ [Instr.monVer, .monHasp, .monFaults] → exec c s = .next s) ∧
  (∀ (s : State), s.dev.monitorOn = true → s.dev.jt.holds = false → s.dev.scrapped = true → ∃ t, exec .monHasp s = .next t ∧
    monReplied s t [.monitor "hasp" [8, s.dev.hs.rights, s.dev.hs.boot], okLine])

/-- The monitor's commands (R333, R429 to R431, R433, R435 to R438): with its right a peek, dump, poke or clear is an access of BAR0; without it `err 60a0`
and the debug-access fault; a certificate adds its rights, a refused one none; the calibration commands share their engine; a rate lasts once confirmed. -/
def Obligations.MonitorCommands : Prop :=
  (∀ (src : Nat) (s : State), monitorHeard s → s.dev.right 1 = true → src < 1536 → ∃ t, exec (.monFaultsClear src) s = .next t ∧
    t.dev.fc = s.dev.fc.clearSticky (src / 32) (2 ^ (src % 32)) ∧ t.dev.out = s.dev.out ++ [okLine] ∧ keepsRest [.ca, .fc, .out] s t) ∧
  (∀ (c : Instr) (s : State), monitorHeard s → s.dev.right 1 = false →
    (∃ src, c = .monFaultsClear src) ∨ (∃ off v, c = .monPoke off v) → ∃ t, exec c s = .next t ∧
    deniedIn s t ∧ t.dev.ca.evt = s.dev.ca.evt ||| 4 ∧ t.dev.out.getLast? = some (errLine St.rightMissing) ∧
    keepsRest [.hs, .fc, .ca, .ul, .out] s t) ∧
  (∀ (c : Instr) (s : State), monitorHeard s → s.dev.right 0 = false → (∃ off, c = .monPeek off) ∨ (∃ off n, c = .monDump off n) → ∃ t,
    exec c s = .next t ∧ deniedIn s t ∧ t.dev.ca.evt = s.dev.ca.evt ||| 4 ∧ t.dev.out.getLast? = some (errLine St.rightMissing) ∧
    keepsRest [.hs, .fc, .ca, .ul, .out] s t) ∧
  (∀ (s : State), monitorHeard s → s.dev.right 0 = true → noShadow s (0x4000000 + 0x24) → ∃ t, exec (.monPeek 0x24) s = .next t ∧
    monReplied s t [.monitor "peek" [s.dev.hg.scratch], okLine]) ∧
  (∀ (off : Nat) (s : State), monitorHeard s → s.dev.right 0 = true → off % 4 = 0 → off < 0x4000000 → ∃ t v, exec (.monPeek off) s = .next t ∧
    t.dev.out.dropLast.getLast? = some (.monitor "peek" [v]) ∧ t.dev.out.getLast? = some okLine ∧
    keepsRest [.ca, .ns, .mc, .hs, .fc, .ul, .pairs, .fresh, .out] s t) ∧
  (∀ (off : Nat) (s : State), monitorHeard s → s.dev.right 0 = true → off % 4 ≠ 0 → ∃ t, exec (.monPeek off) s = .next t ∧
    raisedIn s t 1232 ∧ t.dev.out = s.dev.out ++ [errLine St.badArgument] ∧ keepsRest [.ca, .fc, .out] s t) ∧
  (∀ (s : State), monitorHeard s → s.dev.right 0 = true → noShadow s (0x4000000 + 0x20) → noShadow s (0x4000000 + 0x24) → ∃ t,
    exec (.monDump 0x20 2) s = .next t ∧ monReplied s t [.monitor "dump" [s.dev.live 0x20, s.dev.hg.scratch], okLine]) ∧
  (∀ (off n : Nat) (s : State), monitorHeard s → s.dev.right 0 = true → n = 0 ∨ 256 < n → ∃ t, exec (.monDump off n) s = .next t ∧
    monReplied s t [errLine St.badArgument]) ∧
  (∀ (v : Word) (s : State), monitorHeard s → s.dev.right 1 = true → ∃ t, exec (.monPoke 0x24 v) s = .next t ∧
    t.dev.hg = { s.dev.hg with scratch := v.toNat } ∧ t.dev.out = s.dev.out ++ [okLine] ∧ keepsRest [.hg, .ca, .out] s t) ∧
  (∀ (cert : Bytes) (s : State), monitorHeard s → ∃ t, exec (.monOpen cert) s = .next t ∧
    ((s.dev.certEarly cert false).or (s.dev.certLate cert false) = none →
      t.dev.hs.rights = s.dev.hs.rights ||| u8 cert 4 ∧ raisedIn s t 1494 ∧ t.dev.out.getLast? = some okLine) ∧
    (∀ st, (s.dev.certEarly cert false).or (s.dev.certLate cert false) = some st → st ≠ St.done →
      t.dev.hs.rights = s.dev.hs.rights ∧ raisedIn s t 1493 ∧ t.dev.out.getLast? = some (errLine st)) ∧
    keepsRest [.hs, .fc, .ca, .ul, .out] s t) ∧
  (∀ c ∈ [Instr.monOpenTimeout, .monBadLine true, .monBadLine false], ∀ (s : State), monitorHeard s →
    exec c s = .next { s with dev := s.dev.emit (errLine St.badArgument) }) ∧
  (∀ (s : State), monitorHeard s → ∃ t, exec .monDrop s = .next t ∧ t.dev.hs = { s.dev.hs with rights := 0 } ∧ t.dev.out = s.dev.out ++ [okLine] ∧
    keepsRest [.hs, .ca, .out] s t) ∧
  (∀ (rate : Nat) (s : State), monitorHeard s → rate < 8 → ∃ t, exec (.monBaud rate) s = .next t ∧
    t.dev.ca = { s.dev.ca with baud := rate, baudTrial := true } ∧ t.dev.out = s.dev.out ++ [okLine] ∧ keepsRest [.ca, .out] s t) ∧
  (∀ (s : State), s.dev.ca.baudTrial = true → ∃ t, exec .monBaudTimeout s = .next t ∧
    t.dev.ca = { s.dev.ca with baud := 0, baudTrial := false } ∧ keepsRest [.ca] s t) ∧
  (∀ (code inst : Nat) (v : Bytes) (s : State), monitorHeard s → s.dev.ca.jobs = [] → s.dev.calMayWrite = true → code ≠ 0x08 →
    s.dev.calCheck { op := 2, code := code, inst := inst, value := fit 32 v } = none → ∃ t, exec (.monCalSet code inst v false) s = .next t ∧
    Map.get? t.dev.ca.overlay (calKey code inst) = some { value := fit 32 v } ∧ t.dev.ca.jobs = [] ∧ t.dev.out = s.dev.out ++ [okLine] ∧
    keepsRest [.ca, .out] s t) ∧
  (∀ (code inst : Nat) (s : State), monitorHeard s → s.dev.ca.jobs = [] → s.dev.calMayWrite = true →
    s.dev.calCheck { op := 3, code := code, inst := inst } = none → ∃ t, exec (.monCalDrop code inst false) s = .next t ∧
    t.dev.ca.overlay = Map.erase s.dev.ca.overlay (calKey code inst) ∧ t.dev.ca.jobs = [] ∧ t.dev.out = s.dev.out ++ [okLine] ∧
    keepsRest [.ca, .power, .out] s t) ∧
  (∀ (s : State), monitorHeard s → s.dev.ca.jobs = [] → s.dev.ca.overlay = [] → s.dev.calCheck { op := 4 } = none → ∃ t,
    exec (.monCalRestore []) s = .next t ∧ t.dev.ca.overlay = [] ∧ t.dev.ca.jobs = [] ∧ t.dev.ca.evt = s.dev.ca.evt ||| 2 ∧
    t.dev.out = s.dev.out ++ [okLine] ∧ keepsRest [.ca, .power, .out] s t)

/-- The test access port (R330, R332, R333, R454, R455; 32-bit boundary and scan bits, log entry 38): its public instructions under JTAG_PUBLIC, secure ones under JTAG_SECURE, and OPEN, take effect with
power on it; without the right an instruction acts as BYPASS and the fault is raised; in the shackle state only IDCODE, STATUS and BYPASS act. -/
def Obligations.TestAccessPort : Prop :=
  (∀ (s : State), s.dev.tapOn = true → ∃ t, exec .tapReset s = .next t ∧ t.dev.jt = { s.dev.jt with ir := .idcode } ∧ keepsRest [.jt] s t) ∧
  (∀ (s : State), s.dev.tapOn = true → ∃ t, exec .idcode s = .next t ∧ t.dev.jt.ir = .idcode ∧ t.dev.out = s.dev.out ++ [.tdo 0x11000353 32] ∧
    keepsRest [.jt, .out] s t) ∧
  (∀ (s : State), s.dev.tapOn = true → ∃ t, exec .bypass s = .next t ∧ t.dev.jt = { s.dev.jt with ir := .bypass } ∧
    t.dev.out = s.dev.out ++ [.tdo 0 1] ∧ keepsRest [.jt, .out] s t) ∧
  (∀ (s : State), s.dev.tapOn = true → s.dev.shackled = false → ∃ t v, exec .extest s = .next t ∧ t.dev.jt = { s.dev.jt with ir := .extest } ∧
    t.dev.out = s.dev.out ++ [.tdo v 32] ∧ keepsRest [.jt, .out, .fresh] s t) ∧
  (∀ (p : Word) (s : State), s.dev.tapOn = true → s.dev.shackled = false → ∃ t v, exec (.samplePreload p) s = .next t ∧
    t.dev.jt = { ir := .sample, boundary := p.toNat } ∧ t.dev.out = s.dev.out ++ [.tdo v 32] ∧ keepsRest [.jt, .out, .fresh] s t) ∧
  (∀ (c : Instr) (ir : TapIr) (s : State), (c = .highz ∧ ir = .highz) ∨ (c = .clamp ∧ ir = .clamp) → s.dev.tapOn = true → s.dev.shackled = false →
    s.dev.right 2 = true → ∃ t, exec c s = .next t ∧ t.dev.jt = { s.dev.jt with ir := ir } ∧ t.dev.jt.holds = true ∧
    t.dev.out = s.dev.out ++ [.tdo 0 1] ∧ keepsRest [.jt, .out] s t) ∧
  (∀ c ∈ [Instr.highz, .clamp], ∀ (s : State), s.dev.tapOn = true → s.dev.shackled = false → s.dev.right 2 = false → ∃ t, exec c s = .next t ∧
    t.dev.jt = { s.dev.jt with ir := .bypass } ∧ t.dev.out.getLast? = some (.tdo 0 1) ∧ deniedIn s t ∧
    keepsRest [.jt, .hs, .fc, .ul, .out] s t) ∧
  (∀ (cert : Bytes) (s : State), s.dev.tapOn = true → s.dev.shackled = false → ∃ t, exec (.jtagOpen cert) s = .next t ∧ t.dev.jt.ir = .jtagOpen ∧
    ((s.dev.certEarly cert false).or (s.dev.certLate cert false) = none →
      t.dev.hs.rights = s.dev.hs.rights ||| u8 cert 4 ∧ raisedIn s t 1494 ∧ t.dev.out.getLast? = some (.tdo 0 16)) ∧
    (∀ st, (s.dev.certEarly cert false).or (s.dev.certLate cert false) = some st →
      t.dev.hs.rights = s.dev.hs.rights ∧ raisedIn s t 1493 ∧ t.dev.out.getLast? = some (.tdo st.toNat 16)) ∧
    keepsRest [.jt, .hs, .fc, .ul, .out] s t) ∧
  (∀ (s : State), s.dev.tapOn = true → ∃ t, exec .jtagStatus s = .next t ∧ t.dev.jt.ir = .jtagStatus ∧
    t.dev.out = s.dev.out ++ [.tdo (s.dev.readHs 0 + 2 ^ 32 * s.dev.readHs 4) 64] ∧ keepsRest [.jt, .out] s t) ∧
  (∀ (op : Byte) (s : State), s.dev.tapOn = true → s.dev.shackled = false → 0x80 ≤ op.toNat → op.toNat ≠ 0xFF → s.dev.right 3 = true → ∃ t v,
    exec (.jtagSecureInstruction op) s = .next t ∧ t.dev.jt = { s.dev.jt with ir := .secure op.toNat } ∧ t.dev.out = s.dev.out ++ [.tdo v 32] ∧
    keepsRest [.jt, .out, .fresh] s t) ∧
  (∀ (op : Byte) (s : State), s.dev.tapOn = true → s.dev.shackled = false → 0x80 ≤ op.toNat → op.toNat ≠ 0xFF → s.dev.right 3 = false → ∃ t,
    exec (.jtagSecureInstruction op) s = .next t ∧ t.dev.jt = { s.dev.jt with ir := .bypass } ∧ raisedIn s t 1497 ∧
    t.dev.out = s.dev.out ++ [.tdo 0 1] ∧ keepsRest [.jt, .fc, .out] s t) ∧
  (∀ c ∈ [Instr.extest, .samplePreload 0, .highz, .clamp, .jtagOpen [], .jtagSecureInstruction 0x80], ∀ (s : State),
    s.dev.tapOn = true → s.dev.shackled = true → exec c s = exec .bypass s)

/-! ### Tamper, the fault collector -/

/-- The tamper rows (R337, R339 to R349, R445, R446): an event below its threshold is counted in its window; at the threshold the source triggers and its
response level acts, on backup power into the backup log; a window without a trigger is cleared; a source and the polarity are set unless locked, and
changed lines are masked. -/
def Obligations.TamperSourcesCountAndRespond : Prop :=
  (∀ (n : Nat) (x : TSrc) (s : State), s.dev.aon.dead = false → 8 ≤ n → n < 32 → s.dev.tp.srcs[n]? = some x → s.dev.tp.counts n = true →
    x.openW = true → x.age s.dev.aon.rtc < x.ticks → x.count + 1 < x.need → ∃ t, exec (.tamperEvent [n]) s = .next t ∧
    t.dev.tp = { s.dev.tp with srcs := modifyAt s.dev.tp.srcs n fun y => { y with count := y.count + 1 } } ∧ keepsRest [.tp] s t) ∧
  (∀ (n : Nat) (x : TSrc) (s : State), s.dev.aon.dead = false → 8 ≤ n → n < 32 → s.dev.tp.srcs[n]? = some x → s.dev.tp.counts n = true →
    x.openW = false ∨ x.ticks ≤ x.age s.dev.aon.rtc → 1 < x.need → ∃ t, exec (.tamperEvent [n]) s = .next t ∧
    t.dev.tp = { s.dev.tp with srcs := modifyAt s.dev.tp.srcs n fun y => { y with count := 1, openW := true, opened := s.dev.aon.rtc } } ∧
    keepsRest [.tp] s t) ∧
  (∀ (n : Nat) (x : TSrc) (s : State), s.dev.aon.dead = false → s.dev.aon.onBackup = false → s.dev.power.off = false → n < 32 →
    s.dev.tp.srcs[n]? = some x → s.dev.tp.counts n = true → x.need ≤ 1 → s.dev.tp.level n ≤ 1 → ∃ t, exec (.tamperEvent [n]) s = .next t ∧
    t.dev.tp.sticky = s.dev.tp.sticky ||| 2 ^ n ∧ (nth t.dev.tp.srcs n {}).count = 0 ∧ raisedIn s t (1392 + n) ∧
    t.dev.tp.evt = (if s.dev.tp.level n = 1 then s.dev.tp.evt ||| 1 else s.dev.tp.evt) ∧ keepsRest [.tp, .fc, .nv, .ul, .out] s t) ∧
  (∀ (n : Nat) (x : TSrc) (s : State), s.dev.aon.dead = false → s.dev.aon.onBackup = false → s.dev.power.off = false → n < 32 →
    s.dev.tp.srcs[n]? = some x → s.dev.tp.counts n = true → x.need ≤ 1 → s.dev.tp.level n = 2 → s.dev.aon.share ≠ [] → ∃ t,
    exec (.tamperEvent [n]) s = .next t ∧ t.dev.aon = { s.dev.aon with share := [] } ∧ t.dev.kw.valid = false ∧
    t.dev.tp.evt = s.dev.tp.evt ||| 5 ∧ { source := 1392 + n } ∈ t.dev.fc.incoming ∧ { source := 1506 } ∈ t.dev.fc.incoming ∧
    keepsRest [.tp, .aon, .kw, .fc, .nv, .ul, .out] s t) ∧
  (∀ (n : Nat) (x : TSrc) (s : State), s.dev.aon.dead = false → s.dev.aon.onBackup = false → s.dev.power.off = false → n < 32 →
    s.dev.tp.srcs[n]? = some x → s.dev.tp.counts n = true → x.need ≤ 1 → s.dev.tp.level n = 3 → s.dev.shackled = false → ∃ t,
    exec (.tamperEvent [n]) s = .next t ∧ t.dev.shackled = true ∧ t.dev.aon.share = [] ∧ t.dev.turns = [] ∧ t.dev.leaves = [] ∧
    t.dev.vault = [] ∧ t.dev.perm = s.dev.perm ∧ t.dev.fc.shSrc = (if s.dev.fc.shValid = true then s.dev.fc.shSrc else 1392 + n)) ∧
  (∀ (n : Nat) (x : TSrc) (s : State), s.dev.aon.dead = false → s.dev.aon.onBackup = true → n < 32 → s.dev.tp.srcs[n]? = some x →
    s.dev.tp.counts n = true → x.need ≤ 1 → ∃ t, exec (.tamperEvent [n]) s = .next t ∧ t.dev.tp.bktrig = s.dev.tp.bktrig ||| 2 ^ n ∧
    t.dev.tp.bkCount = min (s.dev.tp.bkCount + 1) 65535 ∧ t.dev.tp.bkLast = s.dev.aon.rtc ∧ t.dev.tp.bkLastSrc = n ∧
    t.dev.tp.pendShackle = (s.dev.tp.pendShackle || decide (3 ≤ s.dev.tp.level n)) ∧
    t.dev.aon = { s.dev.aon with share := if s.dev.tp.level n < 2 then s.dev.aon.share else [] } ∧ keepsRest [.tp, .aon] s t) ∧
  (∀ (n : Nat) (x : TSrc) (s : State), n < 32 → s.dev.tp.srcs[n]? = some x → x.openW = true → x.ticks ≤ x.age s.dev.aon.rtc → ∃ t,
    exec (.tamperWindowExpiry n) s = .next t ∧
    t.dev.tp = { s.dev.tp with srcs := modifyAt s.dev.tp.srcs n fun y => { y with count := 0, openW := false } } ∧ keepsRest [.tp] s t) ∧
  (∀ (n : Nat) (x : TSrc) (v : Word) (s : State), hostOpen s → n < 32 → s.dev.tp.srcs[n]? = some x → s.dev.tp.lock = false → ∃ t,
    exec (.tpSrcCfgWrite n v) s = .next t ∧ (nth t.dev.tp.srcs n {}).cfg = tpCfgBits v.toNat ∧
    (∀ k, k ≠ n → t.dev.tp.srcs[k]? = s.dev.tp.srcs[k]?) ∧ keepsRest [.tp] s t) ∧
  (∀ (n : Nat) (v : Word) (s : State), hostOpen s → n < 32 → s.dev.tp.lock = true → tpCfgBits v.toNat ≠ (nth s.dev.tp.srcs n {}).cfg → ∃ t,
    exec (.tpSrcCfgWrite n v) s = .next t ∧ t.dev.tp = s.dev.tp ∧ raisedIn s t 1529 ∧ keepsRest [.fc] s t) ∧
  (∀ (n : Nat) (s : State), n < 32 → (nth s.dev.tp.srcs n {}).settling = true → ∃ t, exec (.tamperSettleEnd n) s = .next t ∧
    t.dev.tp = { s.dev.tp with srcs := modifyAt s.dev.tp.srcs n fun y => { y with settling := false } } ∧ keepsRest [.tp] s t) ∧
  (∀ (v : Word) (s : State), hostOpen s → s.dev.lr.lock = false → field v.toNat 0 4 ^^^ s.dev.aon.pol ≠ 0 → ∃ t,
    exec (.tamperPolWrite v) s = .next t ∧ t.dev.aon = { s.dev.aon with pol := field v.toNat 0 4 } ∧
    t.dev.tp.polMask = s.dev.tp.polMask ||| (field v.toNat 0 4 ^^^ s.dev.aon.pol) ∧ t.dev.tp.sticky = s.dev.tp.sticky ∧
    keepsRest [.aon, .tp] s t) ∧
  (∀ (v : Word) (s : State), hostOpen s → s.dev.lr.lock = true → field v.toNat 0 4 ^^^ s.dev.aon.pol ≠ 0 →
    exec (.tamperPolWrite v) s = .next { s with dev := s.dev.raiseSrc 1531 }) ∧
  (∀ (lines : BitVec 4) (s : State), s.dev.tp.polMask ≠ 0 →
    (∀ k, k < 4 → bitOf s.dev.tp.polMask k = true → bitOf lines.toNat k = bitOf s.dev.aon.pol k) → ∃ t,
    exec (.tamperPolMaskEnd lines) s = .next t ∧ t.dev.tp = { s.dev.tp with polMask := 0 } ∧
    t.dev.aon = { s.dev.aon with tamperIn := lines.toNat } ∧ keepsRest [.tp, .aon] s t) ∧
  (∀ (k : Nat) (lines : BitVec 4) (s : State), s.dev.aon.dead = false → k < 4 →
    (∀ j, j < 4 → ((bitOf s.dev.tp.polMask j = true ∧ bitOf lines.toNat j ≠ bitOf s.dev.aon.pol j) ↔ j = k)) →
    exec (.tamperPolMaskEnd lines) s = exec (.tamperEvent [28 + k]) { s with dev := { s.dev with
      tp := { s.dev.tp with polMask := 0 }, aon := { s.dev.aon with tamperIn := lines.toNat } } })

/-- The collector (R350, R352 to R359, R361, R363): a raise sets its sticky bit, FC_FIRST and FC_COUNT, and the reactions of its effective set that are not
subsumed act once; traps reach the core with an evidence record; ALIVE starts again once no source with PIN is sticky; a parity error raises source 1520,
which always holds the shackle state. -/
def Obligations.CollectorReacts : Prop :=
  (∀ (n : Nat) (s : State), raisedAlone s n → s.dev.fc.effective n = 0 → ∃ t, exec (.faultRaise [{ source := n }]) s = .next t ∧
    t.dev.fc.sticky = s.dev.fc.sticky ||| BitVec.ofNat 1536 (2 ^ n) ∧
    (s.dev.fc.sticky = 0 → t.dev.fc.firstValid = true ∧ t.dev.fc.first = n) ∧
    t.dev.fc.count = min (s.dev.fc.count + (if s.dev.fc.sticky.getLsbD n = true then 1 else 0)) 65535 ∧ t.dev.fc.evt = s.dev.fc.evt ∧
    t.dev.fc.traps = s.dev.fc.traps ∧ t.dev.fc.alive = s.dev.fc.alive ∧ keepsRest [.fc] s t) ∧
  (∀ (n : Nat) (s : State), raisedAlone s n → ¬ reacts s n 0x3C → s.dev.fc.sticky.getLsbD n = false → ∃ t,
    exec (.faultRaise [{ source := n }]) s = .next t ∧ t.dev.fc.sticky.getLsbD n = true ∧
    t.dev.fc.evt = (if s.dev.fc.effective n &&& 1 ≠ 0 then s.dev.fc.evt ||| 1 else s.dev.fc.evt) ∧
    (reacts s n 2 → s.dev.fc.shackled = false → n ∈ t.dev.fc.traps) ∧ (¬ reacts s n 2 → t.dev.fc.traps = s.dev.fc.traps) ∧
    keepsRest [.fc, .ul, .out] s t) ∧
  (∀ (n : Nat) (s : State), raisedAlone s n → ¬ reacts s n 0x3C → s.dev.fc.sticky.getLsbD n = true → ∃ t,
    exec (.faultRaise [{ source := n }]) s = .next t ∧ t.dev.fc.sticky = s.dev.fc.sticky ∧ t.dev.fc.count = min (s.dev.fc.count + 1) 65535 ∧
    t.dev.fc.evt = s.dev.fc.evt ∧ t.dev.fc.traps = s.dev.fc.traps ∧ keepsRest [.fc] s t) ∧
  (∀ (n : Nat) (s : State), raisedAlone s n → ¬ reacts s n 0x2C → reacts s n 0x10 → ∃ t, exec (.faultRaise [{ source := n }]) s = .next t ∧
    t.dev.fc.alive = false ∧ t.dev.fc.aliveStopped = true ∧ bitOf t.dev.fc.evt 2 = true ∧ t.dev.lr.alarmActive = (s.dev.lr.alarmActive || s.dev.lr.tokenEn) ∧
    keepsRest [.fc, .lr, .ul, .out] s t) ∧
  (∀ (n : Nat) (s : State), raisedAlone s n → ¬ reacts s n 0x28 → reacts s n 4 → ∃ t, exec (.faultRaise [{ source := n }]) s = .next t ∧
    t.pending = s.pending ∧ (∀ b ∈ blocksOf n, b ∈ t.dev.fc.resets) ∧ t.dev.fc.sticky.getLsbD n = true ∧ t.dev.perm = s.dev.perm) ∧
  (∀ (n : Nat) (s : State), raisedAlone s n → ¬ reacts s n 0x20 → reacts s n 8 → ∃ t, exec (.faultRaise [{ source := n }]) s = .next t ∧
    t.pending = s.pending ∧ t.dev.fc.cause = resetCode .collector ∧ t.dev.fc.causeSrc = n ∧ t.dev.turns = [] ∧ t.dev.leaves = [] ∧
    t.dev.fc.sticky.getLsbD n = true ∧ t.dev.perm = s.dev.perm) ∧
  (∀ (n : Nat) (s : State), raisedAlone s n → reacts s n 0x20 → s.dev.fc.shackled = false → ∃ t, exec (.faultRaise [{ source := n }]) s = .next t ∧
    t.pending = s.pending ∧ t.dev.shackled = true ∧ t.dev.fc.shSrc = (if s.dev.fc.shValid = true then s.dev.fc.shSrc else n) ∧ t.dev.turns = [] ∧
    t.dev.leaves = [] ∧ t.dev.vault = [] ∧ t.dev.fc.aliveStopped = true ∧ t.dev.perm = s.dev.perm) ∧
  (∀ (raises : List Raise) (r : Raise) (s : State), s.dev.collects = true → (∀ x ∈ raises, assigned x.source = true) → r ∈ raises → ∃ t,
    exec (.faultRaise raises) s = .next t ∧ t.dev.fc.sticky.getLsbD r.source = true) ∧
  (∀ (s : State), s.dev.fc.traps ≠ [] → s.dev.coreRuns = true → ∃ t, exec .trapDelivery s = .next t ∧
    t.dev.fc = { s.dev.fc with traps := [], evt := s.dev.fc.evt ||| 2 } ∧
    t.dev.nv.evq.map Evidence.src = s.dev.nv.evq.map Evidence.src ++ s.dev.fc.traps ∧ keepsRest [.fc, .nv] s t) ∧
  (∀ (s : State), s.dev.serves 0 = true → s.dev.shackled = false → s.dev.mc.romOnly = false → s.dev.fc.aliveStopped = true →
    s.dev.fc.pinStuck = false → ∃ t, exec .aliveRestart s = .next t ∧
    t.dev.fc = { s.dev.fc with alive := s.dev.power.boot == 4, aliveStopped := false } ∧ t.dev.lr = { s.dev.lr with alarmActive := false } ∧
    keepsRest [.fc, .lr] s t) ∧
  (∀ (s : State), s.dev.serves 0 = true → s.dev.shackled = false → s.dev.mc.romOnly = false → s.dev.fc.pinStuck = true →
    exec .aliveRestart s = .next s) ∧
  (∀ (bad : List Nat) (s : State), s.dev.power.hkPll = true → bad ≠ [] →
    exec (.fcParityScan bad) s = .next { s with dev := s.dev.raiseSrc 1520 }) ∧
  (∀ (s : State), s.dev.power.hkPll = true → exec (.fcParityScan []) s = .next s) ∧
  (∀ (s : State), reacts s 1520 0x20)

/-! ### Non-volatile memory -/

/-- COMMIT_START, COMMIT_DURABLE and EVIDENCE_RECORD_WRITE (R307, R367, R370 to R373, R377, R379, R380): the head of the queue is under way and nothing has
changed; durable, its value takes effect and its requester is told; a commit that would lower a counter fails; a record goes to the pinned part while
that has room, else to the ring. -/
def Obligations.CommitsAndEvidenceAreWritten : Prop :=
  (∀ (c : Commit) (rest : List Commit) (s : State), s.dev.mayCommit = true → s.dev.nv.queue = c :: rest → s.dev.lowers c.val = false → ∃ t,
    exec (.commitStart false) s = .next t ∧ t.dev.nv.current = some c ∧ t.dev.nv.queue = rest ∧ t.dev.nv.cuts = s.dev.nv.cuts ∧
    t.dev.nv.gens = s.dev.nv.gens ∧ t.dev.nv.fwVer = s.dev.nv.fwVer ∧ t.dev.nv.seq = s.dev.nv.seq ∧ keepsRest [.nv] s t) ∧
  (∀ (v : CommitVal) (rest : List Commit) (s : State), s.dev.mayCommit = true → s.dev.nv.queue = { val := v } :: rest → s.dev.lowers v = true → ∃ t,
    exec (.commitStart false) s = .next t ∧ t.dev.nv.current = none ∧ t.dev.nv.queue = rest ∧ t.dev.nv.fwVer = s.dev.nv.fwVer ∧
    t.dev.nv.patchVer = s.dev.nv.patchVer ∧ t.dev.nv.evt = s.dev.nv.evt ||| 8 ∧ raisedIn s t 1287 ∧ keepsRest [.nv, .fc, .ul, .out] s t) ∧
  (∀ (c : Commit) (rest : List Commit) (s : State), s.dev.mayCommit = true → s.dev.nv.queue = c :: rest → s.dev.lowers c.val = false →
    s.dev.nv.relocs < 16384 → ∃ t, exec (.commitStart true) s = .next t ∧ t.dev.nv.current = some c ∧ t.dev.nv.relocs = s.dev.nv.relocs + 1 ∧
    raisedIn s t 1285 ∧ keepsRest [.nv, .fc, .ul, .out] s t) ∧
  (∀ (l n : Nat) (c : KwPending) (x : Turn) (s : State), s.dev.nv.current = some { val := .cut l n, why := .keyway l } →
    (s.dev.leaf l).change = some c → c.change ≠ none → Map.get? s.dev.turns c.slot = some x → x.leaf = l → x.phase = .waitCommit → ∃ t,
    exec .commitDurable s = .next t ∧ t.dev.nv.current = none ∧ t.dev.cut l = n % 2 ^ 64 ∧ (∀ k, k ≠ l → t.dev.cut k = s.dev.cut k) ∧
    (t.dev.leaf l).change = some { c with durable := true } ∧ (t.dev.leaf l).kw = (s.dev.leaf l).kw ∧
    onlyTurn s t c.slot { x with phase := .waitEdge } ∧ keepsRest [.nv, .leaves, .turns] s t) ∧
  (∀ (l g c : Nat) (j : Job) (s : State), s.dev.nv.current = some { val := .leafGen l g true c, why := .job .hinge } → s.dev.hg.cmd.job = some j →
    j.op = 1 → j.leaf = l → ∃ t, exec .commitDurable s = .next t ∧ endedWith t .hinge St.done ∧ (t.dev.leaf l).state = .active ∧
    (t.dev.leaf l).pasid = field (nth j.args 2 0) 0 20 ∧ (t.dev.leaf l).module = field (nth j.args 2 0) 24 1 ∧ t.dev.gen l = g ∧
    l ∈ t.dev.nv.lives ∧ keepsRest [.nv, .hg, .leaves, .ul] s t) ∧
  (∀ (v : CommitVal) (s : State), s.dev.nv.current = some { val := v } → ∃ t, exec .commitDurable s = .next t ∧ t.dev.nv.current = none ∧
    (∀ n, v = .fwVersion n → t.dev.nv.fwVer = n) ∧ (∀ n, v = .bootCount n → t.dev.hs.boot = min n (2 ^ 32 - 1)) ∧
    (∀ n, v = .epoch n → t.dev.kw.epoch = n) ∧ (∀ bs, v = .intkeys bs → t.dev.hs.intkeys = bs) ∧
    (∀ k n, v = .patchVersion k n → t.dev.nv.patchVer = modifyAt s.dev.nv.patchVer k fun _ => n) ∧ keepsRest [.nv, .hs, .kw] s t) ∧
  (∀ (e : Evidence) (rest : List Evidence) (s : State), s.dev.nv.evq = e :: rest → s.dev.nv.inhibit = false → s.dev.nv.current = none →
    s.dev.nv.ready = true → s.dev.pinnedType e = true → s.dev.nv.evPinned < 4096 → ∃ t, exec (.evidenceRecordWrite false) s = .next t ∧
    Map.get? t.dev.nv.evl s.dev.nv.evPinned = some { e with seq := s.dev.nv.evSeq % 2 ^ 32, pinned := true } ∧ t.dev.nv.evq = rest ∧
    t.dev.nv.evPinned = s.dev.nv.evPinned + 1 ∧ t.dev.nv.evSeq = s.dev.nv.evSeq + 1 ∧ t.dev.nv.evHead = s.dev.nv.evHead ∧ keepsRest [.nv] s t) ∧
  (∀ (e : Evidence) (rest : List Evidence) (s : State), s.dev.nv.evq = e :: rest → s.dev.nv.inhibit = false → s.dev.nv.current = none →
    s.dev.nv.ready = true → s.dev.pinnedType e = false → s.dev.nv.evHead < 12287 → ∃ t, exec (.evidenceRecordWrite false) s = .next t ∧
    Map.get? t.dev.nv.evl (4096 + s.dev.nv.evHead) = some { e with seq := s.dev.nv.evSeq % 2 ^ 32 } ∧ t.dev.nv.evq = rest ∧
    t.dev.nv.evHead = s.dev.nv.evHead + 1 ∧ t.dev.nv.evSeq = s.dev.nv.evSeq + 1 ∧ t.dev.nv.evPinned = s.dev.nv.evPinned ∧ keepsRest [.nv] s t) ∧
  (∀ (e : Evidence) (rest : List Evidence) (s : State), s.dev.nv.evq = e :: rest → s.dev.nv.inhibit = false → s.dev.nv.current = none →
    s.dev.nv.ready = true → s.dev.pinnedType e = true → 4096 ≤ s.dev.nv.evPinned → s.dev.nv.evHead = 12287 → ∃ t,
    exec (.evidenceRecordWrite false) s = .next t ∧ Map.get? t.dev.nv.evl 16383 = some { e with seq := s.dev.nv.evSeq % 2 ^ 32 } ∧
    t.dev.nv.evHead = 0 ∧ t.dev.nv.evWraps = min (s.dev.nv.evWraps + 1) 65535 ∧ { source := 1291 } ∈ t.dev.fc.incoming ∧
    { source := 1290 } ∈ t.dev.fc.incoming ∧ keepsRest [.nv, .fc, .ul, .out] s t)

/-- R381: a write of r to NV_EVL_INDEX loads NV_EVL_DATA0 to NV_EVL_DATA15 with the line of record r as stored, whatever rights are held. -/
def Obligations.EvidenceIndexLoadsItsRecord : Prop :=
  ∀ (v : Word) (e : Evidence) (s : State), hostOpen s → Map.get? s.dev.nv.evl (v.toNat % 2 ^ 14) = some e → ∃ t,
    exec (.evlIndexWrite v) s = .next t ∧ t.dev.nv.evIndex = v.toNat % 2 ^ 14 ∧
    t.dev.nv.evData = ((List.range 16).map fun j => u32 e.bytes (4 * j)) ∧ t.dev.nv.evl = s.dev.nv.evl ∧ keepsRest [.nv] s t

/-- UF_READ, UF_WRITE and MRAM_SCRUB_GROUP (R364, R366, R367, R370, R378, R382): a read loads the buffer with its line; a write puts the buffer into the
line and nothing else, and waits while the supply inhibits it; a scrub group counts what it corrects, loses what it cannot, and the pass ends after
its last group; stage 3 pauses it (R403). -/
def Obligations.UserFlashAndScrub : Prop :=
  (∀ (s : State), hostOpen s → ∃ t, exec (.ufRead false) s = .next t ∧
    t.dev.nv = { s.dev.nv with ufUe := false, ufBusy := 0,
                               ufBuf := (List.range 16).map fun j => u32 (s.dev.perm.flash.readN (64 * s.dev.nv.ufLine) 64) (4 * j) } ∧
    keepsRest [.nv] s t) ∧
  (∀ (s : State), hostOpen s → ∃ t, exec (.ufRead true) s = .next t ∧ t.dev.nv.ufUe = true ∧ t.dev.nv.ufBusy = 0 ∧
    t.dev.nv.evt = s.dev.nv.evt ||| 0x10 ∧ t.dev.nv.ue = min (s.dev.nv.ue + 1) 65535 ∧ raisedIn s t 1282 ∧
    keepsRest [.nv, .fc, .ul, .out, .fresh] s t) ∧
  (∀ (s : State), Inv s → hostOpen s → s.dev.nv.ufBusy ≠ 2 → s.dev.nv.inhibit = false → ∃ t, exec (.ufWrite false) s = .next t ∧
    t.dev.perm = { s.dev.perm with flash := s.dev.perm.flash.writeN (64 * s.dev.nv.ufLine) s.dev.nv.ufBytes } ∧
    (∀ i, i < s.dev.nv.ufBytes.length → t.dev.perm.flash.read (64 * s.dev.nv.ufLine + i) = nth s.dev.nv.ufBytes i 0) ∧
    (∀ a, a < 64 * s.dev.nv.ufLine ∨ 64 * s.dev.nv.ufLine + s.dev.nv.ufBytes.length ≤ a →
      t.dev.perm.flash.read a = s.dev.perm.flash.read a) ∧ t.dev.nv = { s.dev.nv with ufBusy := 0 } ∧ keepsRest [.perm, .nv] s t) ∧
  (∀ (s : State), hostOpen s → s.dev.nv.ufBusy ≠ 2 → s.dev.nv.inhibit = true → ∃ t, exec (.ufWrite false) s = .next t ∧
    t.dev.nv = { s.dev.nv with ufBusy := 2 } ∧ keepsRest [.nv] s t) ∧
  (∀ (s : State), s.dev.nv.ufBusy = 2 → s.dev.nv.inhibit = false → s.dev.shackled = false → ∃ t, exec (.ufWrite false) s = .next t ∧
    t.dev.perm = { s.dev.perm with flash := s.dev.perm.flash.writeN (64 * s.dev.nv.ufLine) s.dev.nv.ufBytes } ∧ t.dev.nv = { s.dev.nv with ufBusy := 0 } ∧
    keepsRest [.perm, .nv] s t) ∧
  (∀ (line : Nat) (f : Bool) (s : State), s.dev.nv.scrubActive = true → s.dev.nv.inhibit = false → s.dev.power.applied < 3 → s.dev.nv.scrubLine < 65535 → ∃ t,
    exec (.mramScrubGroup .clean line f) s = .next t ∧ t.dev.nv = { s.dev.nv with scrubLine := s.dev.nv.scrubLine + 1 } ∧ keepsRest [.nv] s t) ∧
  (∀ (line : Nat) (f : Bool) (s : State), s.dev.nv.scrubActive = true → s.dev.nv.inhibit = false → s.dev.power.applied < 3 → 65535 ≤ s.dev.nv.scrubLine → ∃ t,
    exec (.mramScrubGroup .clean line f) s = .next t ∧ t.dev.nv.scrubActive = false ∧ t.dev.nv.scrubLine = 0 ∧
    t.dev.nv.scrubPasses = min (s.dev.nv.scrubPasses + 1) 65535 ∧ t.dev.nv.evt = s.dev.nv.evt ||| 1 ∧ keepsRest [.nv, .ul, .out] s t) ∧
  (∀ (line : Nat) (s : State), s.dev.nv.scrubActive = true → s.dev.nv.inhibit = false → s.dev.power.applied < 3 → s.dev.nv.scrubLine < 65535 → ∃ t,
    exec (.mramScrubGroup .corrected line false) s = .next t ∧
    t.dev.nv = { s.dev.nv with scrubLine := s.dev.nv.scrubLine + 1, ce := min (s.dev.nv.ce + 1) 65535 } ∧ raisedIn s t 1280 ∧
    keepsRest [.nv, .fc] s t) ∧
  (∀ (line : Nat) (f : Bool) (s : State), s.dev.nv.scrubActive = true → s.dev.nv.inhibit = false → s.dev.power.applied < 3 → s.dev.nv.scrubLine < 65535 →
    ownLine line = false → ∃ t, exec (.mramScrubGroup .uncorrectable line f) s = .next t ∧ t.dev.nv.ue = min (s.dev.nv.ue + 1) 65535 ∧
    t.dev.nv.evt = s.dev.nv.evt ||| 0x10 ∧ raisedIn s t 1282 ∧
    (0x640000 ≤ 64 * line → 64 * line < 0x680000 → t.dev.ca = s.dev.ca.loseLine true (line - 0x19000)) ∧
    keepsRest [.nv, .fc, .mc, .ca, .kw, .ul, .out] s t) ∧
  (∀ (line : Nat) (f : Bool) (s : State), s.dev.nv.scrubActive = true → s.dev.nv.inhibit = false → s.dev.power.applied < 3 → s.dev.nv.scrubLine < 65535 →
    s.dev.nv.relocs < 16384 → ∃ t, exec (.mramScrubGroup .outerCorrected line f) s = .next t ∧ t.dev.nv.rs = min (s.dev.nv.rs + 1) 65535 ∧
    t.dev.nv.relocs = s.dev.nv.relocs + 1 ∧ t.dev.nv.evt = s.dev.nv.evt ||| 0x20 ∧
    t.dev.fc = { s.dev.fc with incoming := s.dev.fc.incoming ++ [{ source := 1281 }, { source := 1285 }] } ∧
    keepsRest [.nv, .fc, .ul, .out] s t) ∧
  (∀ (r : EccResult) (line : Nat) (f : Bool) (s : State), 3 ≤ s.dev.power.applied → exec (.mramScrubGroup r line f) s = .fault .cannotOccur) ∧
  (∀ (line : Nat) (c : Cal), (∀ n, Map.get? c.lines n = none) → (c.loseLine true line).overlay = Map.erase c.overlay (line / 2) ∧
    (c.loseLine true line).overlayBad = true)

/-! ### The latch ring -/

/-- R451: an ALARM frame from another node that reaches this one sets LR_EVT.ALARM_RX, records its SRC and LEVEL, and does nothing else: it is forwarded as
any frame is, and no source is raised. -/
def Obligations.AlarmFramesAreRecordedOnly : Prop :=
  ∀ (f : RxFrame) (s : State), frameGoesOn s f.bytes → u8 f.bytes 0 = 1 → u8 f.bytes 1 = 0xFF → ∃ t,
    exec (.ringAlarmRx f) s = .next t ∧ exec (.ringFrameRx f) s = .next t ∧ bitOf t.dev.lr.evt 0 = true ∧ t.dev.lr.alarmSrc = u8 f.bytes 2 ∧
    t.dev.lr.alarmLevel = u8 f.bytes 5 ∧ t.dev.lr.alarmActive = s.dev.lr.alarmActive ∧ t.dev.lr.own = s.dev.lr.own ∧ t.dev.fc = s.dev.fc ∧
    (s.dev.lr.sending = false → t.dev.lr = { s.dev.lr with evt := s.dev.lr.evt ||| 1, alarmSrc := u8 f.bytes 2, alarmLevel := u8 f.bytes 5,
                                                           rx := min (s.dev.lr.rx + 1) (2 ^ 32 - 1) }) ∧ keepsRest [.lr, .out] s t

/-- The latch ring (R448 to R450, R452, R453): a bad frame is counted and dropped, one that has come round or has no hop left is removed, any other is
forwarded with one hop less, from the one buffer while an own frame is sent; a READ is answered from the status page; the path opens after reset. -/
def Obligations.RingForwardsAnswersAndSends : Prop :=
  (∀ (f : RxFrame) (s : State), s.dev.onRing = true → frameGood f.bytes = false → ∃ t, exec (.ringFrameRx f) s = .next t ∧
    t.dev.lr = { s.dev.lr with crcErrs := min (s.dev.lr.crcErrs + 1) 65535, evt := s.dev.lr.evt ||| 2 } ∧ keepsRest [.lr] s t) ∧
  (∀ (f : RxFrame) (s : State), s.dev.onRing = true → frameGood f.bytes = true → u8 f.bytes 2 = s.dev.lr.node ∨ u8 f.bytes 3 = 1 → ∃ t,
    exec (.ringFrameRx f) s = .next t ∧ t.dev.lr = { s.dev.lr with rx := min (s.dev.lr.rx + 1) (2 ^ 32 - 1) } ∧ keepsRest [.lr] s t) ∧
  (∀ (f : RxFrame) (s : State), frameGoesOn s f.bytes → u8 f.bytes 1 ≠ 0xFF → ¬ (u8 f.bytes 0 = 2 ∧ u8 f.bytes 1 = s.dev.lr.node) →
    s.dev.lr.sending = false → s.dev.jt.holds = false → ∃ t, exec (.ringFrameRx f) s = .next t ∧
    t.dev.out = s.dev.out ++ [.ring (frameHop f.bytes)] ∧ t.dev.lr = { s.dev.lr with rx := min (s.dev.lr.rx + 1) (2 ^ 32 - 1) } ∧
    keepsRest [.lr, .out] s t) ∧
  (∀ (f : RxFrame) (s : State), frameGoesOn s f.bytes → u8 f.bytes 1 ≠ 0xFF → ¬ (u8 f.bytes 0 = 2 ∧ u8 f.bytes 1 = s.dev.lr.node) →
    s.dev.lr.sending = true → s.dev.lr.fwd = none → ∃ t, exec (.ringFrameRx f) s = .next t ∧ t.dev.lr.fwd = some (frameHop f.bytes) ∧
    t.dev.lr.drops = s.dev.lr.drops ∧ keepsRest [.lr] s t) ∧
  (∀ (f : RxFrame) (b : Bytes) (s : State), frameGoesOn s f.bytes → u8 f.bytes 1 ≠ 0xFF → ¬ (u8 f.bytes 0 = 2 ∧ u8 f.bytes 1 = s.dev.lr.node) →
    s.dev.lr.sending = true → s.dev.lr.fwd = some b → ∃ t, exec (.ringFrameRx f) s = .next t ∧ t.dev.lr.fwd = some b ∧
    t.dev.lr.drops = min (s.dev.lr.drops + 1) 65535 ∧ keepsRest [.lr] s t) ∧
  (∀ (f : RxFrame) (s : State), frameGoesOn s f.bytes → u8 f.bytes 0 = 2 → u8 f.bytes 1 = s.dev.lr.node → u8 f.bytes 4 = 2 →
    s.dev.lr.mgmtEn = true → ∃ t, exec (.ringRead f) s = .next t ∧ exec (.ringFrameRx f) s = .next t ∧
    t.dev.lr = { s.dev.lr with rx := min (s.dev.lr.rx + 1) (2 ^ 32 - 1), own := s.dev.lr.own ++ [ringFrame 3 (u8 f.bytes 2) s.dev.lr.node 16
      (if u8 f.bytes 6 = 0 ∨ 8 < u8 f.bytes 6 ∨ 16 < u8 f.bytes 5 + u8 f.bytes 6 then []
       else ((({ s.dev with lr := { s.dev.lr with rx := min (s.dev.lr.rx + 1) (2 ^ 32 - 1) } } : Device).statusPage.drop (u8 f.bytes 5)).take
         (u8 f.bytes 6)).foldr (fun w r => leBytes w 4 ++ r) [])] } ∧ keepsRest [.lr] s t) ∧
  (∀ (b : Bytes) (rest : List Bytes) (s : State), s.dev.onRing = true → s.dev.lr.own = b :: rest → s.dev.lr.fwd = none → s.dev.lr.sending = false →
    s.dev.jt.holds = false → ∃ t, exec .ringFrameTx s = .next t ∧ t.dev.out = s.dev.out ++ [.ring b] ∧
    t.dev.lr = { s.dev.lr with own := rest, sending := true } ∧ keepsRest [.lr, .out] s t) ∧
  (∀ (s : State), s.dev.lr.alarmActive = true → s.dev.lr.tokenEn = true → s.dev.fc.aliveStopped = true → s.dev.power.hkPll = true → ∃ t,
    exec .ringAlarmRepeat s = .next t ∧ s.dev.alarmFrame (if s.dev.shackled = true then 3 else 2) ∈ t.dev.lr.own ∧
    t.dev.lr.own.length = s.dev.lr.own.length + 1 ∧ keepsRest [.lr] s t) ∧
  (∀ (s : State), s.dev.lr.passOpen = false → s.dev.power.io = true → s.dev.power.boot ≠ 0 → s.dev.power.hkPll = true → ∃ t,
    exec .passPathOpen s = .next t ∧ t.dev.lr = { s.dev.lr with passOpen := true } ∧ keepsRest [.lr] s t)

/-! ### What engine instructions compute -/

/-- Outcomes of engine instructions (R154, R155, R161, R162, R276, R277, R309): what KEYW.WRAP wraps, KEYW.UNWRAP of the same leaf and keyway gives back,
and so for a wrapped context, which another code does not restore; blocks absorbed by two DIGEST.ABSORBs give the chaining value of one; BN.ADD, BN.SUB
and BN.MUL give the result below the modulus, and BN.INV only an inverse. -/
def Obligations.OutcomesOfEngineWords : Prop :=
  (∀ (d e : Device) (t u : Turn) (z w : ZInstr) (rnd any : Bytes), z.kind = .keywWrap → w.kind = .keywUnwrap → u.leaf = t.leaf →
    e.leaf t.leaf = d.leaf t.leaf → 32 ≤ (d.leaf t.leaf).kw.key.length → rnd.length = 12 → (t.bytes z.a).length < 65536 →
    (d.dataResult t z rnd).outs = [(z.dst, u.bytes w.a, false)] → e.dataResult u w any = .cells [(w.dst, t.bytes z.a)]) ∧
  (∀ (d e : Device) (t u : Turn) (z w : ZInstr) (rnd any : Bytes), z.kind = .ctxSaveWrapped → w.kind = .ctxRestoreWrapped → u.leaf = t.leaf →
    e.leaf t.leaf = d.leaf t.leaf → e.gen t.leaf = d.gen t.leaf → 32 ≤ (d.leaf t.leaf).kw.key.length → rnd.length = 12 →
    (t.bytes z.a).length < 65536 → (d.dataResult t z rnd).outs = [(z.dst, u.bytes w.a, false)] →
    e.dataResult u w any = if t.ctxCode z.a = field w.imm 16 8 then { outs := [(w.dst, t.bytes z.a, t.ctxCode z.a != 0xFF)] }
      else .fail St.contextMismatch) ∧
  (∀ (alg : Nat) (chain x y : Bytes), alg < 10 → chain.length = 200 → x.length % algBlock alg = 0 →
    algAbsorb alg (algAbsorb alg chain x) y = algAbsorb alg chain (x ++ y)) ∧
  (∀ (bolt : Nat) (t : Turn) (z : ZInstr) (rnd : Bytes) (m : Nat), t.modulus.map Prod.snd = some m → beNat (t.bytes z.a) < m → beNat (t.bytes z.b) < m →
    m ≤ 2 ^ (8 * classBytes z.cls) → z.kind = .bnAdd ∨ z.kind = .bnSub ∨ z.kind = .bnMul → ∃ b, boltResult bolt t z rnd = .cells [(z.dst, b)] ∧
    b.length = classBytes z.cls ∧ beNat b < m ∧ (z.kind = .bnAdd → beNat b = (beNat (t.bytes z.a) + beNat (t.bytes z.b)) % m) ∧
    (z.kind = .bnSub → (beNat b + beNat (t.bytes z.b)) % m = beNat (t.bytes z.a)) ∧
    (z.kind = .bnMul → beNat b = beNat (t.bytes z.a) * beNat (t.bytes z.b) % m)) ∧
  (∀ (bolt : Nat) (t : Turn) (z : ZInstr) (rnd : Bytes) (m : Nat), t.modulus.map Prod.snd = some m → m ≤ 2 ^ (8 * classBytes z.cls) → z.kind = .bnInv →
    (boltResult bolt t z rnd).status = St.done → ∃ b, boltResult bolt t z rnd = .cells [(z.dst, b)] ∧ b.length = classBytes z.cls ∧
    beNat (t.bytes z.a) < m ∧ beNat b * beNat (t.bytes z.a) % m = 1 % m)
end

