-- ==== Sys2Proof/Laws/Frame.lean ====
section
/-! SUPPORT. Frames, once for each shared operation: the parts of the device that it may change. A frame of a command is put together from
these with `changesOnly.trans` and `changesOnly.mono`. -/

namespace Sys2Proof.Safety

open Sys2Proof.Machine

theorem changesOnly.refl (ps : List Part) (d : Device) : changesOnly ps d d := by
  intro p _; cases p <;> rfl

theorem changesOnly.trans {ps : List Part} {d e f : Device} (h : changesOnly ps d e) (g : changesOnly ps e f) : changesOnly ps d f := by
  intro p hp
  have a := h p hp
  have b := g p hp
  cases p <;> exact b.trans a

theorem changesOnly.mono {ps qs : List Part} {d e : Device} (h : changesOnly ps d e) (k : ∀ p, p ∈ ps → p ∈ qs) : changesOnly qs d e :=
  fun p hp => h p fun m => hp (k p m)

theorem changesOnly.then {ps qs : List Part} {d e f : Device} (h : changesOnly ps d e) (g : changesOnly qs e f) : changesOnly (ps ++ qs) d f :=
  changesOnly.trans (changesOnly.mono h fun _ => List.mem_append_left _) (changesOnly.mono g fun _ => List.mem_append_right _)

theorem changesOnly.ite {ps : List Part} {d e f : Device} (c : Prop) [Decidable c] (h : changesOnly ps d e) (g : changesOnly ps d f) :
    changesOnly ps d (if c then e else f) := by split <;> assumption

theorem changesOnly_perm (d : Device) (x) : changesOnly [.perm] d { d with perm := x } := by
  intro p hp; cases p <;> first | rfl | exact absurd (by simp) hp

theorem changesOnly_power (d : Device) (x) : changesOnly [.power] d { d with power := x } := by
  intro p hp; cases p <;> first | rfl | exact absurd (by simp) hp

theorem changesOnly_link0 (d : Device) (x) : changesOnly [.link0] d { d with link0 := x } := by
  intro p hp; cases p <;> first | rfl | exact absurd (by simp) hp

theorem changesOnly_link1 (d : Device) (x) : changesOnly [.link1] d { d with link1 := x } := by
  intro p hp; cases p <;> first | rfl | exact absurd (by simp) hp

theorem changesOnly_dma0 (d : Device) (x) : changesOnly [.dma0] d { d with dma0 := x } := by
  intro p hp; cases p <;> first | rfl | exact absurd (by simp) hp

theorem changesOnly_dma1 (d : Device) (x) : changesOnly [.dma1] d { d with dma1 := x } := by
  intro p hp; cases p <;> first | rfl | exact absurd (by simp) hp

theorem changesOnly_ul (d : Device) (x) : changesOnly [.ul] d { d with ul := x } := by
  intro p hp; cases p <;> first | rfl | exact absurd (by simp) hp

theorem changesOnly_hg (d : Device) (x) : changesOnly [.hg] d { d with hg := x } := by
  intro p hp; cases p <;> first | rfl | exact absurd (by simp) hp

theorem changesOnly_leaves (d : Device) (x) : changesOnly [.leaves] d { d with leaves := x } := by
  intro p hp; cases p <;> first | rfl | exact absurd (by simp) hp

theorem changesOnly_sc (d : Device) (x) : changesOnly [.sc] d { d with sc := x } := by
  intro p hp; cases p <;> first | rfl | exact absurd (by simp) hp

theorem changesOnly_turns (d : Device) (x) : changesOnly [.turns] d { d with turns := x } := by
  intro p hp; cases p <;> first | rfl | exact absurd (by simp) hp

theorem changesOnly_tu (d : Device) (x) : changesOnly [.tu, .dirty] d { d with tu := x } := by
  intro p hp; cases p <;> first | rfl | exact absurd (by simp) hp

theorem changesOnly_bo (d : Device) (x) : changesOnly [.bo, .dirty] d { d with bo := x } := by
  intro p hp; cases p <;> first | rfl | exact absurd (by simp) hp

theorem changesOnly_bb (d : Device) (x) : changesOnly [.bb, .dirty] d { d with bb := x } := by
  intro p hp; cases p <;> first | rfl | exact absurd (by simp) hp

theorem changesOnly_bk (d : Device) (x) : changesOnly [.bk] d { d with bk := x } := by
  intro p hp; cases p <;> first | rfl | exact absurd (by simp) hp

theorem changesOnly_dg (d : Device) (x) : changesOnly [.dg] d { d with dg := x } := by
  intro p hp; cases p <;> first | rfl | exact absurd (by simp) hp

theorem changesOnly_slots (d : Device) (x) : changesOnly [.slots] d { d with slots := x } := by
  intro p hp; cases p <;> first | rfl | exact absurd (by simp) hp

theorem changesOnly_ns (d : Device) (x) : changesOnly [.ns] d { d with ns := x } := by
  intro p hp; cases p <;> first | rfl | exact absurd (by simp) hp

theorem changesOnly_kw (d : Device) (x) : changesOnly [.kw] d { d with kw := x } := by
  intro p hp; cases p <;> first | rfl | exact absurd (by simp) hp

theorem changesOnly_hs (d : Device) (x) : changesOnly [.hs] d { d with hs := x } := by
  intro p hp; cases p <;> first | rfl | exact absurd (by simp) hp

theorem changesOnly_tp (d : Device) (x) : changesOnly [.tp] d { d with tp := x } := by
  intro p hp; cases p <;> first | rfl | exact absurd (by simp) hp

theorem changesOnly_fc (d : Device) (x) : changesOnly [.fc] d { d with fc := x } := by
  intro p hp; cases p <;> first | rfl | exact absurd (by simp) hp

theorem changesOnly_nv (d : Device) (x) : changesOnly [.nv] d { d with nv := x } := by
  intro p hp; cases p <;> first | rfl | exact absurd (by simp) hp

theorem changesOnly_vault (d : Device) (x) : changesOnly [.vault] d { d with vault := x } := by
  intro p hp; cases p <;> first | rfl | exact absurd (by simp) hp

theorem changesOnly_mi (d : Device) (x) : changesOnly [.mi] d { d with mi := x } := by
  intro p hp; cases p <;> first | rfl | exact absurd (by simp) hp

theorem changesOnly_mc (d : Device) (x) : changesOnly [.mc] d { d with mc := x } := by
  intro p hp; cases p <;> first | rfl | exact absurd (by simp) hp

theorem changesOnly_ca (d : Device) (x) : changesOnly [.ca] d { d with ca := x } := by
  intro p hp; cases p <;> first | rfl | exact absurd (by simp) hp

theorem changesOnly_lr (d : Device) (x) : changesOnly [.lr] d { d with lr := x } := by
  intro p hp; cases p <;> first | rfl | exact absurd (by simp) hp

theorem changesOnly_jt (d : Device) (x) : changesOnly [.jt] d { d with jt := x } := by
  intro p hp; cases p <;> first | rfl | exact absurd (by simp) hp

theorem changesOnly_aon (d : Device) (x) : changesOnly [.aon] d { d with aon := x } := by
  intro p hp; cases p <;> first | rfl | exact absurd (by simp) hp

theorem changesOnly_pairs (d : Device) (x) : changesOnly [.pairs] d { d with pairs := x } := by
  intro p hp; cases p <;> first | rfl | exact absurd (by simp) hp

theorem changesOnly_out (d : Device) (x) : changesOnly [.out] d { d with out := x } := by
  intro p hp; cases p <;> first | rfl | exact absurd (by simp) hp

theorem changesOnly_fresh (d : Device) (x) : changesOnly [.fresh] d { d with fresh := x } := by
  intro p hp; cases p <;> first | rfl | exact absurd (by simp) hp

theorem changesOnly_when {ps : List Part} {d : Device} {c : Bool} {f : Device → Device} (h : changesOnly ps d (f d)) :
    changesOnly ps d (d.when c f) := by
  unfold Device.when; exact changesOnly.ite _ h (changesOnly.refl _ _)

theorem changesOnly_foldl {α : Type} {ps : List Part} {f : Device → α → Device} (h : ∀ d a, changesOnly ps d (f d a)) (l : List α) (d : Device) :
    changesOnly ps d (l.foldl f d) := by
  induction l generalizing d with
  | nil => exact changesOnly.refl _ _
  | cons a r ih => exact changesOnly.trans (h d a) (ih _)


/-! ### Sending, raising, drawing -/

theorem changesOnly_emit (d : Device) (o : Out) : changesOnly [.out] d (d.emit o) := changesOnly_out _ _
theorem changesOnly_raiseSrc (d : Device) (n : Nat) : changesOnly [.fc] d (d.raiseSrc n) := changesOnly_fc _ _
theorem changesOnly_raiseIn (d : Device) (n slot : Nat) : changesOnly [.fc] d (d.raiseIn n slot) := changesOnly_fc _ _
theorem changesOnly_draw (d : Device) (n : Nat) : changesOnly [.fresh] d (d.draw n).2 := changesOnly_fresh _ _
theorem changesOnly_onLink (d : Device) (m : Nat) (f : Link → Link) : changesOnly [linkPart m] d (d.onLink m f) := by
  unfold Device.onLink linkPart; split
  · exact changesOnly_link0 _ _
  · exact changesOnly_link1 _ _
theorem changesOnly_onDma (d : Device) (m : Nat) (f : Dma → Dma) : changesOnly [dmaPart m] d (d.onDma m f) := by
  unfold Device.onDma dmaPart; split
  · exact changesOnly_dma0 _ _
  · exact changesOnly_dma1 _ _

/-! ### Messages and event registers -/

theorem changesOnly_hingeMsi (d : Device) (v : Nat) : changesOnly [.ul, .out] d (d.hingeMsi v) := by
  unfold Device.hingeMsi
  have u := fun x => changesOnly.mono (changesOnly_ul d x) (qs := [.ul, .out]) (by simp)
  have o := fun x => changesOnly.mono (changesOnly_emit d x) (qs := [.ul, .out]) (by simp)
  dsimp only
  split
  · exact changesOnly.refl _ _
  · split
    · exact u _
    · split
      · exact o _
      · exact u _

theorem changesOnly_leafMsi (d : Device) (l m v : Nat) : changesOnly [.ul, .out] d (d.leafMsi l m v) := by
  unfold Device.leafMsi
  have u := fun x => changesOnly.mono (changesOnly_ul d x) (qs := [.ul, .out]) (by simp)
  have o := fun x => changesOnly.mono (changesOnly_emit d x) (qs := [.ul, .out]) (by simp)
  dsimp only
  split
  · exact u _
  · split
    · exact o _
    · exact u _

theorem changesOnly_modEvt (d : Device) (m bits : Nat) : changesOnly [linkPart m, .ul, .out] d (d.modEvt m bits) := by
  unfold Device.modEvt; exact changesOnly.then (changesOnly_onLink _ _ _) (changesOnly_when (changesOnly_hingeMsi _ _))
theorem changesOnly_dmaEvt (d : Device) (m bits : Nat) : changesOnly [dmaPart m, .ul, .out] d (d.dmaEvt m bits) := by
  unfold Device.dmaEvt; exact changesOnly.then (changesOnly_onDma _ _ _) (changesOnly_when (changesOnly_hingeMsi _ _))
theorem changesOnly_nsEvt (d : Device) (bits : Nat) : changesOnly [.ns, .ul, .out] d (d.nsEvt bits) := by
  unfold Device.nsEvt; exact changesOnly.then (changesOnly_ns _ _) (changesOnly_when (changesOnly_hingeMsi _ _))
theorem changesOnly_nvEvt (d : Device) (bits : Nat) : changesOnly [.nv, .ul, .out] d (d.nvEvt bits) := by
  unfold Device.nvEvt; exact changesOnly.then (changesOnly_nv _ _) (changesOnly_when (changesOnly_hingeMsi _ _))
theorem changesOnly_hsEvt (d : Device) (bits : Nat) : changesOnly [.hs, .ul, .out] d (d.hsEvt bits) := by
  unfold Device.hsEvt; exact changesOnly.then (changesOnly_hs _ _) (changesOnly_when (changesOnly_hingeMsi _ _))
theorem changesOnly_mcEvt (d : Device) (bits : Nat) : changesOnly [.mc, .ul, .out] d (d.mcEvt bits) := by
  unfold Device.mcEvt; exact changesOnly.then (changesOnly_mc _ _) (changesOnly_when (changesOnly_hingeMsi _ _))
theorem changesOnly_powerEvt (d : Device) (bits : Nat) : changesOnly [.power, .ul, .out] d (d.powerEvt bits) := by
  unfold Device.powerEvt; exact changesOnly.then (changesOnly_power _ _) (changesOnly_when (changesOnly_hingeMsi _ _))

/-! ### Leaves, turns, engines -/

theorem changesOnly_setLeaf (d : Device) (l : Nat) (v : Leaf) : changesOnly [.leaves] d (d.setLeaf l v) := changesOnly_leaves _ _
theorem changesOnly_onLeaf (d : Device) (l : Nat) (f : Leaf → Leaf) : changesOnly [.leaves] d (d.onLeaf l f) := changesOnly_leaves _ _
theorem changesOnly_leafCause (d : Device) (l bits : Nat) : changesOnly [.leaves, .ul, .out] d (d.leafCause l bits) := by
  unfold Device.leafCause; exact changesOnly.then (changesOnly_onLeaf _ _ _) (changesOnly_when (changesOnly_hingeMsi _ _))
theorem changesOnly_leafStatus (d : Device) (l bits : Nat) : changesOnly [.leaves, .ul, .out] d (d.leafStatus l bits) := by
  unfold Device.leafStatus; exact changesOnly.then (changesOnly_onLeaf _ _ _) (changesOnly_when (changesOnly_leafMsi _ _ _ _))
theorem changesOnly_onTurn (d : Device) (slot : Nat) (f : Turn → Turn) : changesOnly [.turns] d (d.onTurn slot f) := changesOnly_turns _ _
theorem changesOnly_onTu (d : Device) (n : Nat) (f : Engine → Engine) : changesOnly [.tu, .dirty] d (d.onTu n f) := changesOnly_tu _ _
theorem changesOnly_onBo (d : Device) (n : Nat) (f : Engine → Engine) : changesOnly [.bo, .dirty] d (d.onBo n f) := changesOnly_bo _ _
theorem map_modifyAt {α β : Type} (g : α → β) (f : α → α) (h : ∀ a, g (f a) = g a) (l : List α) (n : Nat) :
    (modifyAt l n f).map g = l.map g := by
  refine List.ext_getElem? fun i => ?_
  simp only [modifyAt, List.getElem?_map, List.getElem?_modify]
  cases l[i]? <;> simp
  split <;> simp [h]

/-- A change of an engine that leaves what waits to be zeroised as it was. -/
theorem changesOnly_onTu_clean (d : Device) (n : Nat) (f : Engine → Engine) (h : ∀ x, unclean (f x) = unclean x) :
    changesOnly [.tu] d (d.onTu n f) := by
  intro p hp
  cases p with
  | tu => exact absurd (by simp) hp
  | dirty => simp only [Part.same, Device.onTu, map_modifyAt _ _ h]
  | _ => rfl

theorem changesOnly_onBo_clean (d : Device) (n : Nat) (f : Engine → Engine) (h : ∀ x, unclean (f x) = unclean x) :
    changesOnly [.bo] d (d.onBo n f) := by
  intro p hp
  cases p with
  | bo => exact absurd (by simp) hp
  | dirty => simp only [Part.same, Device.onBo, map_modifyAt _ _ h]
  | _ => rfl

/-- A change of what waits to be zeroised in an engine changes nothing else. -/
theorem changesOnly_onTu_dirty (d : Device) (n : Nat) (f : Engine → Engine) (h : ∀ x, kept (f x) = kept x) :
    changesOnly [.dirty] d (d.onTu n f) := by
  intro p hp
  cases p with
  | dirty => exact absurd (by simp) hp
  | tu => simp only [Part.same, Device.onTu, map_modifyAt _ _ h]
  | _ => rfl

theorem changesOnly_onBo_dirty (d : Device) (n : Nat) (f : Engine → Engine) (h : ∀ x, kept (f x) = kept x) :
    changesOnly [.dirty] d (d.onBo n f) := by
  intro p hp
  cases p with
  | dirty => exact absurd (by simp) hp
  | bo => simp only [Part.same, Device.onBo, map_modifyAt _ _ h]
  | _ => rfl

theorem changesOnly_tuEvt (d : Device) (n bits : Nat) : changesOnly [.tu] d (d.tuEvt n bits) := changesOnly_onTu_clean _ _ _ fun _ => rfl
theorem changesOnly_boEvt (d : Device) (n bits : Nat) : changesOnly [.bo] d (d.boEvt n bits) := changesOnly_onBo_clean _ _ _ fun _ => rfl
theorem changesOnly_releaseFrames (d : Device) (o : Op) : changesOnly [.dirty] d (d.releaseFrames o) := by
  unfold Device.releaseFrames
  have b : changesOnly [.dirty] d (if o.started && o.shape == .elastic then { d with bb := { d.bb with dirty := d.bb.dirty + 1 } } else d) := by
    split
    · intro p hp; cases p <;> first | rfl | exact absurd (by simp) hp
    · exact changesOnly.refl _ _
  dsimp only
  split
  · exact changesOnly.trans b (changesOnly_onTu_dirty _ _ _ fun _ => rfl)
  · exact changesOnly.trans b (changesOnly_onBo_dirty _ _ _ fun _ => rfl)
  · exact b
theorem changesOnly_releaseStore (d : Device) (slot : Nat) : changesOnly [.dirty] d (d.releaseStore slot) := by
  unfold Device.releaseStore Device.onHome
  split
  · exact changesOnly.refl _ _
  · have b : ∀ (t : Turn), changesOnly [.dirty] d (match t.home with
        | some n => if t.ending.isNone then (if t.bolt then d.onBo n fun e => { e with dirtyBytes := e.dirtyBytes + t.budget }
            else d.onTu n fun e => { e with dirtyBytes := e.dirtyBytes + t.budget }) else d
        | none => d) := by
      intro t
      split
      · split
        · split
          · exact changesOnly_onBo_dirty _ _ _ fun _ => rfl
          · exact changesOnly_onTu_dirty _ _ _ fun _ => rfl
        · exact changesOnly.refl _ _
      · exact changesOnly.refl _ _
    dsimp only
    split
    · exact changesOnly.trans (b _) (changesOnly_releaseFrames _ _)
    · exact b _
theorem changesOnly_evidence (d : Device) (k n : Nat) (w : List Nat) : changesOnly [.nv] d (d.evidence k n w) := changesOnly_nv _ _
theorem changesOnly_commit (d : Device) (v : CommitVal) (w : CommitWhy) : changesOnly [.nv] d (d.commit v w) := changesOnly_nv _ _
theorem changesOnly_onNs (d : Device) (f : Entropy → Entropy) : changesOnly [.ns] d (d.onNs f) := changesOnly_ns _ _
theorem changesOnly_onCa (d : Device) (f : Cal → Cal) : changesOnly [.ca] d (d.onCa f) := changesOnly_ca _ _
theorem changesOnly_onLr (d : Device) (f : Ring → Ring) : changesOnly [.lr] d (d.onLr f) := changesOnly_lr _ _
theorem changesOnly_onMi (d : Device) (f : Inter → Inter) : changesOnly [.mi] d (d.onMi f) := changesOnly_mi _ _
theorem changesOnly_takeLines (d : Device) (n : Nat) : changesOnly [.ns] d (d.takeLines n) := changesOnly_ns _ _
theorem changesOnly_denied (d : Device) : changesOnly [.hs, .ul, .out, .fc] d d.denied := by
  unfold Device.denied; exact changesOnly.then (changesOnly_hsEvt _ _) (changesOnly_raiseSrc _ _)
theorem changesOnly_pinOut (d : Device) (o : Out) : changesOnly [.out] d (d.pinOut o) := by
  unfold Device.pinOut; exact changesOnly.ite _ (changesOnly.refl _ _) (changesOnly_emit _ _)
theorem changesOnly_monLine (d : Device) (x : String) (v : List Nat) : changesOnly [.out] d (d.monLine x v) := changesOnly_pinOut _ _
theorem changesOnly_monEnd (d : Device) (s : Status) : changesOnly [.out] d (d.monEnd s) := by
  unfold Device.monEnd; exact changesOnly.ite _ (changesOnly_monLine _ _ _) (changesOnly_monLine _ _ _)
theorem changesOnly_dropReads (d : Device) (slot : Nat) : changesOnly [.dma0, .dma1] d (d.dropReads slot) := by
  unfold Device.dropReads; exact changesOnly.then (changesOnly_onDma d 0 _) (changesOnly_onDma _ 1 _)

/-! ### DMA -/

theorem changesOnly_issueReads (d : Device) (m : Nat) : changesOnly [dmaPart m, .out] d (d.issueReads m) := by
  unfold Device.issueReads
  split
  · exact changesOnly.refl _ _
  · exact changesOnly.then (changesOnly_onDma _ _ _) (changesOnly_foldl (fun _ _ => changesOnly_emit _ _) _ _)
theorem changesOnly_readReq (d : Device) (m : Nat) (p : Option Nat) (a n : Nat) (w : ReadWhy) :
    changesOnly [dmaPart m, .out] d (d.readReq m p a n w) := by
  unfold Device.readReq
  exact changesOnly.trans (changesOnly.mono (changesOnly_onDma _ _ _) (by simp)) (changesOnly_issueReads _ _)
theorem changesOnly_readParts (d : Device) (m : Nat) (p : Option Nat) (a n : Nat) (w : Nat → ReadWhy) :
    changesOnly [dmaPart m, .out] d (d.readParts m p a n w).1 :=
  changesOnly_foldl (fun _ _ => changesOnly_readReq _ _ _ _ _ _) _ _
theorem changesOnly_writeReq (d : Device) (m : Nat) (w : DmaWrite) : changesOnly [dmaPart m] d (d.writeReq m w) := changesOnly_onDma _ _ _

/-! ### Jobs -/

/-- The part of the device that holds the command registers of a block. -/
def unitPart : JobId → Part
  | .hinge => .hg
  | .keyway => .kw
  | .hasp => .hs
  | .interlock => .mi

theorem changesOnly_onUnit (d : Device) (j : JobId) (f : CmdUnit → CmdUnit) : changesOnly [unitPart j] d (d.onUnit j f) := by
  cases j
  · exact changesOnly_hg _ _
  · exact changesOnly_kw _ _
  · exact changesOnly_hs _ _
  · exact changesOnly_mi _ _
theorem changesOnly_onJob (d : Device) (j : JobId) (f : Job → Job) : changesOnly [unitPart j] d (d.onJob j f) := by
  cases j
  · exact changesOnly_hg _ _
  · exact changesOnly_kw _ _
  · exact changesOnly_hs _ _
  · exact changesOnly_mi _ _
theorem changesOnly_finish (d : Device) (j : JobId) (s : Status) : changesOnly [unitPart j] d (d.finish j s) := changesOnly_onUnit _ _ _
theorem changesOnly_begin (d : Device) (j : JobId) (x : Job) : changesOnly [unitPart j] d (d.begin_ j x) := changesOnly_onUnit _ _ _
theorem changesOnly_answer (d : Device) (j : JobId) (s : Status) (n : Nat) : changesOnly [unitPart j] d (d.answer j s n) :=
  changesOnly_onUnit _ _ _
theorem changesOnly_jobRead (d : Device) (j : JobId) (a n : Nat) : changesOnly [unitPart j, .dma0, .out] d (d.jobRead j a n) := by
  unfold Device.jobRead; exact changesOnly.trans (changesOnly.mono (changesOnly_readParts d 0 none _ _ _) (by simp [dmaPart]))
    (changesOnly.mono (changesOnly_onJob _ _ _) (by simp))
theorem changesOnly_jobWrite (d : Device) (j : JobId) (a : Nat) (b : Bytes) : changesOnly [unitPart j, .dma0] d (d.jobWrite j a b) := by
  unfold Device.jobWrite; exact changesOnly.trans (changesOnly.mono (changesOnly_foldl (fun e _ => changesOnly_writeReq e 0 _) _ _) (by simp [dmaPart]))
    (changesOnly.mono (changesOnly_onJob _ _ _) (by simp))
theorem changesOnly_dropUnit (d : Device) (j : JobId) : changesOnly [unitPart j, .dirty] d (d.dropUnit j) := by
  unfold Device.dropUnit
  have k (d : Device) (f : Job → Job) := changesOnly.mono (changesOnly_onJob d j f) (qs := [unitPart j, .dirty]) (by simp)
  split
  · dsimp only
    split
    · refine changesOnly.trans (changesOnly.mono (changesOnly_onTu_dirty d _ _ ?_) (by simp)) (k _ _); exact fun _ => rfl
    · refine changesOnly.trans (changesOnly.mono (changesOnly_onBo_dirty d _ _ ?_) (by simp)) (k _ _); exact fun _ => rfl
    · exact k _ _
  · exact changesOnly.refl _ _
theorem changesOnly_jobWork (d : Device) (j : JobId) (p : List Seg) : changesOnly [unitPart j, .dirty] d (d.jobWork j p) := by
  unfold Device.jobWork
  exact changesOnly.ite _
    (changesOnly.trans (changesOnly_dropUnit d j) (changesOnly.mono (changesOnly_finish _ _ _) (by simp)))
    (changesOnly.trans (changesOnly_dropUnit d j) (changesOnly.mono (changesOnly_onJob _ _ _) (by simp)))

end Sys2Proof.Safety
end

