-- ==== Sys2Proof/WellFormed.lean ====
section
/-! DEFINITION. Well-formed commands: every operand is one that the interface can carry (a module, turn slot, leaf, tag or source
number that exists; an address inside its window; a length the link allows). -/

namespace Sys2Proof

/-- A port names a module and a leaf number that exist (R15, R32). -/
def Port.wf : Port → Bool
  | .hinge => true
  | .leafWin m leaf => m < 2 && leaf < 4096

/-- A PLL that exists (R11). -/
def Pll.wf : Pll → Bool
  | .engine | .housekeeping => true
  | .ucie m => m < 2

/-- An engine that exists (R7). -/
def EngineId.wf : EngineId → Bool
  | .tumbler n => n < 32
  | .bolt n => n < 16
  | .plainBarrel n => n < 192
  | .maskedBarrel n => n < 64
  | .sha256 n => n < 32
  | .sha512 n => n < 32
  | .aes n => n < 64
  | .mult n => n < 16

/-- A failed read carries at most one request's bytes (R47, R49). -/
def ReadError.wf : ReadError → Bool
  | .ur | .ca | .poison => true
  | .byteCount got => got.length ≤ 4096

/-- An access of at most 64 bytes with an enable bit for each byte (R16). -/
def Access.wf (a : Access) : Bool := a.size ≤ 64 && a.enables < 2 ^ a.size

/-- A spot names turn slots that exist (R201). -/
def StoreSpot.wf : StoreSpot → Bool
  | .cells owners => owners.all (· < 8192)
  | .frame (some slot) => slot < 8192
  | .frame none | .blank | .free => true

/-- A finding names an engine and turns that exist. -/
def StrokeError.wf : StrokeError → Bool
  | .engine e => e.wf
  | .storeUe e spot => e.wf && spot.wf
  | .storeCe e _ => e.wf
  | .invariant slot => slot < 8192
  | .slotUe slot => slot < 8192

/-- A leaf or turn slot that exists. -/
def VaultSpot.wf : VaultSpot → Bool
  | .context leaf => leaf < 4096
  | .spill slot => slot < 8192
  | .free addr => addr < 33554432

/-- A source, a turn slot and a leaf that exist (R350). -/
def Raise.wf (r : Raise) : Bool :=
  r.source < 1536 && (match r.slot with
    | some s => decide (s < 8192)
    | none => true) && (match r.leaf with
    | some l => decide (l < 4096)
    | none => true) && (match r.spot with
    | some x => x.wf
    | none => true)

/-- A store that exists (R193, R256, R364). -/
def StoreId.wf : StoreId → Bool
  | .tumbler n => n < 32
  | .bolt n => n < 16
  | .vault half spot => half < 2 && spot.wf

/-- An injection target that exists. -/
def InjectTarget.wf : InjectTarget → Bool
  | .tumbler n => n < 32
  | .bolt n => n < 16
  | .bank | .digest | .blockArray => true

/-- A generator that exists. -/
def GenId.wf : GenId → Bool
  | .tumbler n => n < 32
  | .bolt n => n < 16
  | .bank => true

/-- A block that exists (R354). -/
def BlockId.wf : BlockId → Bool
  | .tumbler n => n < 32
  | .bolt n => n < 16
  | .link m => m < 2
  | .dma m => m < 2
  | .vaultHalf h => h < 2
  | .bank | .digest | .blockArray | .sched | .entropy | .mgmt | .ring => true

/-- A configuration write: Max_Payload_Size is a power of two from 128 to 4,096 (PCI Express Base). -/
def CfgWrite.wf : CfgWrite → Bool
  | .msixEnable _ => true
  | .maxPayload bytes => [128, 256, 512, 1024, 2048, 4096].contains bytes
  | .other reg _ => reg < 1024

/-- What boot finds names engines that exist. -/
def BootReport.wf (r : BootReport) : Bool :=
  (r.badEngines.all fun e => e.1 < 4 && e.2 < 64) && r.lostDuplex.all (· < 5) && (match r.lostSeq with
    | some n => decide (n < 2 ^ 48)
    | none => true)

/-- Every operand of a command is one the interface can carry. -/
def Instr.wf : Instr → Bool
  | .powerUp => true
  | .powerLoss _ commitCycle => commitCycle ≤ 3000
  | .aonPowerUp _ => true
  | .rstNAssert => true
  | .rstNRelease => true
  | .chipReset _ => true
  | .housekeepingPllLock => true
  | .enginePllLock => true
  | .pllLockLoss pll => pll.wf
  | .bootRomStart wipeFails rows => wipeFails.all (fun k => 1 ≤ k && k ≤ 8) && rows ≤ 3
  | .bootFirmwareStart report => report.wf
  | .bootComplete => true
  | .configRead m reg => m < 2 && reg < 1024
  | .partnerSidebandActive m => m < 2
  | .noPartnerTimeout m => m < 2
  | .linkTrained m rate badTx badRx => m < 2 && rate ≤ 4 && badTx ≤ 64 && badRx ≤ 64
  | .linkRetrain m => m < 2
  | .linkDown m => m < 2
  | .replayThreshold m => m < 2
  | .moduleRetrain m _ => m < 2
  | .moduleEnableWrite _ => true
  | .registerWrite off acc _ => off < 67108864 && acc.wf
  | .pairLoRead port acc => port.wf && acc.off < 67108864 && acc.wf
  | .pairHiRead port acc => port.wf && acc.off < 67108864 && acc.wf
  | .pairLoWrite acc _ => acc.off < 67108864 && acc.wf
  | .pairHiWrite acc _ => acc.off < 67108864 && acc.wf
  | .vaultWindowRead acc => 8388608 ≤ acc.off && acc.off < 16777216 && acc.wf
  | .vaultWindowWrite acc _ => 8388608 ≤ acc.off && acc.off < 16777216 && acc.wf
  | .doorbellWrite m leaf off size _ => m < 2 && leaf < 4096 && off < 65536 && size ≤ 64
  | .randomWindowRead m leaf off size => m < 2 && leaf < 4096 && off < 65536 && size ≤ 64
  | .randomReadRelease m => m < 2
  | .lvtIndexWrite _ => true
  | .lvtCommit _ => true
  | .lvtMaskWrite _ => true
  | .dmaReadComplete m _ data => m < 2 && data.length ≤ 4096
  | .dmaReadError m _ kind => m < 2 && kind.wf
  | .dmaCompletionTimeout m _ => m < 2
  | .dmaWriteFail m => m < 2
  | .resetDone leaf => leaf < 4096
  | .quiesceDeadline leaf => leaf < 4096
  | .quiesceComplete leaf => leaf < 4096
  | .hingeUnknownOpcode _ => true
  | .hingeWorkRestart => true
  | .sqFetch => true
  | .freezePoint => true
  | .beatEdge _ => true
  | .strokeEnd errs => errs.all StrokeError.wf
  | .keywayChangeApply leaf => leaf < 4096
  | .zxNop slot => slot < 8192
  | .zxEnd slot => slot < 8192
  | .zxFence slot => slot < 8192
  | .zxWait slot => slot < 8192
  | .zxSkipIf slot => slot < 8192
  | .zxRepeat slot => slot < 8192
  | .zxAlloc slot => slot < 8192
  | .zxFree slot => slot < 8192
  | .zxLoad slot => slot < 8192
  | .zxStore slot => slot < 8192
  | .zxStoreStream slot => slot < 8192
  | .zxCopyWhole slot => slot < 8192
  | .zxCopySlice slot => slot < 8192
  | .zxCopyAppend slot => slot < 8192
  | .zxCopyCtr slot => slot < 8192
  | .zxZero slot => slot < 8192
  | .zxXor slot => slot < 8192
  | .zxRandFill slot => slot < 8192
  | .zxKeywCut slot => slot < 8192
  | .zxKeywGen slot => slot < 8192
  | .zxKeywClear slot => slot < 8192
  | .zxKeywWrap slot => slot < 8192
  | .zxKeywUnwrap slot => slot < 8192
  | .zxKeywDerive slot => slot < 8192
  | .zxMlkemKeygen slot => slot < 8192
  | .zxMlkemEncaps slot => slot < 8192
  | .zxMlkemDecaps slot => slot < 8192
  | .zxMldsaKeygen slot => slot < 8192
  | .zxMldsaSign slot => slot < 8192
  | .zxMldsaVerify slot => slot < 8192
  | .zxHqcKeygen slot => slot < 8192
  | .zxHqcEncaps slot => slot < 8192
  | .zxHqcDecaps slot => slot < 8192
  | .zxMceKeygen slot => slot < 8192
  | .zxMceEncaps slot => slot < 8192
  | .zxMceDecaps slot => slot < 8192
  | .spillUnitGrant slot => slot < 8192
  | .zxDigestInit slot => slot < 8192
  | .zxDigestAbsorb slot => slot < 8192
  | .zxDigestStream slot => slot < 8192
  | .zxDigestFinal slot => slot < 8192
  | .zxXofSqueeze slot => slot < 8192
  | .zxMacKeystate slot => slot < 8192
  | .zxMacInit slot => slot < 8192
  | .zxMacFinal slot => slot < 8192
  | .zxCmpCt slot => slot < 8192
  | .zxSlhKeygen slot => slot < 8192
  | .zxSlhSign slot => slot < 8192
  | .zxSlhVerify slot => slot < 8192
  | .zxBnSetmod slot => slot < 8192
  | .zxBnAdd slot => slot < 8192
  | .zxBnSub slot => slot < 8192
  | .zxBnMul slot => slot < 8192
  | .zxBnExp slot => slot < 8192
  | .zxBnInv slot => slot < 8192
  | .zxEcKeygen slot => slot < 8192
  | .zxEcSign slot => slot < 8192
  | .zxEcVerify slot => slot < 8192
  | .zxEcDh slot => slot < 8192
  | .zxEcxKeygen slot => slot < 8192
  | .zxEcxMul slot => slot < 8192
  | .zxEdKeygen slot => slot < 8192
  | .zxEdSign slot => slot < 8192
  | .zxEdVerify slot => slot < 8192
  | .zxRsaPub slot => slot < 8192
  | .zxRsaPriv slot => slot < 8192
  | .zxRsaCrt slot => slot < 8192
  | .zxBlkEnc slot => slot < 8192
  | .zxBlkDec slot => slot < 8192
  | .zxGhmGhash slot => slot < 8192
  | .zxGhmXtsSeq slot => slot < 8192
  | .zxCtxSaveVault slot => slot < 8192
  | .zxCtxSaveWrapped slot => slot < 8192
  | .zxCtxRestoreVault slot => slot < 8192
  | .zxCtxRestoreWrapped slot => slot < 8192
  | .storeScrubStep store _ spot => store.wf && spot.wf
  | .errorInject target _ => target.wf
  | .maskReseed gen => gen.wf
  | .maskStarved gen => gen.wf
  | .noiseBlockEnd blocks => blocks.length == 32
  | .pinRetrimDone p => p < 32
  | .drbgGenerate _ => true
  | .rootMaterialRequest => true
  | .entropyReadyTimeout => true
  | .entropyWaitExpiry slot => slot < 8192
  | .rawCaptureStart => true
  | .rawCaptureEnd => true
  | .nsRawDataRead => true
  | .kwUnknownOpcode _ => true
  | .hsUnknownOpcode _ => true
  | .haspOddBurn rows => rows ≤ 3
  | .wipeStep _ => true
  | .haspEvenBurn rows => rows ≤ 3
  | .engineDrainStop => true
  | .patchDrainDeadline => true
  | .engineSelftestEnd _ => true
  | .fwHealthy => true
  | .fwSwapWatchdog => true
  | .mgmtWatchdogExpiry => true
  | .mramScrubGroup _ line _ => line < 655360
  | .wardKeySwitch => true
  | .miUnknownOpcode _ => true
  | .activityStart => true
  | .activityEnd _ => true
  | .microtraceStart _ => true
  | .microtraceRead => true
  | .slotRangeCommit => true
  | .slotRangePendingApply => true
  | .dgSlotSelWrite _ => true
  | .caRead => true
  | .caSet _ => true
  | .caDrop _ => true
  | .caRestoreFactory fails => fails.length ≤ 83
  | .caFactorySet _ => true
  | .monHelp => true
  | .monVer => true
  | .monHasp => true
  | .monBeats => true
  | .monFaults => true
  | .monFaultsClear src => src < 1536
  | .monWard => true
  | .monNoise => true
  | .monCal code inst => code < 32 && inst < 64
  | .monCalSet code inst value _ => code < 32 && inst < 64 && value.length ≤ 32
  | .monCalDrop code inst _ => code < 32 && inst < 64
  | .monCalRestore fails => fails.length ≤ 83
  | .monPatch => true
  | .monPeek off => off < 67108864
  | .monDump off n => off < 67108864 && (1 ≤ n && n ≤ 256)
  | .monPoke off _ => off < 67108864
  | .monOpen cert => cert.length ≤ 16384
  | .monOpenTimeout => true
  | .monDrop => true
  | .monBaud rate => rate < 8
  | .monBaudTimeout => true
  | .monBadLine _ => true
  | .tapReset => true
  | .extest => true
  | .idcode => true
  | .samplePreload _ => true
  | .highz => true
  | .clamp => true
  | .jtagOpen cert => cert.length ≤ 16384
  | .jtagStatus => true
  | .jtagSecureInstruction _ => true
  | .bypass => true
  | .tamperEvent srcs => srcs.all (· < 32)
  | .tamperWindowExpiry src => src < 32
  | .tpSrcCfgWrite src _ => src < 32
  | .tamperSettleEnd src => src < 32
  | .tamperPolWrite _ => true
  | .tamperPolMaskEnd _ => true
  | .faultRaise raises => raises.all Raise.wf
  | .trapDelivery => true
  | .aliveRestart => true
  | .fcParityScan bad => bad.all (· < 1536)
  | .commitStart _ => true
  | .commitDurable => true
  | .evidenceRecordWrite _ => true
  | .evlIndexWrite _ => true
  | .ufRead _ => true
  | .ufWrite _ => true
  | .vcoreStageChange mv => mv < 2000
  | .thermalSample celsius => (-128 ≤ celsius && celsius ≤ 127)
  | .railLoss _ => true
  | .railsGood => true
  | .handoverToVbat => true
  | .handbackToVddIo => true
  | .ringFrameRx frame => frame.bytes.length ≤ 38
  | .ringRead frame => frame.bytes.length ≤ 38
  | .ringAlarmRx frame => frame.bytes.length ≤ 38
  | .ringFrameTx => true
  | .ringAlarmRepeat => true
  | .passPathOpen => true
  | .dmaWriteHanded m => m < 2
  | .configWrite m field => m < 2 && field.wf
  | .lfStatusClear m leaf _ => m < 2 && leaf < 4096
  | .blockResetRelease block _ => block.wf
  | .vbatLow => true
  | .aonRetentionLoss => true
  | .hgCreate => true
  | .hgQconfig => true
  | .hgReset => true
  | .hgDestroy => true
  | .hgQuiesce => true
  | .hgResume => true
  | .hgRebind => true
  | .hgDlogSet => true
  | .hgDlogHarvest => true
  | .hgDlogStop => true
  | .hgImportOpen => true
  | .hgExport => true
  | .hgImport => true
  | .kwIdgen => true
  | .kwCertInstall => true
  | .kwCertRead => true
  | .kwAttest => true
  | .hsOpen => true
  | .hsDropRights => true
  | .hsTransition => true
  | .hsIntkeyInstall => true
  | .miPatch => true
  | .miRetire => true
  | .miFwSwap => true
  | .miPinRecal => true
  | .miPinRetire => true
  | .miRawCapture => true
  | .miReseedAll => true
  | .miMramScrub => true
  | .miWearRelocate => true
  | .miImageWrite => true
  | .miJournalCompact => true
  | .miWardRekey => true
  | .miTamperRecal => true

end Sys2Proof
end

