-- ==== Sys2Proof/Laws/PerInstr.lean ====
section
/-! SUPPORT. The ranges of the numbers that a command names, one lemma for each command: a well-formed command names a module, a leaf
and a turn slot that exist. -/

namespace Sys2Proof.Laws

/-- The UCIe module that a command names. -/
def Ranges.module : Instr → Option Nat
  | .configRead m _ => some m
  | .partnerSidebandActive m => some m
  | .noPartnerTimeout m => some m
  | .linkTrained m _ _ _ => some m
  | .linkRetrain m => some m
  | .linkDown m => some m
  | .replayThreshold m => some m
  | .moduleRetrain m _ => some m
  | .doorbellWrite m _ _ _ _ => some m
  | .randomWindowRead m _ _ _ => some m
  | .randomReadRelease m => some m
  | .dmaReadComplete m _ _ => some m
  | .dmaReadError m _ _ => some m
  | .dmaCompletionTimeout m _ => some m
  | .dmaWriteFail m => some m
  | .dmaWriteHanded m => some m
  | .configWrite m _ => some m
  | .lfStatusClear m _ _ => some m
  | _ => none

/-- The leaf that a command names. -/
def Ranges.leaf : Instr → Option Nat
  | .doorbellWrite _ leaf _ _ _ => some leaf
  | .randomWindowRead _ leaf _ _ => some leaf
  | .resetDone leaf => some leaf
  | .quiesceDeadline leaf => some leaf
  | .quiesceComplete leaf => some leaf
  | .keywayChangeApply leaf => some leaf
  | .lfStatusClear _ leaf _ => some leaf
  | _ => none

/-- The turn slot that a command names. -/
def Ranges.turn : Instr → Option Nat
  | .zxNop slot => some slot
  | .zxEnd slot => some slot
  | .zxFence slot => some slot
  | .zxWait slot => some slot
  | .zxSkipIf slot => some slot
  | .zxRepeat slot => some slot
  | .zxAlloc slot => some slot
  | .zxFree slot => some slot
  | .zxLoad slot => some slot
  | .zxStore slot => some slot
  | .zxStoreStream slot => some slot
  | .zxCopyWhole slot => some slot
  | .zxCopySlice slot => some slot
  | .zxCopyAppend slot => some slot
  | .zxCopyCtr slot => some slot
  | .zxZero slot => some slot
  | .zxXor slot => some slot
  | .zxRandFill slot => some slot
  | .zxKeywCut slot => some slot
  | .zxKeywGen slot => some slot
  | .zxKeywClear slot => some slot
  | .zxKeywWrap slot => some slot
  | .zxKeywUnwrap slot => some slot
  | .zxKeywDerive slot => some slot
  | .zxMlkemKeygen slot => some slot
  | .zxMlkemEncaps slot => some slot
  | .zxMlkemDecaps slot => some slot
  | .zxMldsaKeygen slot => some slot
  | .zxMldsaSign slot => some slot
  | .zxMldsaVerify slot => some slot
  | .zxHqcKeygen slot => some slot
  | .zxHqcEncaps slot => some slot
  | .zxHqcDecaps slot => some slot
  | .zxMceKeygen slot => some slot
  | .zxMceEncaps slot => some slot
  | .zxMceDecaps slot => some slot
  | .spillUnitGrant slot => some slot
  | .zxDigestInit slot => some slot
  | .zxDigestAbsorb slot => some slot
  | .zxDigestStream slot => some slot
  | .zxDigestFinal slot => some slot
  | .zxXofSqueeze slot => some slot
  | .zxMacKeystate slot => some slot
  | .zxMacInit slot => some slot
  | .zxMacFinal slot => some slot
  | .zxCmpCt slot => some slot
  | .zxSlhKeygen slot => some slot
  | .zxSlhSign slot => some slot
  | .zxSlhVerify slot => some slot
  | .zxBnSetmod slot => some slot
  | .zxBnAdd slot => some slot
  | .zxBnSub slot => some slot
  | .zxBnMul slot => some slot
  | .zxBnExp slot => some slot
  | .zxBnInv slot => some slot
  | .zxEcKeygen slot => some slot
  | .zxEcSign slot => some slot
  | .zxEcVerify slot => some slot
  | .zxEcDh slot => some slot
  | .zxEcxKeygen slot => some slot
  | .zxEcxMul slot => some slot
  | .zxEdKeygen slot => some slot
  | .zxEdSign slot => some slot
  | .zxEdVerify slot => some slot
  | .zxRsaPub slot => some slot
  | .zxRsaPriv slot => some slot
  | .zxRsaCrt slot => some slot
  | .zxBlkEnc slot => some slot
  | .zxBlkDec slot => some slot
  | .zxGhmGhash slot => some slot
  | .zxGhmXtsSeq slot => some slot
  | .zxCtxSaveVault slot => some slot
  | .zxCtxSaveWrapped slot => some slot
  | .zxCtxRestoreVault slot => some slot
  | .zxCtxRestoreWrapped slot => some slot
  | .entropyWaitExpiry slot => some slot
  | _ => none

/-- R2, R15, R174: two modules, 4,096 leaves, 8,192 turn slots. -/
def Ranges.Statement (i : Instr) : Prop :=
  i.wf = true → (∀ m, Ranges.module i = some m → m < 2) ∧ (∀ l, Ranges.leaf i = some l → l < 4096) ∧
    (∀ t, Ranges.turn i = some t → t < 8192)

theorem Ranges.of_some {x k n : Nat} (e : some x = some k) (h : decide (x < n) = true) : k < n :=
  Option.some.inj e ▸ of_decide_eq_true h

theorem Ranges.left {a b : Bool} (h : (a && b) = true) : a = true := ((Bool.and_eq_true a b) ▸ h : a = true ∧ b = true).1

theorem Ranges.right {a b : Bool} (h : (a && b) = true) : b = true := ((Bool.and_eq_true a b) ▸ h : a = true ∧ b = true).2

theorem Ranges.powerUp : Ranges.Statement .powerUp := fun _ => ⟨nofun, nofun, nofun⟩
theorem Ranges.powerLoss (ioFalls : Bool) (commitCycle : Nat) : Ranges.Statement (.powerLoss ioFalls commitCycle) := fun _ => ⟨nofun, nofun, nofun⟩
theorem Ranges.aonPowerUp (vbat : Bool) : Ranges.Statement (.aonPowerUp vbat) := fun _ => ⟨nofun, nofun, nofun⟩
theorem Ranges.rstNAssert : Ranges.Statement .rstNAssert := fun _ => ⟨nofun, nofun, nofun⟩
theorem Ranges.rstNRelease : Ranges.Statement .rstNRelease := fun _ => ⟨nofun, nofun, nofun⟩
theorem Ranges.chipReset (cause : ResetCause) : Ranges.Statement (.chipReset cause) := fun _ => ⟨nofun, nofun, nofun⟩
theorem Ranges.housekeepingPllLock : Ranges.Statement .housekeepingPllLock := fun _ => ⟨nofun, nofun, nofun⟩
theorem Ranges.enginePllLock : Ranges.Statement .enginePllLock := fun _ => ⟨nofun, nofun, nofun⟩
theorem Ranges.pllLockLoss (pll : Pll) : Ranges.Statement (.pllLockLoss pll) := fun _ => ⟨nofun, nofun, nofun⟩
theorem Ranges.bootRomStart (wipeFails : Option Nat) (rows : Nat) : Ranges.Statement (.bootRomStart wipeFails rows) := fun _ => ⟨nofun, nofun, nofun⟩
theorem Ranges.bootFirmwareStart (report : BootReport) : Ranges.Statement (.bootFirmwareStart report) := fun _ => ⟨nofun, nofun, nofun⟩
theorem Ranges.bootComplete : Ranges.Statement .bootComplete := fun _ => ⟨nofun, nofun, nofun⟩
theorem Ranges.configRead (m : Nat) (reg : Nat) : Ranges.Statement (.configRead m reg) := fun h =>
  ⟨fun _ e => Ranges.of_some e (Ranges.left h), nofun, nofun⟩
theorem Ranges.partnerSidebandActive (m : Nat) : Ranges.Statement (.partnerSidebandActive m) := fun h =>
  ⟨fun _ e => Ranges.of_some e h, nofun, nofun⟩
theorem Ranges.noPartnerTimeout (m : Nat) : Ranges.Statement (.noPartnerTimeout m) := fun h =>
  ⟨fun _ e => Ranges.of_some e h, nofun, nofun⟩
theorem Ranges.linkTrained (m : Nat) (rate : Nat) (badTx : Nat) (badRx : Nat) : Ranges.Statement (.linkTrained m rate badTx badRx) := fun h =>
  ⟨fun _ e => Ranges.of_some e (Ranges.left (Ranges.left (Ranges.left h))), nofun, nofun⟩
theorem Ranges.linkRetrain (m : Nat) : Ranges.Statement (.linkRetrain m) := fun h =>
  ⟨fun _ e => Ranges.of_some e h, nofun, nofun⟩
theorem Ranges.linkDown (m : Nat) : Ranges.Statement (.linkDown m) := fun h =>
  ⟨fun _ e => Ranges.of_some e h, nofun, nofun⟩
theorem Ranges.replayThreshold (m : Nat) : Ranges.Statement (.replayThreshold m) := fun h =>
  ⟨fun _ e => Ranges.of_some e h, nofun, nofun⟩
theorem Ranges.moduleRetrain (m : Nat) (value : Word) : Ranges.Statement (.moduleRetrain m value) := fun h =>
  ⟨fun _ e => Ranges.of_some e h, nofun, nofun⟩
theorem Ranges.moduleEnableWrite (value : Word) : Ranges.Statement (.moduleEnableWrite value) := fun _ => ⟨nofun, nofun, nofun⟩
theorem Ranges.registerWrite (off : Nat) (acc : Access) (value : Word) : Ranges.Statement (.registerWrite off acc value) := fun _ => ⟨nofun, nofun, nofun⟩
theorem Ranges.pairLoRead (port : Port) (acc : BarAccess) : Ranges.Statement (.pairLoRead port acc) := fun _ => ⟨nofun, nofun, nofun⟩
theorem Ranges.pairHiRead (port : Port) (acc : BarAccess) : Ranges.Statement (.pairHiRead port acc) := fun _ => ⟨nofun, nofun, nofun⟩
theorem Ranges.pairLoWrite (acc : BarAccess) (value : Word) : Ranges.Statement (.pairLoWrite acc value) := fun _ => ⟨nofun, nofun, nofun⟩
theorem Ranges.pairHiWrite (acc : BarAccess) (value : Word) : Ranges.Statement (.pairHiWrite acc value) := fun _ => ⟨nofun, nofun, nofun⟩
theorem Ranges.vaultWindowRead (acc : BarAccess) : Ranges.Statement (.vaultWindowRead acc) := fun _ => ⟨nofun, nofun, nofun⟩
theorem Ranges.vaultWindowWrite (acc : BarAccess) (value : Word) : Ranges.Statement (.vaultWindowWrite acc value) := fun _ => ⟨nofun, nofun, nofun⟩
theorem Ranges.doorbellWrite (m : Nat) (leaf : Nat) (off : Nat) (size : Nat) (value : DWord) : Ranges.Statement (.doorbellWrite m leaf off size value) := fun h =>
  ⟨fun _ e => Ranges.of_some e (Ranges.left (Ranges.left (Ranges.left h))), fun _ e => Ranges.of_some e (Ranges.right (Ranges.left (Ranges.left h))), nofun⟩
theorem Ranges.randomWindowRead (m : Nat) (leaf : Nat) (off : Nat) (size : Nat) : Ranges.Statement (.randomWindowRead m leaf off size) := fun h =>
  ⟨fun _ e => Ranges.of_some e (Ranges.left (Ranges.left (Ranges.left h))), fun _ e => Ranges.of_some e (Ranges.right (Ranges.left (Ranges.left h))), nofun⟩
theorem Ranges.randomReadRelease (m : Nat) : Ranges.Statement (.randomReadRelease m) := fun h =>
  ⟨fun _ e => Ranges.of_some e h, nofun, nofun⟩
theorem Ranges.lvtIndexWrite (value : Word) : Ranges.Statement (.lvtIndexWrite value) := fun _ => ⟨nofun, nofun, nofun⟩
theorem Ranges.lvtCommit (value : Word) : Ranges.Statement (.lvtCommit value) := fun _ => ⟨nofun, nofun, nofun⟩
theorem Ranges.lvtMaskWrite (value : Word) : Ranges.Statement (.lvtMaskWrite value) := fun _ => ⟨nofun, nofun, nofun⟩
theorem Ranges.dmaReadComplete (m : Nat) (tag : Nat) (data : Bytes) : Ranges.Statement (.dmaReadComplete m tag data) := fun h =>
  ⟨fun _ e => Ranges.of_some e (Ranges.left h), nofun, nofun⟩
theorem Ranges.dmaReadError (m : Nat) (tag : Nat) (kind : ReadError) : Ranges.Statement (.dmaReadError m tag kind) := fun h =>
  ⟨fun _ e => Ranges.of_some e (Ranges.left h), nofun, nofun⟩
theorem Ranges.dmaCompletionTimeout (m : Nat) (tag : Nat) : Ranges.Statement (.dmaCompletionTimeout m tag) := fun h =>
  ⟨fun _ e => Ranges.of_some e h, nofun, nofun⟩
theorem Ranges.dmaWriteFail (m : Nat) : Ranges.Statement (.dmaWriteFail m) := fun h =>
  ⟨fun _ e => Ranges.of_some e h, nofun, nofun⟩
theorem Ranges.resetDone (leaf : Nat) : Ranges.Statement (.resetDone leaf) := fun h =>
  ⟨nofun, fun _ e => Ranges.of_some e h, nofun⟩
theorem Ranges.quiesceDeadline (leaf : Nat) : Ranges.Statement (.quiesceDeadline leaf) := fun h =>
  ⟨nofun, fun _ e => Ranges.of_some e h, nofun⟩
theorem Ranges.quiesceComplete (leaf : Nat) : Ranges.Statement (.quiesceComplete leaf) := fun h =>
  ⟨nofun, fun _ e => Ranges.of_some e h, nofun⟩
theorem Ranges.hingeUnknownOpcode (opcode : Byte) : Ranges.Statement (.hingeUnknownOpcode opcode) := fun _ => ⟨nofun, nofun, nofun⟩
theorem Ranges.hingeWorkRestart : Ranges.Statement .hingeWorkRestart := fun _ => ⟨nofun, nofun, nofun⟩
theorem Ranges.sqFetch : Ranges.Statement .sqFetch := fun _ => ⟨nofun, nofun, nofun⟩
theorem Ranges.freezePoint : Ranges.Statement .freezePoint := fun _ => ⟨nofun, nofun, nofun⟩
theorem Ranges.beatEdge (beatB : Option (BitVec 48)) : Ranges.Statement (.beatEdge beatB) := fun _ => ⟨nofun, nofun, nofun⟩
theorem Ranges.strokeEnd (errs : List StrokeError) : Ranges.Statement (.strokeEnd errs) := fun _ => ⟨nofun, nofun, nofun⟩
theorem Ranges.keywayChangeApply (leaf : Nat) : Ranges.Statement (.keywayChangeApply leaf) := fun h =>
  ⟨nofun, fun _ e => Ranges.of_some e h, nofun⟩
theorem Ranges.zxNop (slot : Nat) : Ranges.Statement (.zxNop slot) := fun h =>
  ⟨nofun, nofun, fun _ e => Ranges.of_some e h⟩
theorem Ranges.zxEnd (slot : Nat) : Ranges.Statement (.zxEnd slot) := fun h =>
  ⟨nofun, nofun, fun _ e => Ranges.of_some e h⟩
theorem Ranges.zxFence (slot : Nat) : Ranges.Statement (.zxFence slot) := fun h =>
  ⟨nofun, nofun, fun _ e => Ranges.of_some e h⟩
theorem Ranges.zxWait (slot : Nat) : Ranges.Statement (.zxWait slot) := fun h =>
  ⟨nofun, nofun, fun _ e => Ranges.of_some e h⟩
theorem Ranges.zxSkipIf (slot : Nat) : Ranges.Statement (.zxSkipIf slot) := fun h =>
  ⟨nofun, nofun, fun _ e => Ranges.of_some e h⟩
theorem Ranges.zxRepeat (slot : Nat) : Ranges.Statement (.zxRepeat slot) := fun h =>
  ⟨nofun, nofun, fun _ e => Ranges.of_some e h⟩
theorem Ranges.zxAlloc (slot : Nat) : Ranges.Statement (.zxAlloc slot) := fun h =>
  ⟨nofun, nofun, fun _ e => Ranges.of_some e h⟩
theorem Ranges.zxFree (slot : Nat) : Ranges.Statement (.zxFree slot) := fun h =>
  ⟨nofun, nofun, fun _ e => Ranges.of_some e h⟩
theorem Ranges.zxLoad (slot : Nat) : Ranges.Statement (.zxLoad slot) := fun h =>
  ⟨nofun, nofun, fun _ e => Ranges.of_some e h⟩
theorem Ranges.zxStore (slot : Nat) : Ranges.Statement (.zxStore slot) := fun h =>
  ⟨nofun, nofun, fun _ e => Ranges.of_some e h⟩
theorem Ranges.zxStoreStream (slot : Nat) : Ranges.Statement (.zxStoreStream slot) := fun h =>
  ⟨nofun, nofun, fun _ e => Ranges.of_some e h⟩
theorem Ranges.zxCopyWhole (slot : Nat) : Ranges.Statement (.zxCopyWhole slot) := fun h =>
  ⟨nofun, nofun, fun _ e => Ranges.of_some e h⟩
theorem Ranges.zxCopySlice (slot : Nat) : Ranges.Statement (.zxCopySlice slot) := fun h =>
  ⟨nofun, nofun, fun _ e => Ranges.of_some e h⟩
theorem Ranges.zxCopyAppend (slot : Nat) : Ranges.Statement (.zxCopyAppend slot) := fun h =>
  ⟨nofun, nofun, fun _ e => Ranges.of_some e h⟩
theorem Ranges.zxCopyCtr (slot : Nat) : Ranges.Statement (.zxCopyCtr slot) := fun h =>
  ⟨nofun, nofun, fun _ e => Ranges.of_some e h⟩
theorem Ranges.zxZero (slot : Nat) : Ranges.Statement (.zxZero slot) := fun h =>
  ⟨nofun, nofun, fun _ e => Ranges.of_some e h⟩
theorem Ranges.zxXor (slot : Nat) : Ranges.Statement (.zxXor slot) := fun h =>
  ⟨nofun, nofun, fun _ e => Ranges.of_some e h⟩
theorem Ranges.zxRandFill (slot : Nat) : Ranges.Statement (.zxRandFill slot) := fun h =>
  ⟨nofun, nofun, fun _ e => Ranges.of_some e h⟩
theorem Ranges.zxKeywCut (slot : Nat) : Ranges.Statement (.zxKeywCut slot) := fun h =>
  ⟨nofun, nofun, fun _ e => Ranges.of_some e h⟩
theorem Ranges.zxKeywGen (slot : Nat) : Ranges.Statement (.zxKeywGen slot) := fun h =>
  ⟨nofun, nofun, fun _ e => Ranges.of_some e h⟩
theorem Ranges.zxKeywClear (slot : Nat) : Ranges.Statement (.zxKeywClear slot) := fun h =>
  ⟨nofun, nofun, fun _ e => Ranges.of_some e h⟩
theorem Ranges.zxKeywWrap (slot : Nat) : Ranges.Statement (.zxKeywWrap slot) := fun h =>
  ⟨nofun, nofun, fun _ e => Ranges.of_some e h⟩
theorem Ranges.zxKeywUnwrap (slot : Nat) : Ranges.Statement (.zxKeywUnwrap slot) := fun h =>
  ⟨nofun, nofun, fun _ e => Ranges.of_some e h⟩
theorem Ranges.zxKeywDerive (slot : Nat) : Ranges.Statement (.zxKeywDerive slot) := fun h =>
  ⟨nofun, nofun, fun _ e => Ranges.of_some e h⟩
theorem Ranges.zxMlkemKeygen (slot : Nat) : Ranges.Statement (.zxMlkemKeygen slot) := fun h =>
  ⟨nofun, nofun, fun _ e => Ranges.of_some e h⟩
theorem Ranges.zxMlkemEncaps (slot : Nat) : Ranges.Statement (.zxMlkemEncaps slot) := fun h =>
  ⟨nofun, nofun, fun _ e => Ranges.of_some e h⟩
theorem Ranges.zxMlkemDecaps (slot : Nat) : Ranges.Statement (.zxMlkemDecaps slot) := fun h =>
  ⟨nofun, nofun, fun _ e => Ranges.of_some e h⟩
theorem Ranges.zxMldsaKeygen (slot : Nat) : Ranges.Statement (.zxMldsaKeygen slot) := fun h =>
  ⟨nofun, nofun, fun _ e => Ranges.of_some e h⟩
theorem Ranges.zxMldsaSign (slot : Nat) : Ranges.Statement (.zxMldsaSign slot) := fun h =>
  ⟨nofun, nofun, fun _ e => Ranges.of_some e h⟩
theorem Ranges.zxMldsaVerify (slot : Nat) : Ranges.Statement (.zxMldsaVerify slot) := fun h =>
  ⟨nofun, nofun, fun _ e => Ranges.of_some e h⟩
theorem Ranges.zxHqcKeygen (slot : Nat) : Ranges.Statement (.zxHqcKeygen slot) := fun h =>
  ⟨nofun, nofun, fun _ e => Ranges.of_some e h⟩
theorem Ranges.zxHqcEncaps (slot : Nat) : Ranges.Statement (.zxHqcEncaps slot) := fun h =>
  ⟨nofun, nofun, fun _ e => Ranges.of_some e h⟩
theorem Ranges.zxHqcDecaps (slot : Nat) : Ranges.Statement (.zxHqcDecaps slot) := fun h =>
  ⟨nofun, nofun, fun _ e => Ranges.of_some e h⟩
theorem Ranges.zxMceKeygen (slot : Nat) : Ranges.Statement (.zxMceKeygen slot) := fun h =>
  ⟨nofun, nofun, fun _ e => Ranges.of_some e h⟩
theorem Ranges.zxMceEncaps (slot : Nat) : Ranges.Statement (.zxMceEncaps slot) := fun h =>
  ⟨nofun, nofun, fun _ e => Ranges.of_some e h⟩
theorem Ranges.zxMceDecaps (slot : Nat) : Ranges.Statement (.zxMceDecaps slot) := fun h =>
  ⟨nofun, nofun, fun _ e => Ranges.of_some e h⟩
theorem Ranges.spillUnitGrant (slot : Nat) : Ranges.Statement (.spillUnitGrant slot) := fun h =>
  ⟨nofun, nofun, fun _ e => Ranges.of_some e h⟩
theorem Ranges.zxDigestInit (slot : Nat) : Ranges.Statement (.zxDigestInit slot) := fun h =>
  ⟨nofun, nofun, fun _ e => Ranges.of_some e h⟩
theorem Ranges.zxDigestAbsorb (slot : Nat) : Ranges.Statement (.zxDigestAbsorb slot) := fun h =>
  ⟨nofun, nofun, fun _ e => Ranges.of_some e h⟩
theorem Ranges.zxDigestStream (slot : Nat) : Ranges.Statement (.zxDigestStream slot) := fun h =>
  ⟨nofun, nofun, fun _ e => Ranges.of_some e h⟩
theorem Ranges.zxDigestFinal (slot : Nat) : Ranges.Statement (.zxDigestFinal slot) := fun h =>
  ⟨nofun, nofun, fun _ e => Ranges.of_some e h⟩
theorem Ranges.zxXofSqueeze (slot : Nat) : Ranges.Statement (.zxXofSqueeze slot) := fun h =>
  ⟨nofun, nofun, fun _ e => Ranges.of_some e h⟩
theorem Ranges.zxMacKeystate (slot : Nat) : Ranges.Statement (.zxMacKeystate slot) := fun h =>
  ⟨nofun, nofun, fun _ e => Ranges.of_some e h⟩
theorem Ranges.zxMacInit (slot : Nat) : Ranges.Statement (.zxMacInit slot) := fun h =>
  ⟨nofun, nofun, fun _ e => Ranges.of_some e h⟩
theorem Ranges.zxMacFinal (slot : Nat) : Ranges.Statement (.zxMacFinal slot) := fun h =>
  ⟨nofun, nofun, fun _ e => Ranges.of_some e h⟩
theorem Ranges.zxCmpCt (slot : Nat) : Ranges.Statement (.zxCmpCt slot) := fun h =>
  ⟨nofun, nofun, fun _ e => Ranges.of_some e h⟩
theorem Ranges.zxSlhKeygen (slot : Nat) : Ranges.Statement (.zxSlhKeygen slot) := fun h =>
  ⟨nofun, nofun, fun _ e => Ranges.of_some e h⟩
theorem Ranges.zxSlhSign (slot : Nat) : Ranges.Statement (.zxSlhSign slot) := fun h =>
  ⟨nofun, nofun, fun _ e => Ranges.of_some e h⟩
theorem Ranges.zxSlhVerify (slot : Nat) : Ranges.Statement (.zxSlhVerify slot) := fun h =>
  ⟨nofun, nofun, fun _ e => Ranges.of_some e h⟩
theorem Ranges.zxBnSetmod (slot : Nat) : Ranges.Statement (.zxBnSetmod slot) := fun h =>
  ⟨nofun, nofun, fun _ e => Ranges.of_some e h⟩
theorem Ranges.zxBnAdd (slot : Nat) : Ranges.Statement (.zxBnAdd slot) := fun h =>
  ⟨nofun, nofun, fun _ e => Ranges.of_some e h⟩
theorem Ranges.zxBnSub (slot : Nat) : Ranges.Statement (.zxBnSub slot) := fun h =>
  ⟨nofun, nofun, fun _ e => Ranges.of_some e h⟩
theorem Ranges.zxBnMul (slot : Nat) : Ranges.Statement (.zxBnMul slot) := fun h =>
  ⟨nofun, nofun, fun _ e => Ranges.of_some e h⟩
theorem Ranges.zxBnExp (slot : Nat) : Ranges.Statement (.zxBnExp slot) := fun h =>
  ⟨nofun, nofun, fun _ e => Ranges.of_some e h⟩
theorem Ranges.zxBnInv (slot : Nat) : Ranges.Statement (.zxBnInv slot) := fun h =>
  ⟨nofun, nofun, fun _ e => Ranges.of_some e h⟩
theorem Ranges.zxEcKeygen (slot : Nat) : Ranges.Statement (.zxEcKeygen slot) := fun h =>
  ⟨nofun, nofun, fun _ e => Ranges.of_some e h⟩
theorem Ranges.zxEcSign (slot : Nat) : Ranges.Statement (.zxEcSign slot) := fun h =>
  ⟨nofun, nofun, fun _ e => Ranges.of_some e h⟩
theorem Ranges.zxEcVerify (slot : Nat) : Ranges.Statement (.zxEcVerify slot) := fun h =>
  ⟨nofun, nofun, fun _ e => Ranges.of_some e h⟩
theorem Ranges.zxEcDh (slot : Nat) : Ranges.Statement (.zxEcDh slot) := fun h =>
  ⟨nofun, nofun, fun _ e => Ranges.of_some e h⟩
theorem Ranges.zxEcxKeygen (slot : Nat) : Ranges.Statement (.zxEcxKeygen slot) := fun h =>
  ⟨nofun, nofun, fun _ e => Ranges.of_some e h⟩
theorem Ranges.zxEcxMul (slot : Nat) : Ranges.Statement (.zxEcxMul slot) := fun h =>
  ⟨nofun, nofun, fun _ e => Ranges.of_some e h⟩
theorem Ranges.zxEdKeygen (slot : Nat) : Ranges.Statement (.zxEdKeygen slot) := fun h =>
  ⟨nofun, nofun, fun _ e => Ranges.of_some e h⟩
theorem Ranges.zxEdSign (slot : Nat) : Ranges.Statement (.zxEdSign slot) := fun h =>
  ⟨nofun, nofun, fun _ e => Ranges.of_some e h⟩
theorem Ranges.zxEdVerify (slot : Nat) : Ranges.Statement (.zxEdVerify slot) := fun h =>
  ⟨nofun, nofun, fun _ e => Ranges.of_some e h⟩
theorem Ranges.zxRsaPub (slot : Nat) : Ranges.Statement (.zxRsaPub slot) := fun h =>
  ⟨nofun, nofun, fun _ e => Ranges.of_some e h⟩
theorem Ranges.zxRsaPriv (slot : Nat) : Ranges.Statement (.zxRsaPriv slot) := fun h =>
  ⟨nofun, nofun, fun _ e => Ranges.of_some e h⟩
theorem Ranges.zxRsaCrt (slot : Nat) : Ranges.Statement (.zxRsaCrt slot) := fun h =>
  ⟨nofun, nofun, fun _ e => Ranges.of_some e h⟩
theorem Ranges.zxBlkEnc (slot : Nat) : Ranges.Statement (.zxBlkEnc slot) := fun h =>
  ⟨nofun, nofun, fun _ e => Ranges.of_some e h⟩
theorem Ranges.zxBlkDec (slot : Nat) : Ranges.Statement (.zxBlkDec slot) := fun h =>
  ⟨nofun, nofun, fun _ e => Ranges.of_some e h⟩
theorem Ranges.zxGhmGhash (slot : Nat) : Ranges.Statement (.zxGhmGhash slot) := fun h =>
  ⟨nofun, nofun, fun _ e => Ranges.of_some e h⟩
theorem Ranges.zxGhmXtsSeq (slot : Nat) : Ranges.Statement (.zxGhmXtsSeq slot) := fun h =>
  ⟨nofun, nofun, fun _ e => Ranges.of_some e h⟩
theorem Ranges.zxCtxSaveVault (slot : Nat) : Ranges.Statement (.zxCtxSaveVault slot) := fun h =>
  ⟨nofun, nofun, fun _ e => Ranges.of_some e h⟩
theorem Ranges.zxCtxSaveWrapped (slot : Nat) : Ranges.Statement (.zxCtxSaveWrapped slot) := fun h =>
  ⟨nofun, nofun, fun _ e => Ranges.of_some e h⟩
theorem Ranges.zxCtxRestoreVault (slot : Nat) : Ranges.Statement (.zxCtxRestoreVault slot) := fun h =>
  ⟨nofun, nofun, fun _ e => Ranges.of_some e h⟩
theorem Ranges.zxCtxRestoreWrapped (slot : Nat) : Ranges.Statement (.zxCtxRestoreWrapped slot) := fun h =>
  ⟨nofun, nofun, fun _ e => Ranges.of_some e h⟩
theorem Ranges.storeScrubStep (store : StoreId) (result : EccResult) (spot : StoreSpot) : Ranges.Statement (.storeScrubStep store result spot) := fun _ => ⟨nofun, nofun, nofun⟩
theorem Ranges.errorInject (target : InjectTarget) (value : Word) : Ranges.Statement (.errorInject target value) := fun _ => ⟨nofun, nofun, nofun⟩
theorem Ranges.maskReseed (gen : GenId) : Ranges.Statement (.maskReseed gen) := fun _ => ⟨nofun, nofun, nofun⟩
theorem Ranges.maskStarved (gen : GenId) : Ranges.Statement (.maskStarved gen) := fun _ => ⟨nofun, nofun, nofun⟩
theorem Ranges.noiseBlockEnd (blocks : List (BitVec 1024)) : Ranges.Statement (.noiseBlockEnd blocks) := fun _ => ⟨nofun, nofun, nofun⟩
theorem Ranges.pinRetrimDone (p : Nat) : Ranges.Statement (.pinRetrimDone p) := fun _ => ⟨nofun, nofun, nofun⟩
theorem Ranges.drbgGenerate (internal : Bool) : Ranges.Statement (.drbgGenerate internal) := fun _ => ⟨nofun, nofun, nofun⟩
theorem Ranges.rootMaterialRequest : Ranges.Statement .rootMaterialRequest := fun _ => ⟨nofun, nofun, nofun⟩
theorem Ranges.entropyReadyTimeout : Ranges.Statement .entropyReadyTimeout := fun _ => ⟨nofun, nofun, nofun⟩
theorem Ranges.entropyWaitExpiry (slot : Nat) : Ranges.Statement (.entropyWaitExpiry slot) := fun h =>
  ⟨nofun, nofun, fun _ e => Ranges.of_some e h⟩
theorem Ranges.rawCaptureStart : Ranges.Statement .rawCaptureStart := fun _ => ⟨nofun, nofun, nofun⟩
theorem Ranges.rawCaptureEnd : Ranges.Statement .rawCaptureEnd := fun _ => ⟨nofun, nofun, nofun⟩
theorem Ranges.nsRawDataRead : Ranges.Statement .nsRawDataRead := fun _ => ⟨nofun, nofun, nofun⟩
theorem Ranges.kwUnknownOpcode (opcode : Byte) : Ranges.Statement (.kwUnknownOpcode opcode) := fun _ => ⟨nofun, nofun, nofun⟩
theorem Ranges.hsUnknownOpcode (opcode : Byte) : Ranges.Statement (.hsUnknownOpcode opcode) := fun _ => ⟨nofun, nofun, nofun⟩
theorem Ranges.haspOddBurn (rows : Nat) : Ranges.Statement (.haspOddBurn rows) := fun _ => ⟨nofun, nofun, nofun⟩
theorem Ranges.wipeStep (ok : Bool) : Ranges.Statement (.wipeStep ok) := fun _ => ⟨nofun, nofun, nofun⟩
theorem Ranges.haspEvenBurn (rows : Nat) : Ranges.Statement (.haspEvenBurn rows) := fun _ => ⟨nofun, nofun, nofun⟩
theorem Ranges.engineDrainStop : Ranges.Statement .engineDrainStop := fun _ => ⟨nofun, nofun, nofun⟩
theorem Ranges.patchDrainDeadline : Ranges.Statement .patchDrainDeadline := fun _ => ⟨nofun, nofun, nofun⟩
theorem Ranges.engineSelftestEnd (pass : Bool) : Ranges.Statement (.engineSelftestEnd pass) := fun _ => ⟨nofun, nofun, nofun⟩
theorem Ranges.fwHealthy : Ranges.Statement .fwHealthy := fun _ => ⟨nofun, nofun, nofun⟩
theorem Ranges.fwSwapWatchdog : Ranges.Statement .fwSwapWatchdog := fun _ => ⟨nofun, nofun, nofun⟩
theorem Ranges.mgmtWatchdogExpiry : Ranges.Statement .mgmtWatchdogExpiry := fun _ => ⟨nofun, nofun, nofun⟩
theorem Ranges.mramScrubGroup (result : EccResult) (line : Nat) (rewriteFails : Bool) : Ranges.Statement (.mramScrubGroup result line rewriteFails) := fun _ => ⟨nofun, nofun, nofun⟩
theorem Ranges.wardKeySwitch : Ranges.Statement .wardKeySwitch := fun _ => ⟨nofun, nofun, nofun⟩
theorem Ranges.miUnknownOpcode (opcode : Byte) : Ranges.Statement (.miUnknownOpcode opcode) := fun _ => ⟨nofun, nofun, nofun⟩
theorem Ranges.activityStart : Ranges.Statement .activityStart := fun _ => ⟨nofun, nofun, nofun⟩
theorem Ranges.activityEnd (cls : ActClass) : Ranges.Statement (.activityEnd cls) := fun _ => ⟨nofun, nofun, nofun⟩
theorem Ranges.microtraceStart (value : Word) : Ranges.Statement (.microtraceStart value) := fun _ => ⟨nofun, nofun, nofun⟩
theorem Ranges.microtraceRead : Ranges.Statement .microtraceRead := fun _ => ⟨nofun, nofun, nofun⟩
theorem Ranges.slotRangeCommit : Ranges.Statement .slotRangeCommit := fun _ => ⟨nofun, nofun, nofun⟩
theorem Ranges.slotRangePendingApply : Ranges.Statement .slotRangePendingApply := fun _ => ⟨nofun, nofun, nofun⟩
theorem Ranges.dgSlotSelWrite (value : Word) : Ranges.Statement (.dgSlotSelWrite value) := fun _ => ⟨nofun, nofun, nofun⟩
theorem Ranges.caRead : Ranges.Statement .caRead := fun _ => ⟨nofun, nofun, nofun⟩
theorem Ranges.caSet (verifyFails : Bool) : Ranges.Statement (.caSet verifyFails) := fun _ => ⟨nofun, nofun, nofun⟩
theorem Ranges.caDrop (verifyFails : Bool) : Ranges.Statement (.caDrop verifyFails) := fun _ => ⟨nofun, nofun, nofun⟩
theorem Ranges.caRestoreFactory (fails : List Bool) : Ranges.Statement (.caRestoreFactory fails) := fun _ => ⟨nofun, nofun, nofun⟩
theorem Ranges.caFactorySet (verifyFails : Bool) : Ranges.Statement (.caFactorySet verifyFails) := fun _ => ⟨nofun, nofun, nofun⟩
theorem Ranges.monHelp : Ranges.Statement .monHelp := fun _ => ⟨nofun, nofun, nofun⟩
theorem Ranges.monVer : Ranges.Statement .monVer := fun _ => ⟨nofun, nofun, nofun⟩
theorem Ranges.monHasp : Ranges.Statement .monHasp := fun _ => ⟨nofun, nofun, nofun⟩
theorem Ranges.monBeats : Ranges.Statement .monBeats := fun _ => ⟨nofun, nofun, nofun⟩
theorem Ranges.monFaults : Ranges.Statement .monFaults := fun _ => ⟨nofun, nofun, nofun⟩
theorem Ranges.monFaultsClear (src : Nat) : Ranges.Statement (.monFaultsClear src) := fun _ => ⟨nofun, nofun, nofun⟩
theorem Ranges.monWard : Ranges.Statement .monWard := fun _ => ⟨nofun, nofun, nofun⟩
theorem Ranges.monNoise : Ranges.Statement .monNoise := fun _ => ⟨nofun, nofun, nofun⟩
theorem Ranges.monCal (code : Nat) (inst : Nat) : Ranges.Statement (.monCal code inst) := fun _ => ⟨nofun, nofun, nofun⟩
theorem Ranges.monCalSet (code : Nat) (inst : Nat) (value : Bytes) (verifyFails : Bool) : Ranges.Statement (.monCalSet code inst value verifyFails) := fun _ => ⟨nofun, nofun, nofun⟩
theorem Ranges.monCalDrop (code : Nat) (inst : Nat) (verifyFails : Bool) : Ranges.Statement (.monCalDrop code inst verifyFails) := fun _ => ⟨nofun, nofun, nofun⟩
theorem Ranges.monCalRestore (fails : List Bool) : Ranges.Statement (.monCalRestore fails) := fun _ => ⟨nofun, nofun, nofun⟩
theorem Ranges.monPatch : Ranges.Statement .monPatch := fun _ => ⟨nofun, nofun, nofun⟩
theorem Ranges.monPeek (off : Nat) : Ranges.Statement (.monPeek off) := fun _ => ⟨nofun, nofun, nofun⟩
theorem Ranges.monDump (off : Nat) (n : Nat) : Ranges.Statement (.monDump off n) := fun _ => ⟨nofun, nofun, nofun⟩
theorem Ranges.monPoke (off : Nat) (value : Word) : Ranges.Statement (.monPoke off value) := fun _ => ⟨nofun, nofun, nofun⟩
theorem Ranges.monOpen (cert : Bytes) : Ranges.Statement (.monOpen cert) := fun _ => ⟨nofun, nofun, nofun⟩
theorem Ranges.monOpenTimeout : Ranges.Statement .monOpenTimeout := fun _ => ⟨nofun, nofun, nofun⟩
theorem Ranges.monDrop : Ranges.Statement .monDrop := fun _ => ⟨nofun, nofun, nofun⟩
theorem Ranges.monBaud (rate : Nat) : Ranges.Statement (.monBaud rate) := fun _ => ⟨nofun, nofun, nofun⟩
theorem Ranges.monBaudTimeout : Ranges.Statement .monBaudTimeout := fun _ => ⟨nofun, nofun, nofun⟩
theorem Ranges.monBadLine (overlong : Bool) : Ranges.Statement (.monBadLine overlong) := fun _ => ⟨nofun, nofun, nofun⟩
theorem Ranges.tapReset : Ranges.Statement .tapReset := fun _ => ⟨nofun, nofun, nofun⟩
theorem Ranges.extest : Ranges.Statement .extest := fun _ => ⟨nofun, nofun, nofun⟩
theorem Ranges.idcode : Ranges.Statement .idcode := fun _ => ⟨nofun, nofun, nofun⟩
theorem Ranges.samplePreload (preload : Word) : Ranges.Statement (.samplePreload preload) := fun _ => ⟨nofun, nofun, nofun⟩
theorem Ranges.highz : Ranges.Statement .highz := fun _ => ⟨nofun, nofun, nofun⟩
theorem Ranges.clamp : Ranges.Statement .clamp := fun _ => ⟨nofun, nofun, nofun⟩
theorem Ranges.jtagOpen (cert : Bytes) : Ranges.Statement (.jtagOpen cert) := fun _ => ⟨nofun, nofun, nofun⟩
theorem Ranges.jtagStatus : Ranges.Statement .jtagStatus := fun _ => ⟨nofun, nofun, nofun⟩
theorem Ranges.jtagSecureInstruction (opcode : Byte) : Ranges.Statement (.jtagSecureInstruction opcode) := fun _ => ⟨nofun, nofun, nofun⟩
theorem Ranges.bypass : Ranges.Statement .bypass := fun _ => ⟨nofun, nofun, nofun⟩
theorem Ranges.tamperEvent (srcs : List Nat) : Ranges.Statement (.tamperEvent srcs) := fun _ => ⟨nofun, nofun, nofun⟩
theorem Ranges.tamperWindowExpiry (src : Nat) : Ranges.Statement (.tamperWindowExpiry src) := fun _ => ⟨nofun, nofun, nofun⟩
theorem Ranges.tpSrcCfgWrite (src : Nat) (value : Word) : Ranges.Statement (.tpSrcCfgWrite src value) := fun _ => ⟨nofun, nofun, nofun⟩
theorem Ranges.tamperSettleEnd (src : Nat) : Ranges.Statement (.tamperSettleEnd src) := fun _ => ⟨nofun, nofun, nofun⟩
theorem Ranges.tamperPolWrite (value : Word) : Ranges.Statement (.tamperPolWrite value) := fun _ => ⟨nofun, nofun, nofun⟩
theorem Ranges.tamperPolMaskEnd (lines : BitVec 4) : Ranges.Statement (.tamperPolMaskEnd lines) := fun _ => ⟨nofun, nofun, nofun⟩
theorem Ranges.faultRaise (raises : List Raise) : Ranges.Statement (.faultRaise raises) := fun _ => ⟨nofun, nofun, nofun⟩
theorem Ranges.trapDelivery : Ranges.Statement .trapDelivery := fun _ => ⟨nofun, nofun, nofun⟩
theorem Ranges.aliveRestart : Ranges.Statement .aliveRestart := fun _ => ⟨nofun, nofun, nofun⟩
theorem Ranges.fcParityScan (bad : List Nat) : Ranges.Statement (.fcParityScan bad) := fun _ => ⟨nofun, nofun, nofun⟩
theorem Ranges.commitStart (verifyFails : Bool) : Ranges.Statement (.commitStart verifyFails) := fun _ => ⟨nofun, nofun, nofun⟩
theorem Ranges.commitDurable : Ranges.Statement .commitDurable := fun _ => ⟨nofun, nofun, nofun⟩
theorem Ranges.evidenceRecordWrite (verifyFails : Bool) : Ranges.Statement (.evidenceRecordWrite verifyFails) := fun _ => ⟨nofun, nofun, nofun⟩
theorem Ranges.evlIndexWrite (value : Word) : Ranges.Statement (.evlIndexWrite value) := fun _ => ⟨nofun, nofun, nofun⟩
theorem Ranges.ufRead (ue : Bool) : Ranges.Statement (.ufRead ue) := fun _ => ⟨nofun, nofun, nofun⟩
theorem Ranges.ufWrite (verifyFails : Bool) : Ranges.Statement (.ufWrite verifyFails) := fun _ => ⟨nofun, nofun, nofun⟩
theorem Ranges.vcoreStageChange (mv : Nat) : Ranges.Statement (.vcoreStageChange mv) := fun _ => ⟨nofun, nofun, nofun⟩
theorem Ranges.thermalSample (celsius : Int) : Ranges.Statement (.thermalSample celsius) := fun _ => ⟨nofun, nofun, nofun⟩
theorem Ranges.railLoss (rail : Rail) : Ranges.Statement (.railLoss rail) := fun _ => ⟨nofun, nofun, nofun⟩
theorem Ranges.railsGood : Ranges.Statement .railsGood := fun _ => ⟨nofun, nofun, nofun⟩
theorem Ranges.handoverToVbat : Ranges.Statement .handoverToVbat := fun _ => ⟨nofun, nofun, nofun⟩
theorem Ranges.handbackToVddIo : Ranges.Statement .handbackToVddIo := fun _ => ⟨nofun, nofun, nofun⟩
theorem Ranges.ringFrameRx (frame : RxFrame) : Ranges.Statement (.ringFrameRx frame) := fun _ => ⟨nofun, nofun, nofun⟩
theorem Ranges.ringRead (frame : RxFrame) : Ranges.Statement (.ringRead frame) := fun _ => ⟨nofun, nofun, nofun⟩
theorem Ranges.ringAlarmRx (frame : RxFrame) : Ranges.Statement (.ringAlarmRx frame) := fun _ => ⟨nofun, nofun, nofun⟩
theorem Ranges.ringFrameTx : Ranges.Statement .ringFrameTx := fun _ => ⟨nofun, nofun, nofun⟩
theorem Ranges.ringAlarmRepeat : Ranges.Statement .ringAlarmRepeat := fun _ => ⟨nofun, nofun, nofun⟩
theorem Ranges.passPathOpen : Ranges.Statement .passPathOpen := fun _ => ⟨nofun, nofun, nofun⟩
theorem Ranges.dmaWriteHanded (m : Nat) : Ranges.Statement (.dmaWriteHanded m) := fun h =>
  ⟨fun _ e => Ranges.of_some e h, nofun, nofun⟩
theorem Ranges.configWrite (m : Nat) (field : CfgWrite) : Ranges.Statement (.configWrite m field) := fun h =>
  ⟨fun _ e => Ranges.of_some e (Ranges.left h), nofun, nofun⟩
theorem Ranges.lfStatusClear (m : Nat) (leaf : Nat) (value : Word) : Ranges.Statement (.lfStatusClear m leaf value) := fun h =>
  ⟨fun _ e => Ranges.of_some e (Ranges.left h), fun _ e => Ranges.of_some e (Ranges.right h), nofun⟩
theorem Ranges.blockResetRelease (block : BlockId) (selfTestOk : Bool) : Ranges.Statement (.blockResetRelease block selfTestOk) := fun _ => ⟨nofun, nofun, nofun⟩
theorem Ranges.vbatLow : Ranges.Statement .vbatLow := fun _ => ⟨nofun, nofun, nofun⟩
theorem Ranges.aonRetentionLoss : Ranges.Statement .aonRetentionLoss := fun _ => ⟨nofun, nofun, nofun⟩
theorem Ranges.hgCreate : Ranges.Statement .hgCreate := fun _ => ⟨nofun, nofun, nofun⟩
theorem Ranges.hgQconfig : Ranges.Statement .hgQconfig := fun _ => ⟨nofun, nofun, nofun⟩
theorem Ranges.hgReset : Ranges.Statement .hgReset := fun _ => ⟨nofun, nofun, nofun⟩
theorem Ranges.hgDestroy : Ranges.Statement .hgDestroy := fun _ => ⟨nofun, nofun, nofun⟩
theorem Ranges.hgQuiesce : Ranges.Statement .hgQuiesce := fun _ => ⟨nofun, nofun, nofun⟩
theorem Ranges.hgResume : Ranges.Statement .hgResume := fun _ => ⟨nofun, nofun, nofun⟩
theorem Ranges.hgRebind : Ranges.Statement .hgRebind := fun _ => ⟨nofun, nofun, nofun⟩
theorem Ranges.hgDlogSet : Ranges.Statement .hgDlogSet := fun _ => ⟨nofun, nofun, nofun⟩
theorem Ranges.hgDlogHarvest : Ranges.Statement .hgDlogHarvest := fun _ => ⟨nofun, nofun, nofun⟩
theorem Ranges.hgDlogStop : Ranges.Statement .hgDlogStop := fun _ => ⟨nofun, nofun, nofun⟩
theorem Ranges.hgImportOpen : Ranges.Statement .hgImportOpen := fun _ => ⟨nofun, nofun, nofun⟩
theorem Ranges.hgExport : Ranges.Statement .hgExport := fun _ => ⟨nofun, nofun, nofun⟩
theorem Ranges.hgImport : Ranges.Statement .hgImport := fun _ => ⟨nofun, nofun, nofun⟩
theorem Ranges.kwIdgen : Ranges.Statement .kwIdgen := fun _ => ⟨nofun, nofun, nofun⟩
theorem Ranges.kwCertInstall : Ranges.Statement .kwCertInstall := fun _ => ⟨nofun, nofun, nofun⟩
theorem Ranges.kwCertRead : Ranges.Statement .kwCertRead := fun _ => ⟨nofun, nofun, nofun⟩
theorem Ranges.kwAttest : Ranges.Statement .kwAttest := fun _ => ⟨nofun, nofun, nofun⟩
theorem Ranges.hsOpen : Ranges.Statement .hsOpen := fun _ => ⟨nofun, nofun, nofun⟩
theorem Ranges.hsDropRights : Ranges.Statement .hsDropRights := fun _ => ⟨nofun, nofun, nofun⟩
theorem Ranges.hsTransition : Ranges.Statement .hsTransition := fun _ => ⟨nofun, nofun, nofun⟩
theorem Ranges.hsIntkeyInstall : Ranges.Statement .hsIntkeyInstall := fun _ => ⟨nofun, nofun, nofun⟩
theorem Ranges.miPatch : Ranges.Statement .miPatch := fun _ => ⟨nofun, nofun, nofun⟩
theorem Ranges.miRetire : Ranges.Statement .miRetire := fun _ => ⟨nofun, nofun, nofun⟩
theorem Ranges.miFwSwap : Ranges.Statement .miFwSwap := fun _ => ⟨nofun, nofun, nofun⟩
theorem Ranges.miPinRecal : Ranges.Statement .miPinRecal := fun _ => ⟨nofun, nofun, nofun⟩
theorem Ranges.miPinRetire : Ranges.Statement .miPinRetire := fun _ => ⟨nofun, nofun, nofun⟩
theorem Ranges.miRawCapture : Ranges.Statement .miRawCapture := fun _ => ⟨nofun, nofun, nofun⟩
theorem Ranges.miReseedAll : Ranges.Statement .miReseedAll := fun _ => ⟨nofun, nofun, nofun⟩
theorem Ranges.miMramScrub : Ranges.Statement .miMramScrub := fun _ => ⟨nofun, nofun, nofun⟩
theorem Ranges.miWearRelocate : Ranges.Statement .miWearRelocate := fun _ => ⟨nofun, nofun, nofun⟩
theorem Ranges.miImageWrite : Ranges.Statement .miImageWrite := fun _ => ⟨nofun, nofun, nofun⟩
theorem Ranges.miJournalCompact : Ranges.Statement .miJournalCompact := fun _ => ⟨nofun, nofun, nofun⟩
theorem Ranges.miWardRekey : Ranges.Statement .miWardRekey := fun _ => ⟨nofun, nofun, nofun⟩
theorem Ranges.miTamperRecal : Ranges.Statement .miTamperRecal := fun _ => ⟨nofun, nofun, nofun⟩

end Sys2Proof.Laws
end

