-- ==== Sys2Proof/Laws/State.lean ====
section
/-! SUPPORT. Laws of the tables, of the byte memories, and of the shared operations: what each leaves as it was, field by field, and
what it sets. -/

namespace Sys2Proof.Machine

/-! ### Tables -/

@[simp] theorem Map.get?_set_self {α : Type} (m : Map α) (k : Nat) (v : α) : Map.get? (Map.set m k v) k = some v := by
  induction m with
  | nil => simp [Map.set, Map.get?]
  | cons e r ih =>
    simp only [Map.set]; split
    · simp [Map.get?]
    · split
      · simp [Map.get?]
      · rename_i g; simp [Map.get?, ih, Ne.symm g]

theorem Map.get?_set_of_ne {α : Type} (m : Map α) {k j : Nat} (v : α) (h : k ≠ j) : Map.get? (Map.set m k v) j = Map.get? m j := by
  induction m with
  | nil => simp [Map.set, Map.get?, h]
  | cons e r ih =>
    simp only [Map.set]; split
    · simp [Map.get?, h]
    · split
      · rename_i g; simp [Map.get?, h, ← g]
      · simp [Map.get?, ih]

theorem Map.get?_modify {α : Type} (m : Map α) (k j : Nat) (f : α → α) :
    Map.get? (Map.modify m k f) j = if j = k then (Map.get? m j).map f else Map.get? m j := by
  induction m with
  | nil => simp [Map.modify, Map.get?]
  | cons e r ih =>
    simp only [Map.modify, List.map, Map.get?] at *
    by_cases h : e.1 = k <;> by_cases g : j = k <;> by_cases i : e.1 = j <;> simp_all

@[simp] theorem Map.get?_modify_self {α : Type} (m : Map α) (k : Nat) (f : α → α) :
    Map.get? (Map.modify m k f) k = (Map.get? m k).map f := by simp [Map.get?_modify]

@[simp] theorem Map.getD_set_self {α : Type} (m : Map α) (k : Nat) (v d : α) : Map.getD (Map.set m k v) k d = v := by
  simp [Map.getD]

theorem Map.getD_set_of_ne {α : Type} (m : Map α) {k j : Nat} (v d : α) (h : k ≠ j) :
    Map.getD (Map.set m k v) j d = Map.getD m j d := by
  simp [Map.getD, Map.get?_set_of_ne m v h]

/-! ### Byte memories -/

theorem Mem.wfFrom_mono {lo lo' : Nat} (h : lo' ≤ lo) : ∀ {m : Mem}, Mem.wfFrom lo m = true → Mem.wfFrom lo' m = true
  | [], _ => rfl
  | _ :: _, g => by
    simp only [Mem.wfFrom, Bool.and_eq_true, decide_eq_true_eq] at g ⊢
    exact ⟨⟨Nat.le_trans h g.1.1, g.1.2⟩, g.2⟩

theorem Mem.wfFrom_write (a : Nat) (b : Byte) : ∀ {m : Mem} {lo : Nat}, lo ≤ a → Mem.wfFrom lo m = true → Mem.wfFrom lo (Mem.write m a b) = true
  | [], lo, h, _ => by
    simp only [Mem.write]; split
    · rfl
    · rename_i n; simp only [Mem.wfFrom, Bool.and_true, Bool.and_eq_true, decide_eq_true_eq]; exact ⟨h, n⟩
  | (k, v) :: r, lo, h, g => by
    simp only [Mem.wfFrom, Bool.and_eq_true, decide_eq_true_eq] at g
    simp only [Mem.write]; split
    · rename_i lt; split
      · simp only [Mem.wfFrom, Bool.and_eq_true, decide_eq_true_eq]; exact g
      · rename_i n
        simp only [Mem.wfFrom, Bool.and_eq_true, decide_eq_true_eq]
        exact ⟨⟨h, n⟩, ⟨lt, g.1.2⟩, g.2⟩
    · rename_i nlt; split
      · rename_i e; split
        · exact Mem.wfFrom_mono (by omega) g.2
        · rename_i n
          simp only [Mem.wfFrom, Bool.and_eq_true, decide_eq_true_eq]
          exact ⟨⟨h, n⟩, e ▸ g.2⟩
      · simp only [Mem.wfFrom, Bool.and_eq_true, decide_eq_true_eq]
        exact ⟨g.1, Mem.wfFrom_write a b (by omega) g.2⟩

/-- A write keeps the canonical form. -/
theorem Mem.wf_write {m : Mem} (a : Nat) (b : Byte) (h : m.wf = true) : (m.write a b).wf = true :=
  Mem.wfFrom_write a b (Nat.zero_le a) h

/-- A write of a byte string keeps the canonical form. -/
theorem Mem.wf_writeN : ∀ (bs : Bytes) {m : Mem} (a : Nat), m.wf = true → (m.writeN a bs).wf = true
  | [], _, _, h => h
  | b :: r, _, a, h => Mem.wf_writeN r (a + 1) (Mem.wf_write a b h)

theorem Mem.wfFrom_filter (p : Host.Cell → Bool) : ∀ {m : Mem} {lo : Nat}, Mem.wfFrom lo m = true → Mem.wfFrom lo (m.filter p) = true
  | [], _, _ => rfl
  | (k, b) :: r, lo, g => by
    simp only [Mem.wfFrom, Bool.and_eq_true, decide_eq_true_eq] at g
    have ih := Mem.wfFrom_filter p g.2
    simp only [List.filter]; split
    · simp only [Mem.wfFrom, Bool.and_eq_true, decide_eq_true_eq]; exact ⟨g.1, ih⟩
    · exact Mem.wfFrom_mono (by omega) ih

/-- Clearing a range keeps the canonical form. -/
theorem Mem.wf_clear {m : Mem} (a n : Nat) (h : m.wf = true) : (m.clear a n).wf = true := Mem.wfFrom_filter _ h

theorem Mem.read_of_lt : ∀ {m : Mem} {lo a : Nat}, Mem.wfFrom lo m = true → a < lo → Mem.read m a = 0
  | [], _, _, _, _ => rfl
  | (k, v) :: r, lo, a, g, h => by
    simp only [Mem.wfFrom, Bool.and_eq_true, decide_eq_true_eq] at g
    have : k ≠ a := by omega
    simp [Mem.read, this, Mem.read_of_lt g.2 (by omega : a < k + 1)]

theorem Mem.read_write_self_from (a : Nat) (b : Byte) : ∀ {m : Mem} {lo : Nat}, Mem.wfFrom lo m = true → Mem.read (Mem.write m a b) a = b
  | [], _, _ => by
    simp only [Mem.write]; split
    · rename_i n; simp [Mem.read, n]
    · simp [Mem.read]
  | (k, v) :: r, lo, g => by
    simp only [Mem.wfFrom, Bool.and_eq_true, decide_eq_true_eq] at g
    simp only [Mem.write]; split
    · rename_i lt; split
      · rename_i n
        have : k ≠ a := by omega
        simp [Mem.read, this, n, Mem.read_of_lt g.2 (by omega : a < k + 1)]
      · simp [Mem.read]
    · split
      · rename_i e; split
        · rename_i n; rw [n]; exact Mem.read_of_lt g.2 (by omega)
        · simp [Mem.read]
      · rename_i n
        have : k ≠ a := fun e => n e.symm
        simp [Mem.read, this, Mem.read_write_self_from a b g.2]

/-- A byte reads as it was written. -/
@[simp] theorem Mem.read_write_self {m : Mem} (a : Nat) (b : Byte) (h : m.wf = true) : (m.write a b).read a = b :=
  Mem.read_write_self_from a b h

/-- A write leaves every other byte. -/
theorem Mem.read_write_of_ne {a c : Nat} (b : Byte) (h : a ≠ c) : ∀ (m : Mem), Mem.read (Mem.write m a b) c = Mem.read m c
  | [] => by
    simp only [Mem.write]; split
    · rfl
    · simp [Mem.read, h]
  | (k, v) :: r => by
    simp only [Mem.write]; split
    · split
      · rfl
      · simp [Mem.read, h]
    · split
      · rename_i e
        have : k ≠ c := e ▸ h
        split <;> simp [Mem.read, this, h]
      · simp [Mem.read, Mem.read_write_of_ne b h r]

/-- A write of a byte string leaves every byte outside it. -/
theorem Mem.read_writeN_of_outside : ∀ (bs : Bytes) (m : Mem) (a c : Nat), (c < a ∨ a + bs.length ≤ c) → Mem.read (Mem.writeN m a bs) c = Mem.read m c
  | [], _, _, _, _ => rfl
  | b :: r, m, a, c, h => by
    simp only [List.length_cons] at h
    rw [Mem.writeN, Mem.read_writeN_of_outside r _ _ _ (by omega), Mem.read_write_of_ne b (by omega)]

/-! ### How a meaning answers -/

@[simp] theorem run_true (s : State) (d : Device) : run s true d = .next { s with dev := { d with perm := s.dev.perm } } := rfl
@[simp] theorem run_false (s : State) (d : Device) : run s false d = .fault .cannotOccur := rfl
@[simp] theorem runPerm_true (s : State) (d : Device) : runPerm s true d = .next { s with dev := d } := rfl
@[simp] theorem runPerm_false (s : State) (d : Device) : runPerm s false d = .fault .cannotOccur := rfl

/-- `run` answers a next state, or `cannotOccur`. -/
theorem run_outcome (s : State) (c : Bool) (d : Device) : (∃ t, run s c d = .next t) ∨ run s c d = .fault .cannotOccur := by
  cases c
  · exact .inr rfl
  · exact .inl ⟨_, rfl⟩

/-- `runPerm` answers a next state, or `cannotOccur`. -/
theorem runPerm_outcome (s : State) (c : Bool) (d : Device) :
    (∃ t, runPerm s c d = .next t) ∨ runPerm s c d = .fault .cannotOccur := by
  cases c
  · exact .inr rfl
  · exact .inl ⟨_, rfl⟩

/-- A next state of `run` keeps the queue and the permanent memories, and holds the device but for them. -/
theorem run_next {s t : State} {c : Bool} {d : Device} (h : run s c d = .next t) :
    c = true ∧ t = { s with dev := { d with perm := s.dev.perm } } := by
  cases c
  · cases h
  · cases h; exact ⟨rfl, rfl⟩

/-- A next state of `runPerm` keeps the queue and holds the device. -/
theorem runPerm_next {s t : State} {c : Bool} {d : Device} (h : runPerm s c d = .next t) : c = true ∧ t = { s with dev := d } := by
  cases c
  · cases h
  · cases h; exact ⟨rfl, rfl⟩

@[simp] theorem Device.when_true (d : Device) (f : Device → Device) : d.when true f = f d := rfl
@[simp] theorem Device.when_false (d : Device) (f : Device → Device) : d.when false f = d := rfl

/-! ### What the shared operations leave, field by field -/

@[simp] theorem Device.emit_frame (d : Device) (o : Out) :
  (d.emit o).perm = d.perm ∧ (d.emit o).power = d.power ∧ (d.emit o).link0 = d.link0 ∧ (d.emit o).link1 = d.link1 ∧
  (d.emit o).dma0 = d.dma0 ∧ (d.emit o).dma1 = d.dma1 ∧ (d.emit o).ul = d.ul ∧ (d.emit o).hg = d.hg ∧ (d.emit o).leaves = d.leaves ∧
  (d.emit o).sc = d.sc ∧ (d.emit o).turns = d.turns ∧ (d.emit o).tu = d.tu ∧ (d.emit o).bo = d.bo ∧ (d.emit o).bb = d.bb ∧
  (d.emit o).bk = d.bk ∧ (d.emit o).dg = d.dg ∧ (d.emit o).slots = d.slots ∧ (d.emit o).ns = d.ns ∧ (d.emit o).kw = d.kw ∧
  (d.emit o).hs = d.hs ∧ (d.emit o).tp = d.tp ∧ (d.emit o).fc = d.fc ∧ (d.emit o).nv = d.nv ∧ (d.emit o).vault = d.vault ∧
  (d.emit o).mi = d.mi ∧ (d.emit o).mc = d.mc ∧ (d.emit o).ca = d.ca ∧ (d.emit o).lr = d.lr ∧ (d.emit o).jt = d.jt ∧
  (d.emit o).aon = d.aon ∧ (d.emit o).pairs = d.pairs ∧ (d.emit o).fresh = d.fresh :=
  ⟨rfl, rfl, rfl, rfl, rfl, rfl, rfl, rfl, rfl, rfl, rfl, rfl, rfl, rfl, rfl, rfl, rfl, rfl, rfl, rfl, rfl, rfl, rfl, rfl, rfl, rfl, rfl, rfl, rfl, rfl, rfl, rfl⟩

@[simp] theorem Device.raiseSrc_frame (d : Device) (n : Nat) :
  (d.raiseSrc n).perm = d.perm ∧ (d.raiseSrc n).power = d.power ∧ (d.raiseSrc n).link0 = d.link0 ∧ (d.raiseSrc n).link1 = d.link1 ∧
  (d.raiseSrc n).dma0 = d.dma0 ∧ (d.raiseSrc n).dma1 = d.dma1 ∧ (d.raiseSrc n).ul = d.ul ∧ (d.raiseSrc n).hg = d.hg ∧
  (d.raiseSrc n).leaves = d.leaves ∧ (d.raiseSrc n).sc = d.sc ∧ (d.raiseSrc n).turns = d.turns ∧ (d.raiseSrc n).tu = d.tu ∧
  (d.raiseSrc n).bo = d.bo ∧ (d.raiseSrc n).bb = d.bb ∧ (d.raiseSrc n).bk = d.bk ∧ (d.raiseSrc n).dg = d.dg ∧
  (d.raiseSrc n).slots = d.slots ∧ (d.raiseSrc n).ns = d.ns ∧ (d.raiseSrc n).kw = d.kw ∧ (d.raiseSrc n).hs = d.hs ∧
  (d.raiseSrc n).tp = d.tp ∧ (d.raiseSrc n).nv = d.nv ∧ (d.raiseSrc n).vault = d.vault ∧ (d.raiseSrc n).mi = d.mi ∧
  (d.raiseSrc n).mc = d.mc ∧ (d.raiseSrc n).ca = d.ca ∧ (d.raiseSrc n).lr = d.lr ∧ (d.raiseSrc n).jt = d.jt ∧ (d.raiseSrc n).aon = d.aon ∧
  (d.raiseSrc n).pairs = d.pairs ∧ (d.raiseSrc n).out = d.out ∧ (d.raiseSrc n).fresh = d.fresh :=
  ⟨rfl, rfl, rfl, rfl, rfl, rfl, rfl, rfl, rfl, rfl, rfl, rfl, rfl, rfl, rfl, rfl, rfl, rfl, rfl, rfl, rfl, rfl, rfl, rfl, rfl, rfl, rfl, rfl, rfl, rfl, rfl, rfl⟩

@[simp] theorem Device.raiseIn_frame (d : Device) (n slot : Nat) :
  (d.raiseIn n slot).perm = d.perm ∧ (d.raiseIn n slot).power = d.power ∧ (d.raiseIn n slot).link0 = d.link0 ∧
  (d.raiseIn n slot).link1 = d.link1 ∧ (d.raiseIn n slot).dma0 = d.dma0 ∧ (d.raiseIn n slot).dma1 = d.dma1 ∧ (d.raiseIn n slot).ul = d.ul ∧
  (d.raiseIn n slot).hg = d.hg ∧ (d.raiseIn n slot).leaves = d.leaves ∧ (d.raiseIn n slot).sc = d.sc ∧ (d.raiseIn n slot).turns = d.turns ∧
  (d.raiseIn n slot).tu = d.tu ∧ (d.raiseIn n slot).bo = d.bo ∧ (d.raiseIn n slot).bb = d.bb ∧ (d.raiseIn n slot).bk = d.bk ∧
  (d.raiseIn n slot).dg = d.dg ∧ (d.raiseIn n slot).slots = d.slots ∧ (d.raiseIn n slot).ns = d.ns ∧ (d.raiseIn n slot).kw = d.kw ∧
  (d.raiseIn n slot).hs = d.hs ∧ (d.raiseIn n slot).tp = d.tp ∧ (d.raiseIn n slot).nv = d.nv ∧ (d.raiseIn n slot).vault = d.vault ∧
  (d.raiseIn n slot).mi = d.mi ∧ (d.raiseIn n slot).mc = d.mc ∧ (d.raiseIn n slot).ca = d.ca ∧ (d.raiseIn n slot).lr = d.lr ∧
  (d.raiseIn n slot).jt = d.jt ∧ (d.raiseIn n slot).aon = d.aon ∧ (d.raiseIn n slot).pairs = d.pairs ∧ (d.raiseIn n slot).out = d.out ∧
  (d.raiseIn n slot).fresh = d.fresh :=
  ⟨rfl, rfl, rfl, rfl, rfl, rfl, rfl, rfl, rfl, rfl, rfl, rfl, rfl, rfl, rfl, rfl, rfl, rfl, rfl, rfl, rfl, rfl, rfl, rfl, rfl, rfl, rfl, rfl, rfl, rfl, rfl, rfl⟩

@[simp] theorem Device.setLeaf_frame (d : Device) (l : Nat) (v : Leaf) :
  (d.setLeaf l v).perm = d.perm ∧ (d.setLeaf l v).power = d.power ∧ (d.setLeaf l v).link0 = d.link0 ∧ (d.setLeaf l v).link1 = d.link1 ∧
  (d.setLeaf l v).dma0 = d.dma0 ∧ (d.setLeaf l v).dma1 = d.dma1 ∧ (d.setLeaf l v).ul = d.ul ∧ (d.setLeaf l v).hg = d.hg ∧
  (d.setLeaf l v).sc = d.sc ∧ (d.setLeaf l v).turns = d.turns ∧ (d.setLeaf l v).tu = d.tu ∧ (d.setLeaf l v).bo = d.bo ∧
  (d.setLeaf l v).bb = d.bb ∧ (d.setLeaf l v).bk = d.bk ∧ (d.setLeaf l v).dg = d.dg ∧ (d.setLeaf l v).slots = d.slots ∧
  (d.setLeaf l v).ns = d.ns ∧ (d.setLeaf l v).kw = d.kw ∧ (d.setLeaf l v).hs = d.hs ∧ (d.setLeaf l v).tp = d.tp ∧
  (d.setLeaf l v).fc = d.fc ∧ (d.setLeaf l v).nv = d.nv ∧ (d.setLeaf l v).vault = d.vault ∧ (d.setLeaf l v).mi = d.mi ∧
  (d.setLeaf l v).mc = d.mc ∧ (d.setLeaf l v).ca = d.ca ∧ (d.setLeaf l v).lr = d.lr ∧ (d.setLeaf l v).jt = d.jt ∧
  (d.setLeaf l v).aon = d.aon ∧ (d.setLeaf l v).pairs = d.pairs ∧ (d.setLeaf l v).out = d.out ∧ (d.setLeaf l v).fresh = d.fresh :=
  ⟨rfl, rfl, rfl, rfl, rfl, rfl, rfl, rfl, rfl, rfl, rfl, rfl, rfl, rfl, rfl, rfl, rfl, rfl, rfl, rfl, rfl, rfl, rfl, rfl, rfl, rfl, rfl, rfl, rfl, rfl, rfl, rfl⟩

@[simp] theorem Device.onLeaf_frame (d : Device) (l : Nat) (f : Leaf → Leaf) :
  (d.onLeaf l f).perm = d.perm ∧ (d.onLeaf l f).power = d.power ∧ (d.onLeaf l f).link0 = d.link0 ∧ (d.onLeaf l f).link1 = d.link1 ∧
  (d.onLeaf l f).dma0 = d.dma0 ∧ (d.onLeaf l f).dma1 = d.dma1 ∧ (d.onLeaf l f).ul = d.ul ∧ (d.onLeaf l f).hg = d.hg ∧
  (d.onLeaf l f).sc = d.sc ∧ (d.onLeaf l f).turns = d.turns ∧ (d.onLeaf l f).tu = d.tu ∧ (d.onLeaf l f).bo = d.bo ∧
  (d.onLeaf l f).bb = d.bb ∧ (d.onLeaf l f).bk = d.bk ∧ (d.onLeaf l f).dg = d.dg ∧ (d.onLeaf l f).slots = d.slots ∧
  (d.onLeaf l f).ns = d.ns ∧ (d.onLeaf l f).kw = d.kw ∧ (d.onLeaf l f).hs = d.hs ∧ (d.onLeaf l f).tp = d.tp ∧ (d.onLeaf l f).fc = d.fc ∧
  (d.onLeaf l f).nv = d.nv ∧ (d.onLeaf l f).vault = d.vault ∧ (d.onLeaf l f).mi = d.mi ∧ (d.onLeaf l f).mc = d.mc ∧
  (d.onLeaf l f).ca = d.ca ∧ (d.onLeaf l f).lr = d.lr ∧ (d.onLeaf l f).jt = d.jt ∧ (d.onLeaf l f).aon = d.aon ∧
  (d.onLeaf l f).pairs = d.pairs ∧ (d.onLeaf l f).out = d.out ∧ (d.onLeaf l f).fresh = d.fresh :=
  ⟨rfl, rfl, rfl, rfl, rfl, rfl, rfl, rfl, rfl, rfl, rfl, rfl, rfl, rfl, rfl, rfl, rfl, rfl, rfl, rfl, rfl, rfl, rfl, rfl, rfl, rfl, rfl, rfl, rfl, rfl, rfl, rfl⟩

@[simp] theorem Device.onTurn_frame (d : Device) (k : Nat) (f : Turn → Turn) :
  (d.onTurn k f).perm = d.perm ∧ (d.onTurn k f).power = d.power ∧ (d.onTurn k f).link0 = d.link0 ∧ (d.onTurn k f).link1 = d.link1 ∧
  (d.onTurn k f).dma0 = d.dma0 ∧ (d.onTurn k f).dma1 = d.dma1 ∧ (d.onTurn k f).ul = d.ul ∧ (d.onTurn k f).hg = d.hg ∧
  (d.onTurn k f).leaves = d.leaves ∧ (d.onTurn k f).sc = d.sc ∧ (d.onTurn k f).tu = d.tu ∧ (d.onTurn k f).bo = d.bo ∧
  (d.onTurn k f).bb = d.bb ∧ (d.onTurn k f).bk = d.bk ∧ (d.onTurn k f).dg = d.dg ∧ (d.onTurn k f).slots = d.slots ∧
  (d.onTurn k f).ns = d.ns ∧ (d.onTurn k f).kw = d.kw ∧ (d.onTurn k f).hs = d.hs ∧ (d.onTurn k f).tp = d.tp ∧ (d.onTurn k f).fc = d.fc ∧
  (d.onTurn k f).nv = d.nv ∧ (d.onTurn k f).vault = d.vault ∧ (d.onTurn k f).mi = d.mi ∧ (d.onTurn k f).mc = d.mc ∧
  (d.onTurn k f).ca = d.ca ∧ (d.onTurn k f).lr = d.lr ∧ (d.onTurn k f).jt = d.jt ∧ (d.onTurn k f).aon = d.aon ∧
  (d.onTurn k f).pairs = d.pairs ∧ (d.onTurn k f).out = d.out ∧ (d.onTurn k f).fresh = d.fresh :=
  ⟨rfl, rfl, rfl, rfl, rfl, rfl, rfl, rfl, rfl, rfl, rfl, rfl, rfl, rfl, rfl, rfl, rfl, rfl, rfl, rfl, rfl, rfl, rfl, rfl, rfl, rfl, rfl, rfl, rfl, rfl, rfl, rfl⟩

@[simp] theorem Device.onTu_frame (d : Device) (n : Nat) (f : Engine → Engine) :
  (d.onTu n f).perm = d.perm ∧ (d.onTu n f).power = d.power ∧ (d.onTu n f).link0 = d.link0 ∧ (d.onTu n f).link1 = d.link1 ∧
  (d.onTu n f).dma0 = d.dma0 ∧ (d.onTu n f).dma1 = d.dma1 ∧ (d.onTu n f).ul = d.ul ∧ (d.onTu n f).hg = d.hg ∧
  (d.onTu n f).leaves = d.leaves ∧ (d.onTu n f).sc = d.sc ∧ (d.onTu n f).turns = d.turns ∧ (d.onTu n f).bo = d.bo ∧
  (d.onTu n f).bb = d.bb ∧ (d.onTu n f).bk = d.bk ∧ (d.onTu n f).dg = d.dg ∧ (d.onTu n f).slots = d.slots ∧ (d.onTu n f).ns = d.ns ∧
  (d.onTu n f).kw = d.kw ∧ (d.onTu n f).hs = d.hs ∧ (d.onTu n f).tp = d.tp ∧ (d.onTu n f).fc = d.fc ∧ (d.onTu n f).nv = d.nv ∧
  (d.onTu n f).vault = d.vault ∧ (d.onTu n f).mi = d.mi ∧ (d.onTu n f).mc = d.mc ∧ (d.onTu n f).ca = d.ca ∧ (d.onTu n f).lr = d.lr ∧
  (d.onTu n f).jt = d.jt ∧ (d.onTu n f).aon = d.aon ∧ (d.onTu n f).pairs = d.pairs ∧ (d.onTu n f).out = d.out ∧
  (d.onTu n f).fresh = d.fresh :=
  ⟨rfl, rfl, rfl, rfl, rfl, rfl, rfl, rfl, rfl, rfl, rfl, rfl, rfl, rfl, rfl, rfl, rfl, rfl, rfl, rfl, rfl, rfl, rfl, rfl, rfl, rfl, rfl, rfl, rfl, rfl, rfl, rfl⟩

@[simp] theorem Device.onBo_frame (d : Device) (n : Nat) (f : Engine → Engine) :
  (d.onBo n f).perm = d.perm ∧ (d.onBo n f).power = d.power ∧ (d.onBo n f).link0 = d.link0 ∧ (d.onBo n f).link1 = d.link1 ∧
  (d.onBo n f).dma0 = d.dma0 ∧ (d.onBo n f).dma1 = d.dma1 ∧ (d.onBo n f).ul = d.ul ∧ (d.onBo n f).hg = d.hg ∧
  (d.onBo n f).leaves = d.leaves ∧ (d.onBo n f).sc = d.sc ∧ (d.onBo n f).turns = d.turns ∧ (d.onBo n f).tu = d.tu ∧
  (d.onBo n f).bb = d.bb ∧ (d.onBo n f).bk = d.bk ∧ (d.onBo n f).dg = d.dg ∧ (d.onBo n f).slots = d.slots ∧ (d.onBo n f).ns = d.ns ∧
  (d.onBo n f).kw = d.kw ∧ (d.onBo n f).hs = d.hs ∧ (d.onBo n f).tp = d.tp ∧ (d.onBo n f).fc = d.fc ∧ (d.onBo n f).nv = d.nv ∧
  (d.onBo n f).vault = d.vault ∧ (d.onBo n f).mi = d.mi ∧ (d.onBo n f).mc = d.mc ∧ (d.onBo n f).ca = d.ca ∧ (d.onBo n f).lr = d.lr ∧
  (d.onBo n f).jt = d.jt ∧ (d.onBo n f).aon = d.aon ∧ (d.onBo n f).pairs = d.pairs ∧ (d.onBo n f).out = d.out ∧
  (d.onBo n f).fresh = d.fresh :=
  ⟨rfl, rfl, rfl, rfl, rfl, rfl, rfl, rfl, rfl, rfl, rfl, rfl, rfl, rfl, rfl, rfl, rfl, rfl, rfl, rfl, rfl, rfl, rfl, rfl, rfl, rfl, rfl, rfl, rfl, rfl, rfl, rfl⟩

@[simp] theorem Device.evidence_frame (d : Device) (k n : Nat) (w : List Nat) :
  (d.evidence k n w).perm = d.perm ∧ (d.evidence k n w).power = d.power ∧ (d.evidence k n w).link0 = d.link0 ∧
  (d.evidence k n w).link1 = d.link1 ∧ (d.evidence k n w).dma0 = d.dma0 ∧ (d.evidence k n w).dma1 = d.dma1 ∧ (d.evidence k n w).ul = d.ul ∧
  (d.evidence k n w).hg = d.hg ∧ (d.evidence k n w).leaves = d.leaves ∧ (d.evidence k n w).sc = d.sc ∧ (d.evidence k n w).turns = d.turns ∧
  (d.evidence k n w).tu = d.tu ∧ (d.evidence k n w).bo = d.bo ∧ (d.evidence k n w).bb = d.bb ∧ (d.evidence k n w).bk = d.bk ∧
  (d.evidence k n w).dg = d.dg ∧ (d.evidence k n w).slots = d.slots ∧ (d.evidence k n w).ns = d.ns ∧ (d.evidence k n w).kw = d.kw ∧
  (d.evidence k n w).hs = d.hs ∧ (d.evidence k n w).tp = d.tp ∧ (d.evidence k n w).fc = d.fc ∧ (d.evidence k n w).vault = d.vault ∧
  (d.evidence k n w).mi = d.mi ∧ (d.evidence k n w).mc = d.mc ∧ (d.evidence k n w).ca = d.ca ∧ (d.evidence k n w).lr = d.lr ∧
  (d.evidence k n w).jt = d.jt ∧ (d.evidence k n w).aon = d.aon ∧ (d.evidence k n w).pairs = d.pairs ∧ (d.evidence k n w).out = d.out ∧
  (d.evidence k n w).fresh = d.fresh :=
  ⟨rfl, rfl, rfl, rfl, rfl, rfl, rfl, rfl, rfl, rfl, rfl, rfl, rfl, rfl, rfl, rfl, rfl, rfl, rfl, rfl, rfl, rfl, rfl, rfl, rfl, rfl, rfl, rfl, rfl, rfl, rfl, rfl⟩

@[simp] theorem Device.commit_frame (d : Device) (v : CommitVal) (w : CommitWhy) :
  (d.commit v w).perm = d.perm ∧ (d.commit v w).power = d.power ∧ (d.commit v w).link0 = d.link0 ∧ (d.commit v w).link1 = d.link1 ∧
  (d.commit v w).dma0 = d.dma0 ∧ (d.commit v w).dma1 = d.dma1 ∧ (d.commit v w).ul = d.ul ∧ (d.commit v w).hg = d.hg ∧
  (d.commit v w).leaves = d.leaves ∧ (d.commit v w).sc = d.sc ∧ (d.commit v w).turns = d.turns ∧ (d.commit v w).tu = d.tu ∧
  (d.commit v w).bo = d.bo ∧ (d.commit v w).bb = d.bb ∧ (d.commit v w).bk = d.bk ∧ (d.commit v w).dg = d.dg ∧
  (d.commit v w).slots = d.slots ∧ (d.commit v w).ns = d.ns ∧ (d.commit v w).kw = d.kw ∧ (d.commit v w).hs = d.hs ∧
  (d.commit v w).tp = d.tp ∧ (d.commit v w).fc = d.fc ∧ (d.commit v w).vault = d.vault ∧ (d.commit v w).mi = d.mi ∧
  (d.commit v w).mc = d.mc ∧ (d.commit v w).ca = d.ca ∧ (d.commit v w).lr = d.lr ∧ (d.commit v w).jt = d.jt ∧ (d.commit v w).aon = d.aon ∧
  (d.commit v w).pairs = d.pairs ∧ (d.commit v w).out = d.out ∧ (d.commit v w).fresh = d.fresh :=
  ⟨rfl, rfl, rfl, rfl, rfl, rfl, rfl, rfl, rfl, rfl, rfl, rfl, rfl, rfl, rfl, rfl, rfl, rfl, rfl, rfl, rfl, rfl, rfl, rfl, rfl, rfl, rfl, rfl, rfl, rfl, rfl, rfl⟩

@[simp] theorem Device.onLink_frame (d : Device) (m : Nat) (f : Link → Link) :
  (d.onLink m f).perm = d.perm ∧ (d.onLink m f).power = d.power ∧ (d.onLink m f).dma0 = d.dma0 ∧ (d.onLink m f).dma1 = d.dma1 ∧
  (d.onLink m f).ul = d.ul ∧ (d.onLink m f).hg = d.hg ∧ (d.onLink m f).leaves = d.leaves ∧ (d.onLink m f).sc = d.sc ∧
  (d.onLink m f).turns = d.turns ∧ (d.onLink m f).tu = d.tu ∧ (d.onLink m f).bo = d.bo ∧ (d.onLink m f).bb = d.bb ∧
  (d.onLink m f).bk = d.bk ∧ (d.onLink m f).dg = d.dg ∧ (d.onLink m f).slots = d.slots ∧ (d.onLink m f).ns = d.ns ∧
  (d.onLink m f).kw = d.kw ∧ (d.onLink m f).hs = d.hs ∧ (d.onLink m f).tp = d.tp ∧ (d.onLink m f).fc = d.fc ∧ (d.onLink m f).nv = d.nv ∧
  (d.onLink m f).vault = d.vault ∧ (d.onLink m f).mi = d.mi ∧ (d.onLink m f).mc = d.mc ∧ (d.onLink m f).ca = d.ca ∧
  (d.onLink m f).lr = d.lr ∧ (d.onLink m f).jt = d.jt ∧ (d.onLink m f).aon = d.aon ∧ (d.onLink m f).pairs = d.pairs ∧
  (d.onLink m f).out = d.out ∧ (d.onLink m f).fresh = d.fresh := by
  unfold Device.onLink; split <;> simp

@[simp] theorem Device.onDma_frame (d : Device) (m : Nat) (f : Dma → Dma) :
  (d.onDma m f).perm = d.perm ∧ (d.onDma m f).power = d.power ∧ (d.onDma m f).link0 = d.link0 ∧ (d.onDma m f).link1 = d.link1 ∧
  (d.onDma m f).ul = d.ul ∧ (d.onDma m f).hg = d.hg ∧ (d.onDma m f).leaves = d.leaves ∧ (d.onDma m f).sc = d.sc ∧
  (d.onDma m f).turns = d.turns ∧ (d.onDma m f).tu = d.tu ∧ (d.onDma m f).bo = d.bo ∧ (d.onDma m f).bb = d.bb ∧ (d.onDma m f).bk = d.bk ∧
  (d.onDma m f).dg = d.dg ∧ (d.onDma m f).slots = d.slots ∧ (d.onDma m f).ns = d.ns ∧ (d.onDma m f).kw = d.kw ∧ (d.onDma m f).hs = d.hs ∧
  (d.onDma m f).tp = d.tp ∧ (d.onDma m f).fc = d.fc ∧ (d.onDma m f).nv = d.nv ∧ (d.onDma m f).vault = d.vault ∧ (d.onDma m f).mi = d.mi ∧
  (d.onDma m f).mc = d.mc ∧ (d.onDma m f).ca = d.ca ∧ (d.onDma m f).lr = d.lr ∧ (d.onDma m f).jt = d.jt ∧ (d.onDma m f).aon = d.aon ∧
  (d.onDma m f).pairs = d.pairs ∧ (d.onDma m f).out = d.out ∧ (d.onDma m f).fresh = d.fresh := by
  unfold Device.onDma; split <;> simp

/-! ### What they set -/

@[simp] theorem Device.emit_out (d : Device) (o : Out) : (d.emit o).out = d.out ++ [o] := rfl
@[simp] theorem Device.raiseSrc_incoming (d : Device) (n : Nat) : (d.raiseSrc n).fc.incoming = d.fc.incoming ++ [{ source := n }] := rfl
@[simp] theorem Device.leaf_setLeaf (d : Device) (l : Nat) (v : Leaf) : (d.setLeaf l v).leaf l = v := by simp [Device.leaf, Device.setLeaf]
theorem Device.leaf_setLeaf_of_ne (d : Device) {l k : Nat} (v : Leaf) (h : l ≠ k) : (d.setLeaf l v).leaf k = d.leaf k := by
  simp [Device.leaf, Device.setLeaf, Map.getD_set_of_ne _ _ _ h]
@[simp] theorem Device.leaf_onLeaf (d : Device) (l : Nat) (f : Leaf → Leaf) : (d.onLeaf l f).leaf l = f (d.leaf l) := by simp [Device.onLeaf]
theorem Device.leaf_onLeaf_of_ne (d : Device) {l k : Nat} (f : Leaf → Leaf) (h : l ≠ k) : (d.onLeaf l f).leaf k = d.leaf k := by
  simp [Device.onLeaf, Device.leaf_setLeaf_of_ne _ _ h]
@[simp] theorem Device.turn_onTurn (d : Device) (k : Nat) (f : Turn → Turn) :
    Map.get? (d.onTurn k f).turns k = (Map.get? d.turns k).map f := by simp [Device.onTurn]
@[simp] theorem Leaf.queue_onQueue (l : Leaf) (q : Nat) (f : Queue → Queue) : (l.onQueue q f).queue q = f (l.queue q) := by
  simp [Leaf.queue, Leaf.onQueue]
@[simp] theorem Device.link_onLink (d : Device) (m : Nat) (f : Link → Link) : (d.onLink m f).link m = f (d.link m) := by
  unfold Device.onLink Device.link; split <;> rfl
@[simp] theorem Device.dma_onDma (d : Device) (m : Nat) (f : Dma → Dma) : (d.onDma m f).dma m = f (d.dma m) := by
  unfold Device.onDma Device.dma; split <;> rfl
@[simp] theorem Device.commit_queue (d : Device) (v : CommitVal) (w : CommitWhy) :
    (d.commit v w).nv.queue = d.nv.queue ++ [{ val := v, why := w }] := rfl

end Sys2Proof.Machine
end

