-- ==== Sys2Proof/Tests/Slice0.lean ====
section
/-! SUPPORT. Tests: ill-formed commands are refused, words written out from the encoding tables decode, published answers of the
cryptographic functions, and for each statement a state and operands that meet the premises of each of its clauses. -/

namespace Sys2Proof.Tests

open Sys2Proof.Machine Sys2Proof.Safety

/-! ### Well-formed commands -/

/-- Ill-formed commands, one for each check. -/
theorem test_wf_refuses_1 :
  ([
    .powerLoss true (2 ^ 60), .pllLockLoss (.ucie 2), .bootRomStart (some 0) 0, .bootRomStart (some 9) 0, .bootRomStart none (2 ^ 60),
    .bootFirmwareStart { badEngines := [(4, 0)] }, .bootFirmwareStart { badEngines := [(0, 64)] },
    .bootFirmwareStart { lostDuplex := [5] }, .bootFirmwareStart { lostSeq := some (2 ^ 48) }, .configRead (2 ^ 60) 0,
    .configRead 0 (2 ^ 60), .partnerSidebandActive (2 ^ 60), .noPartnerTimeout (2 ^ 60), .linkTrained (2 ^ 60) 0 0 0,
    .linkTrained 0 (2 ^ 60) 0 0, .linkTrained 0 0 (2 ^ 60) 0, .linkTrained 0 0 0 (2 ^ 60), .linkRetrain (2 ^ 60), .linkDown (2 ^ 60),
    .replayThreshold (2 ^ 60), .moduleRetrain (2 ^ 60) 0, .registerWrite (2 ^ 60) {} 0, .registerWrite 0 { size := 65 } 0,
    .registerWrite 0 { enables := 16 } 0, .pairLoRead (.leafWin 2 0) { off := 0 }, .pairLoRead (.leafWin 0 4096) { off := 0 },
    .pairLoRead .hinge { off := (2 ^ 60) }, .pairLoRead .hinge { off := 0, size := 65 }, .pairLoRead .hinge { off := 0, enables := 16 },
    .pairHiRead (.leafWin 2 0) { off := 0 }, .pairHiRead (.leafWin 0 4096) { off := 0 }, .pairHiRead .hinge { off := (2 ^ 60) },
    .pairHiRead .hinge { off := 0, size := 65 }, .pairHiRead .hinge { off := 0, enables := 16 }, .pairLoWrite { off := (2 ^ 60) } 0,
    .pairLoWrite { off := 0, size := 65 } 0, .pairLoWrite { off := 0, enables := 16 } 0, .pairHiWrite { off := (2 ^ 60) } 0,
    .pairHiWrite { off := 0, size := 65 } 0, .pairHiWrite { off := 0, enables := 16 } 0] : List Instr).all (fun c => !c.wf) = true := by decide +kernel

/-- Ill-formed commands, one for each check. -/
theorem test_wf_refuses_2 :
  ([
    .vaultWindowRead { off := (2 ^ 60) }, .vaultWindowRead { off := 8388608, size := 65 },
    .vaultWindowRead { off := 8388608, enables := 16 }, .vaultWindowWrite { off := (2 ^ 60) } 0,
    .vaultWindowWrite { off := 8388608, size := 65 } 0, .vaultWindowWrite { off := 8388608, enables := 16 } 0,
    .doorbellWrite (2 ^ 60) 0 0 0 0, .doorbellWrite 0 (2 ^ 60) 0 0 0, .doorbellWrite 0 0 (2 ^ 60) 0 0, .doorbellWrite 0 0 0 (2 ^ 60) 0,
    .randomWindowRead (2 ^ 60) 0 0 0, .randomWindowRead 0 (2 ^ 60) 0 0, .randomWindowRead 0 0 (2 ^ 60) 0,
    .randomWindowRead 0 0 0 (2 ^ 60), .randomReadRelease (2 ^ 60), .dmaReadComplete (2 ^ 60) 0 [], .dmaReadComplete 0 0 (zeros 4097),
    .dmaReadComplete 0 0 (zeros 16385), .dmaReadError (2 ^ 60) 0 .ur, .dmaReadError 0 0 (.byteCount (zeros 4097)),
    .dmaCompletionTimeout (2 ^ 60) 0, .dmaWriteFail (2 ^ 60), .resetDone (2 ^ 60), .quiesceDeadline (2 ^ 60), .quiesceComplete (2 ^ 60),
    .strokeEnd [.engine (.tumbler 32)], .strokeEnd [.engine (.bolt 16)], .strokeEnd [.engine (.plainBarrel 192)],
    .strokeEnd [.engine (.maskedBarrel 64)], .strokeEnd [.engine (.sha256 32)], .strokeEnd [.engine (.sha512 32)],
    .strokeEnd [.engine (.aes 64)], .strokeEnd [.engine (.mult 16)], .strokeEnd [.storeUe (.tumbler 32) .free],
    .strokeEnd [.storeUe (.tumbler 0) (.cells [8192])], .strokeEnd [.storeCe (.bolt 16) true], .strokeEnd [.invariant 8192],
    .strokeEnd [.slotUe 8192], .keywayChangeApply (2 ^ 60), .spillUnitGrant (2 ^ 60)] : List Instr).all (fun c => !c.wf) = true := by decide +kernel

/-- Ill-formed commands, one for each check. -/
theorem test_wf_refuses_3 :
  ([
    .storeScrubStep (.tumbler 32) .clean .free, .storeScrubStep (.bolt 16) .clean .free,
    .storeScrubStep (.vault 2 (.free 0)) .clean .free, .storeScrubStep (.vault 0 (.context 4096)) .clean .free,
    .storeScrubStep (.vault 0 (.spill 8192)) .clean .free, .storeScrubStep (.vault 0 (.free 33554432)) .clean .free,
    .storeScrubStep (.tumbler 0) .clean (.cells [8192]), .storeScrubStep (.tumbler 0) .clean (.frame (some 8192)),
    .errorInject (.tumbler 32) 0, .errorInject (.bolt 16) 0, .maskReseed (.tumbler 32), .maskReseed (.bolt 16),
    .maskStarved (.tumbler 32), .maskStarved (.bolt 16), .noiseBlockEnd [], .pinRetrimDone (2 ^ 60), .entropyWaitExpiry (2 ^ 60),
    .haspOddBurn (2 ^ 60), .haspEvenBurn (2 ^ 60), .mramScrubGroup .clean (2 ^ 60) true, .caRestoreFactory (List.replicate 84 true),
    .monFaultsClear (2 ^ 60), .monCal (2 ^ 60) 0, .monCal 0 (2 ^ 60), .monCalSet (2 ^ 60) 0 [] true, .monCalSet 0 (2 ^ 60) [] true,
    .monCalSet 0 0 (zeros 4097) true, .monCalSet 0 0 (zeros 16385) true, .monCalDrop (2 ^ 60) 0 true, .monCalDrop 0 (2 ^ 60) true,
    .monCalRestore (List.replicate 84 true), .monPeek (2 ^ 60), .monDump (2 ^ 60) 1, .monDump 0 (2 ^ 60), .monDump 0 0,
    .monPoke (2 ^ 60) 0, .monOpen (zeros 16385), .monBaud (2 ^ 60), .jtagOpen (zeros 16385), .tamperEvent [8192]] : List Instr).all (fun c => !c.wf) = true := by decide +kernel

/-- Ill-formed commands, one for each check. -/
theorem test_wf_refuses_4 :
  ([
    .tamperEvent [32], .tamperWindowExpiry (2 ^ 60), .tpSrcCfgWrite (2 ^ 60) 0, .tamperSettleEnd (2 ^ 60),
    .faultRaise [{ source := 1536 }], .faultRaise [{ source := 5, slot := some 8192 }], .faultRaise [{ source := 5, leaf := some 4096 }],
    .faultRaise [{ source := 5, spot := some (.frame (some 8192)) }], .fcParityScan [8192], .vcoreStageChange (2 ^ 60),
    .thermalSample (-129), .thermalSample 128, .ringFrameRx ⟨zeros 39⟩, .ringRead ⟨zeros 39⟩, .ringAlarmRx ⟨zeros 39⟩,
    .dmaWriteHanded (2 ^ 60), .configWrite (2 ^ 60) (.msixEnable true), .configWrite 0 (.maxPayload 100), .configWrite 0 (.other 1024 0),
    .lfStatusClear (2 ^ 60) 0 0, .lfStatusClear 0 (2 ^ 60) 0, .blockResetRelease (.tumbler 32) true, .blockResetRelease (.bolt 16) true,
    .blockResetRelease (.link 2) true, .blockResetRelease (.dma 2) true, .blockResetRelease (.vaultHalf 2) true] : List Instr).all (fun c => !c.wf) = true := by decide +kernel

/-- A turn slot that does not exist. -/
theorem test_wf_refuses_5 :
  ([
    .zxNop 8192, .zxEnd 8192, .zxFence 8192, .zxWait 8192, .zxSkipIf 8192, .zxRepeat 8192, .zxAlloc 8192, .zxFree 8192, .zxLoad 8192,
    .zxStore 8192, .zxStoreStream 8192, .zxCopyWhole 8192, .zxCopySlice 8192, .zxCopyAppend 8192, .zxCopyCtr 8192, .zxZero 8192,
    .zxXor 8192, .zxRandFill 8192, .zxKeywCut 8192, .zxKeywGen 8192, .zxKeywClear 8192, .zxKeywWrap 8192, .zxKeywUnwrap 8192,
    .zxKeywDerive 8192, .zxMlkemKeygen 8192, .zxMlkemEncaps 8192, .zxMlkemDecaps 8192, .zxMldsaKeygen 8192, .zxMldsaSign 8192,
    .zxMldsaVerify 8192, .zxHqcKeygen 8192, .zxHqcEncaps 8192, .zxHqcDecaps 8192, .zxMceKeygen 8192, .zxMceEncaps 8192, .zxMceDecaps 8192,
    .zxDigestInit 8192, .zxDigestAbsorb 8192, .zxDigestStream 8192, .zxDigestFinal 8192] : List Instr).all (fun c => !c.wf) = true := by decide +kernel

/-- A turn slot that does not exist. -/
theorem test_wf_refuses_6 :
  ([
    .zxXofSqueeze 8192, .zxMacKeystate 8192, .zxMacInit 8192, .zxMacFinal 8192, .zxCmpCt 8192, .zxSlhKeygen 8192, .zxSlhSign 8192,
    .zxSlhVerify 8192, .zxBnSetmod 8192, .zxBnAdd 8192, .zxBnSub 8192, .zxBnMul 8192, .zxBnExp 8192, .zxBnInv 8192, .zxEcKeygen 8192,
    .zxEcSign 8192, .zxEcVerify 8192, .zxEcDh 8192, .zxEcxKeygen 8192, .zxEcxMul 8192, .zxEdKeygen 8192, .zxEdSign 8192, .zxEdVerify 8192,
    .zxRsaPub 8192, .zxRsaPriv 8192, .zxRsaCrt 8192, .zxBlkEnc 8192, .zxBlkDec 8192, .zxGhmGhash 8192, .zxGhmXtsSeq 8192,
    .zxCtxSaveVault 8192, .zxCtxSaveWrapped 8192, .zxCtxRestoreVault 8192, .zxCtxRestoreWrapped 8192] : List Instr).all (fun c => !c.wf) = true := by decide +kernel

/-! ### Decode and published answers -/

/-- Words written out from the fields of R99 and the opcodes of R123: NOP, END with no cell, SKIP.IF class 3, REPEAT of two words, three times, ALLOC of c31, LOAD, STORE, streaming, COPY, counter blocks, KEYW.GEN, MLKEM.ENCAPS, MLDSA.VERIFY. -/
theorem test_decodes_words_1 :
  decodeWord 0x0000FFFFFF000000 = .ok ⟨.nop, 0, 0xFF, 0xFF, 0xFF, 0⟩ ∧
  decodeWord 0x0100FFFFFF000000 = .ok ⟨.fin, 0, 0xFF, 0xFF, 0xFF, 0⟩ ∧
  decodeWord 0x0401FFFFFF000002 = .ok ⟨.skipIf, 1, 0xFF, 0xFF, 0xFF, 2⟩ ∧
  decodeWord 0x0500FFFFFF002003 = .ok ⟨.loop, 0, 0xFF, 0xFF, 0xFF, 0x2003⟩ ∧
  decodeWord 0x10001FFFFF004000 = .ok ⟨.alloc, 0, 0x1F, 0xFF, 0xFF, 0x4000⟩ ∧
  decodeWord 0x120104FFFF000040 = .ok ⟨.load, 1, 0x04, 0xFF, 0xFF, 0x40⟩ ∧
  decodeWord 0x1302FF05FF000080 = .ok ⟨.storeStream, 2, 0xFF, 0x05, 0xFF, 0x80⟩ ∧
  decodeWord 0x14030607FF000010 = .ok ⟨.copyCtr, 3, 0x06, 0x07, 0xFF, 0x10⟩ ∧
  decodeWord 0x2101FFFFFF000002 = .ok ⟨.keywGen, 1, 0xFF, 0xFF, 0xFF, 2⟩ ∧
  decodeWord 0x3102010203000000 = .ok ⟨.mlkemEncaps, 2, 0x01, 0x02, 0x03, 0⟩ ∧
  decodeWord 0x3600010203000000 = .ok ⟨.mldsaVerify, 0, 0x01, 0x02, 0x03, 0⟩ :=
  ⟨rfl, rfl, rfl, rfl, rfl, rfl, rfl, rfl, rfl, rfl, rfl⟩

/-- Words written out from the fields of R99 and the opcodes of R123: HQC.DECAPS, MCE.KEYGEN, DIGEST.INIT, MAC.KEYSTATE from the keyway, SLH.SIGN, BN.MUL of 2,048 bits, EC.SIGN with a seed, RSA.CRT, BLK.ENC under the keyway, GHM, the XTS sequence, CTX.RESTORE, wrapped. -/
theorem test_decodes_words_2 :
  decodeWord 0x4201010203000000 = .ok ⟨.hqcDecaps, 1, 0x01, 0x02, 0x03, 0⟩ ∧
  decodeWord 0x440401FFFF000000 = .ok ⟨.mceKeygen, 4, 0x01, 0xFF, 0xFF, 0⟩ ∧
  decodeWord 0x500501FFFF000002 = .ok ⟨.digestInit, 5, 0x01, 0xFF, 0xFF, 2⟩ ∧
  decodeWord 0x5880FFFFFF000123 = .ok ⟨.macKeystate, 0x80, 0xFF, 0xFF, 0xFF, 0x123⟩ ∧
  decodeWord 0x5E01010203000000 = .ok ⟨.slhSign, 1, 0x01, 0x02, 0x03, 0⟩ ∧
  decodeWord 0x6305010203000000 = .ok ⟨.bnMul, 5, 0x01, 0x02, 0x03, 0⟩ ∧
  decodeWord 0x6981010203000000 = .ok ⟨.ecSign, 0x81, 0x01, 0x02, 0x03, 0⟩ ∧
  decodeWord 0x7605010203000000 = .ok ⟨.rsaCrt, 5, 0x01, 0x02, 0x03, 0⟩ ∧
  decodeWord 0x80800102FF000000 = .ok ⟨.blkEnc, 0x80, 0x01, 0x02, 0xFF, 0⟩ ∧
  decodeWord 0x82010102FF000004 = .ok ⟨.xtsSeq, 1, 0x01, 0x02, 0xFF, 4⟩ ∧
  decodeWord 0x91010405FF000000 = .ok ⟨.ctxRestoreWrapped, 1, 0x04, 0x05, 0xFF, 0⟩ :=
  ⟨rfl, rfl, rfl, rfl, rfl, rfl, rfl, rfl, rfl, rfl, rfl⟩

/-- Words that decode refuses: an opcode and a variant outside R123 and R124, a parameter set that R2 leaves out, a written cell twice, c32. -/
theorem test_decode_refuses :
  decodeWord 0x0600FFFFFF000000 = .error St.badOpcode ∧ decodeWord 0x9102FFFFFF000000 = .error St.badOpcode ∧
  decodeWord 0x500A01FFFF000001 = .error St.unsupported ∧ decodeWord 0x14000404FF000000 = .error St.badCell ∧
  decodeWord 0x100020FFFF000010 = .error St.badCell :=
  ⟨rfl, rfl, rfl, rfl, rfl⟩

/-- Published answers: SHA-256 of "abc" and AES-128 (FIPS 180-4, FIPS 197), and the check values of CRC-16/CCITT-FALSE and CRC-32C. -/
theorem test_sha256_of_abc :
  hash 1 [0x61, 0x62, 0x63] = beBytes 0xba7816bf8f01cfea414140de5dae2223b00361a396177a9cb410ff61f20015ad 32 := by decide +kernel

theorem test_aes128_of_fips197 :
  aesEnc (beBytes 0x000102030405060708090a0b0c0d0e0f 16) (beBytes 0x00112233445566778899aabbccddeeff 16) =
    beBytes 0x69c4e0d86a7b0430d8cdb78070b4c55a 16 := by decide +kernel

theorem test_sha3_256_of_abc :
  hash 5 [0x61, 0x62, 0x63] = beBytes 0x3a985da74fe225b2045c172d6bd390bd855f086e3e9d525b46bfe24511431532 32 := by decide +kernel

theorem test_aes256_of_fips197 :
  aesEnc (beBytes 0x000102030405060708090a0b0c0d0e0f101112131415161718191a1b1c1d1e1f 32) (beBytes 0x00112233445566778899aabbccddeeff 16) =
    beBytes 0x8ea2b7ca516745bfeafc49904b496089 16 := by decide +kernel

theorem test_crc32c_check_value : crc32c [0x31, 0x32, 0x33, 0x34, 0x35, 0x36, 0x37, 0x38, 0x39] = 0xE3069283 := by decide +kernel

theorem test_crc16_check_value : crc16 [0x31, 0x32, 0x33, 0x34, 0x35, 0x36, 0x37, 0x38, 0x39] = 0x29B1 := by decide +kernel

/-! ### States for the witnesses -/

/-- The device after reset with changes. -/
def dv (f : Device → Device) : State := { dev := f {} }

/-- A device that has finished its start, module 0 up. -/
def up (f : Device → Device := id) : State := dv fun d => f { d with
  link0 := { state := .active, partner := true, wasUp := true, msixEn := true }, power := { boot := 4, hkPll := true, engPll := true, rstN := true },
  fc := { alive := true } }

/-- Leaf 5, hot, in a state, and selected in the hinge. -/
def withLeaf (st : LeafState) (g : Leaf → Leaf := id) (f : Device → Device := id) : State := up fun d => f { d with
  leaves := [(5, g { state := st, pasid := 9, hot := true })], hg := { d.hg with sel := 5 } }

/-- The hinge with command arguments. -/
def hgArgs (l : List Nat) (d : Device) : Device := { d with hg := { d.hg with cmd := { d.hg.cmd with args := l } } }
/-- The keyway block with command arguments. -/
def kwArgs (l : List Nat) (d : Device) : Device := { d with kw := { d.kw with cmd := { d.kw.cmd with args := l } } }
/-- The hasp block with command arguments. -/
def hsArgs (l : List Nat) (d : Device) : Device := { d with hs := { d.hs with cmd := { d.hs.cmd with args := l } } }
/-- The interlock with command arguments. -/
def miArgs (l : List Nat) (d : Device) : Device := { d with mi := { d.mi with cmd := { d.mi.cmd with args := l } } }
/-- The debug rights. -/
def rights (r : Nat) (d : Device) : Device := { d with hs := { d.hs with rights := r } }
/-- The hasp value n as its three rows hold it. -/
def haspAt (n : Nat) (d : Device) : Device :=
  { d with perm := { d.perm with row0 := BitVec.ofNat 8 (2 ^ n - 1), row1 := BitVec.ofNat 8 (2 ^ n - 1), row2 := BitVec.ofNat 8 (2 ^ n - 1) } }
/-- The entropy output READY with lines. -/
def random (d : Device) : Device := { d with ns := { d.ns with state := .ready, window := List.replicate 3 (zeros 64), internal := List.replicate 60 (zeros 64), pre0 := some (zeros 64), wasReady := true } }
/-- The hasp block in the middle of a transition. -/
def moving (step tries : Nat) (d : Device) : Device :=
  { d with hs := { d.hs with trans := some { target := 2, ticket := 1, step := step, tries := tries } },
           mi := { d.mi with running := [{ op := 0xF0, cls := .life, ticket := 1, target := 2 }], tickets := [(1, { state := 2, op := 0xF0 })] } }
/-- A block held in BLOCK reset. -/
def held (b : BlockId) (d : Device) : Device := { d with fc := { d.fc with resets := [b] } }

/-- A header. -/
def header : Header := { len := 1, ptr := false, fence := false, prio := 0, cap := 1000, cookie := 7, notBefore := 0, dataBase := 0x10000, progAddr := 0 }
/-- A turn of leaf 5 whose one word is next. -/
def turn (z : ZInstr) (cells : Map Cell := []) : Turn :=
  { leaf := 5, queue := 0, sqSlot := 0, fetchNo := 0, hdr := header, prog := [z], phase := .exec, cells := cells, home := some 0 }
/-- The device in which that turn stands in slot 3. -/
def running (x : Turn) (g : Leaf → Leaf := id) (f : Device → Device := id) : State := withLeaf .active g fun d => f { d with turns := [(3, x)] }
/-- A word. -/
def zi (k : ZKind) (var dst a b imm : Nat) : ZInstr := ⟨k, var, dst, a, b, imm⟩
/-- A full cell. -/
def full (bs : Bytes) : Cell := { size := bs.length, data := bs }
/-- A blank cell. -/
def blank (n : Nat) : Cell := { size := n }
/-- A turn that waits for the data of its LOAD. -/
def loading : Turn := { turn (zi .load 0 0 255 255 0) [(0, blank 4)] with phase := .waitDma, awaiting := 1 }
/-- A read of four bytes. -/
def readFor (w : ReadWhy) : DmaRead := { tag := 6, pasid := some 9, addr := 0x10000, len := 4, why := w, issued := true, timed := true }
/-- The DMA engine of module 0 with one read. -/
def reading (r : DmaRead) (d : Device) : Device := { d with dma0 := { d.dma0 with reads := [r] } }
/-- A record or result write. -/
def writeFor (w : WriteWhy) : DmaWrite := { pasid := some 9, addr := 0x10000, data := [1, 2, 3, 4], why := w }
/-- The DMA engine of module 0 with one write. -/
def writing (w : DmaWrite) (d : Device) : Device := { d with dma0 := { d.dma0 with writes := [w] } }
/-- An unmasked vector. -/
def openVec : Vec := { addr := 0x1000, data := 7, mask := false }
/-- Vectors of leaf 5. -/
def vectors (v : Vec) (d : Device) : Device := { d with ul := { d.ul with index := 20, lvt := [(20, v)] } }
/-- A command block that is busy. -/
def busy (j : JobId) (d : Device) : Device := d.onUnit j fun u => { u with job := some { op := 0x77 } }
/-- The tumblers and bolts in service. -/
def engines (d : Device) : Device := { d with tu := List.replicate 32 { inService := true }, bo := List.replicate 16 { inService := true } }
/-- A tamper source set up. -/
def source (n : Nat) (x : TSrc) (d : Device) : Device := { d with tp := { d.tp with srcs := modifyAt tamperDefaults n fun _ => x } }
/-- A running request of an opcode. -/
def act (op : Nat) : Req := { op := op, cls := reqClass op, ticket := 4 }
/-- Its interlock. -/
def acting (r : Req) (d : Device) : Device := { d with mi := { d.mi with running := [r], tickets := [(4, { state := 2, op := r.op })] } }
/-- A live patch pass on tumbler 2. -/
def pass : Pass := { ticket := 4, classes := [0], cls := 0, engine := 2, toB := true, drain := true, deadline := 100, step := 0 }
/-- Its device. -/
def patching (p : Pass) (d : Device) : Device := acting (act 1) { engines d with mc := { d.mc with pass := some p } }
/-- The NV controller ready, its commits. -/
def commits (q : List Commit) (c : Option Commit := none) (d : Device) : Device := { d with nv := { d.nv with ready := true, queue := q, current := c } }
/-- Evidence that waits. -/
def records (l : List Evidence) (d : Device) : Device := { d with nv := { d.nv with ready := true, evq := l } }
/-- Calibration that may be written under CAL. -/
def cal (code inst : Nat) (v : List Nat) (d : Device) : Device :=
  { d with ca := { d.ca with code := code, inst := inst, value := v }, hs := { d.hs with rights := 0x80 }, nv := { d.nv with ready := true } }
/-- The latch ring open. -/
def ringUp (f : Ring → Ring := id) (g : Device → Device := id) : State := up fun d => g { d with lr := f { d.lr with passOpen := true } }
/-- A received frame. -/
def frame (bs : Bytes) : RxFrame := { bytes := bs }
/-- A state cell. -/
def stCell (alg declared fed : Nat) : Cell :=
  { size := 512, state := true, data := HState.encode { chain := algInit alg, alg := alg, declared := declared, fed := fed } }

/-! ### One step each -/

/-- A command ran, and what it left passes. -/
def left (o : Host.Outcome State Fault Refusal) (p : Device → Bool) : Bool :=
  match o with
  | .next t => p t.dev
  | _ => false

/-- R411: entered below 0.715, 0.705, 0.695 and 0.685 V, left above the threshold plus 10 mV. -/
theorem test_stage_thresholds :
  sensedAt 0 715 = 0 ∧ sensedAt 0 714 = 1 ∧ sensedAt 1 725 = 1 ∧ sensedAt 1 726 = 0 ∧ sensedAt 0 694 = 3 ∧ sensedAt 4 695 = 4 ∧ sensedAt 4 696 = 3 := by decide

/-- R169: BEAT wraps. -/
theorem test_beat_wraps :
  left (exec (.beatEdge none) (up fun d => { d with sc := { d.sc with beat := 2 ^ 48 - 1, beatB := 2 ^ 48 - 1 } })) (fun d => d.sc.beat == 0) = true := by decide

/-- R69: SQ_TAIL past a ring of 16 slots stops the queue with Q_ERR; inside it, it is taken. -/
theorem test_doorbell_past_the_ring :
  left (exec (.doorbellWrite 0 5 0 4 16) (withLeaf .active fun l => { l with queues := [(0, { en := true, sqLog := 4, cqLog := 4 })] }))
    (fun d => ((d.leaf 5).queue 0).stopped) = true ∧
  left (exec (.doorbellWrite 0 5 0 4 15) (withLeaf .active fun l => { l with queues := [(0, { en := true, sqLog := 4, cqLog := 4 })] }))
    (fun d => ((d.leaf 5).queue 0).sqTail == 15) = true := by decide

/-- R134: SKIP.IF goes on at PC + 1 + IMM where the last status has the class tested. -/
theorem test_skip_if :
  left (exec (.zxSkipIf 3) (running { turn (zi .skipIf 1 255 255 255 2) with last := 0x3010 })) (fun d => ((Map.get? d.turns 3).map Turn.pc) == some 3) = true ∧
  left (exec (.zxSkipIf 3) (running (turn (zi .skipIf 1 255 255 255 2)))) (fun d => ((Map.get? d.turns 3).map Turn.pc) == some 1) = true := by decide

/-- R341: with N 2 the first event opens the window, and the second one inside 32 ticks triggers. -/
theorem test_tamper_window :
  left (exec (.tamperEvent [20]) (up fun d => source 20 { cfg := srcCfgWord true 0 2 1 } d)) (fun d => (nth d.tp.srcs 20 {}).count == 1) = true ∧
  left (exec (.tamperEvent [20]) (up fun d => source 20 { cfg := srcCfgWord true 0 2 1, openW := true, count := 1 } d)) (fun d => (nth d.tp.srcs 20 {}).openW) = false := by decide

/-- R360: in the shackle state a write to the scratch register changes nothing; R16: an access of 8 bytes raises source 1232. -/
theorem test_register_write :
  left (exec (.registerWrite 0x24 {} 7) (up fun d => { d with fc := { d.fc with shackled := true } })) (fun d => d.hg.scratch == 0) = true ∧
  left (exec (.registerWrite 0x24 { size := 8, enables := 255 } 7) up) (fun d => d.fc.incoming == [{ source := 1232 }]) = true := by decide

/-! ### Witnesses -/

/-- The premises of each clause of EmptyQueueOnlyTicks are met. -/
theorem test_witness_empty_queue_only_ticks :
  (∃ s : State, (s.pending = [])) :=
  ⟨up, by decide⟩

/-- The premises of each clause of EveryStepKeepsFlashCanonical are met. -/
theorem test_witness_every_step_keeps_flash_canonical :
  (∃ s : State, ∃ t : State, (Inv s) ∧ step s = .next t) :=
  ⟨{ up with pending := [.tapReset] }, _, by decide, rfl⟩

/-- The premises of each clause of NoStepUnburnsAFuse are met. -/
theorem test_witness_no_step_unburns_a_fuse :
  (∃ s : State, ∃ t : State, step s = .next t) :=
  ⟨{ up (moving 0 0) with pending := [.haspOddBurn 3] }, _, rfl⟩

/-- The premises of each clause of CommandsLeaveTheQueue are met. -/
theorem test_witness_commands_leave_the_queue :
  (∃ c : Instr, ∃ s : State, ∃ t : State, exec c s = .next t) :=
  ⟨.tapReset, up, _, rfl⟩

/-- The premises of each clause of OnlyBurnsAndFlashWritesChangePermanentMemory are met. -/
theorem test_witness_only_burns_and_flash_writes_change_permanent_memory :
  (∃ c : Instr, ∃ s : State, ∃ t : State, exec c s = .next t ∧ ((∀ f n, c ≠ .bootRomStart f n)) ∧ ((∀ n, c ≠ .haspOddBurn n)) ∧ ((∀ n, c ≠ .haspEvenBurn n)) ∧ ((∀ b, c ≠ .wipeStep b)) ∧ ((∀ b, c ≠ .ufWrite b))) ∧
  (∃ b : Bool, ∃ s : State, ∃ t : State, (exec (.ufWrite b) s = .next t)) ∧
  (∃ n : Nat, ∃ s : State, ∃ t : State, (exec (.haspOddBurn n) s = .next t)) ∧
  (∃ n : Nat, ∃ s : State, ∃ t : State, (exec (.haspEvenBurn n) s = .next t)) :=
  ⟨⟨.tapReset, up, _, rfl, (by intro _ _ h; cases h), (by intro _ h; cases h), (by intro _ h; cases h), (by intro _ h; cases h), (by intro _ h; cases h)⟩,
   ⟨false, up fun d => { d with nv := { d.nv with ufBusy := 2 } }, _, rfl⟩,
   ⟨3, up (moving 0 0), _, rfl⟩,
   ⟨3, up fun d => moving 9 0 (haspAt 1 d), _, rfl⟩⟩

/-- The premises of each clause of CommandsStopOnlyWhereTheEventCannotOccur are met. -/
theorem test_witness_commands_stop_only_where_the_event_cannot_occur :
  (∃ c : Instr, ∃ _s : State, hostAccess c = true) :=
  ⟨.hgCreate, up, by decide⟩

/-- The premises of each clause of ZaxusWordsDecodeToTheirInstruction are met. -/
theorem test_witness_zaxus_words_decode_to_their_instruction :
  (∃ z : ZInstr, z.wf = true) :=
  ⟨zi .keywCut 0 255 0 255 0, by decide⟩

/-- The premises of each clause of WrittenCellInTwoFieldsIsRefused are met. -/
theorem test_witness_written_cell_in_two_fields_is_refused :
  (∃ k : ZKind, ∃ var : Nat, ∃ dst : Nat, ∃ a : Nat, ∃ b : Nat, ∃ imm : Nat, var < 256 ∧ dst < 256 ∧ a < 256 ∧ b < 256 ∧ (imm < 2 ^ 24) ∧ classify k.op var imm = .ok k ∧ ([ZKind.xor, .blkEnc, .blkDec, .ghash].contains k = false) ∧ ((let r := (ZInstr.mk k var dst a b imm).roles; (r.1.writes = true ∧ ((r.2.1 ≠ .none ∧ dst = a) ∨ (r.2.2 ≠ .none ∧ dst = b))) ∨ (r.2.1.writes = true ∧ ((r.1 ≠ .none ∧ dst = a) ∨ (r.2.2 ≠ .none ∧ a = b)))))) ∧
  (∃ z : ZInstr, ([ZKind.xor, .blkEnc, .blkDec, .ghash].contains z.kind = true) ∧ z.var < 256 ∧ (z.imm < 2 ^ 24) ∧ classify z.kind.op z.var z.imm = .ok z.kind ∧ z.roles.1.fits z.dst = true ∧ z.roles.2.1.fits z.a = true ∧ z.roles.2.2.fits z.b = true) :=
  ⟨⟨.copyWhole, 0, 4, 4, 255, 0, by decide⟩,
   ⟨zi .xor 0 4 4 4 0, by decide⟩⟩

/-- The premises of each clause of ChipResetLosesVolatileStateOnly are met. -/
theorem test_witness_chip_reset_loses_volatile_state_only :
  (∃ _cause : ResetCause, ∃ s : State, s.dev.power.off = false) ∧
  (∃ s : State, s.dev.power.rstN = true ∧ s.dev.power.off = false) ∧
  (∃ s : State, s.dev.power.rstN = true ∧ s.dev.power.off = true) :=
  ⟨⟨.collector, withLeaf .active, by decide⟩,
   ⟨up, by decide⟩,
   ⟨dv fun d => { d with power := { d.power with off := true, rstN := true } }, by decide⟩⟩

/-- The premises of each clause of PowerCycleClearsRightsAndShackle are met. -/
theorem test_witness_power_cycle_clears_rights_and_shackle :
  (∃ _ioFalls : Bool, ∃ _cycle : Nat, ∃ s : State, s.dev.power.off = false) ∧
  (∃ s : State, s.dev.power.off = true) :=
  ⟨⟨true, 50, withLeaf .active id (commits [] (some { val := .cut 5 9 })), by decide⟩,
   ⟨dv fun d => { d with power := { d.power with off := true } }, by decide⟩⟩

/-- The premises of each clause of AlwaysOnIslandFollowsItsSupplies are met. -/
theorem test_witness_always_on_island_follows_its_supplies :
  (∃ _vbat : Bool, ∃ s : State, s.dev.aon.dead = true) ∧
  (∃ s : State, s.dev.power.vbat = true ∧ s.dev.aon.onBackup = false ∧ s.dev.aon.dead = false) ∧
  (∃ s : State, s.dev.aon.onBackup = true) ∧
  (∃ s : State, s.dev.power.vbatOk = true ∧ s.dev.aon.dead = false) ∧
  (∃ s : State, s.dev.aon.dead = false) :=
  ⟨⟨true, dv fun d => { d with aon := { d.aon with dead := true } }, by decide⟩,
   ⟨up, by decide⟩,
   ⟨up fun d => { d with aon := { d.aon with onBackup := true } }, by decide⟩,
   ⟨up, by decide⟩,
   ⟨up, by decide⟩⟩

/-- The premises of each clause of ReleasesAndClocks are met. -/
theorem test_witness_releases_and_clocks :
  (∃ s : State, s.dev.power.rstN = false) ∧
  (∃ s : State, 1 ≤ s.dev.power.boot ∧ s.dev.power.hkPll = false) ∧
  (∃ s : State, 1 ≤ s.dev.power.boot ∧ s.dev.power.hkPll = true ∧ s.dev.power.engPll = false) ∧
  (∃ s : State, s.dev.power.engPll = true) ∧
  (∃ s : State, s.dev.power.hkPll = true) ∧
  (∃ m : Nat, ∃ s : State, m < 2 ∧ 1 ≤ s.dev.power.boot ∧ s.dev.power.hkPll = true) ∧
  (∃ n : Nat, ∃ s : State, n < s.dev.tu.length ∧ (.tumbler n ∈ s.dev.fc.resets)) ∧
  (∃ n : Nat, ∃ s : State, n < s.dev.bo.length ∧ (.bolt n ∈ s.dev.fc.resets)) ∧
  (∃ b : BlockId, ∃ s : State, (b ∈ s.dev.fc.resets) ∧ ((∀ n, b ≠ .tumbler n)) ∧ ((∀ n, b ≠ .bolt n))) ∧
  (∃ n : Nat, ∃ s : State, n < s.dev.tu.length ∧ (.tumbler n ∈ s.dev.fc.resets)) ∧
  (∃ n : Nat, ∃ s : State, n < s.dev.bo.length ∧ (.bolt n ∈ s.dev.fc.resets)) ∧
  (∃ b : BlockId, ∃ s : State, (b = .bank ∨ b = .blockArray) ∧ (b ∈ s.dev.fc.resets)) :=
  ⟨⟨State.reset, by decide⟩,
   ⟨dv fun d => { d with power := { d.power with boot := 1 } }, by decide⟩,
   ⟨dv fun d => { d with power := { d.power with boot := 1, hkPll := true } }, by decide⟩,
   ⟨up, by decide⟩,
   ⟨up, by decide⟩,
   ⟨0, up, by decide⟩,
   ⟨2, up (held (.tumbler 2)), by decide⟩,
   ⟨2, up (held (.bolt 2)), by decide⟩,
   ⟨.bank, up (held .bank), by decide, (by intro _ h; cases h), (by intro _ h; cases h)⟩,
   ⟨2, up (held (.tumbler 2)), by decide⟩,
   ⟨2, up (held (.bolt 2)), by decide⟩,
   ⟨.bank, up (held .bank), by decide⟩⟩

/-- The premises of each clause of StagesFollowSupplyAndTemperature are met. -/
theorem test_witness_stages_follow_supply_and_temperature :
  (∃ mv : Nat, ∃ s : State, s.dev.power.off = false ∧ s.dev.power.boot ≠ 0 ∧ s.dev.power.sensed ≠ 4 ∧ sensedAt s.dev.power.sensed mv ≠ 4 ∧ s.dev.hs.trans = none) ∧
  (∃ mv : Nat, ∃ s : State, s.dev.power.off = false ∧ s.dev.power.sensed ≠ 4 ∧ mv < 685) ∧
  (∃ mv : Nat, ∃ s : State, s.dev.power.off = false ∧ sensedAt s.dev.power.sensed mv ≠ 4 ∧ ((s.dev.power.sensed = 4 ∨ s.dev.power.boot = 0))) ∧
  (∃ c : Int, ∃ s : State, s.dev.power.off = false ∧ s.dev.power.boot ≠ 0 ∧ s.dev.power.thermal ≠ 4 ∧ s.dev.power.thermalAt c ≠ 4 ∧ s.dev.hs.trans = none) ∧
  (∃ c : Int, ∃ s : State, s.dev.power.off = false ∧ s.dev.power.thermal ≠ 4 ∧ 120 ≤ c) ∧
  (∃ c : Int, ∃ s : State, s.dev.power.off = false ∧ s.dev.power.thermalAt c ≠ 4 ∧ ((s.dev.power.thermal = 4 ∨ s.dev.power.boot = 0))) ∧
  (∃ r : Rail, ∃ s : State, s.dev.power.off = false ∧ s.dev.power.railGood r = true) ∧
  (∃ s : State, s.dev.power.off = false ∧ s.dev.power.core = true ∧ s.dev.aon.dead = false) :=
  ⟨⟨705, up, by decide⟩,
   ⟨600, up, by decide⟩,
   ⟨750, up fun d => { d with power := { d.power with sensed := 4, applied := 4 } }, by decide⟩,
   ⟨108, up, by decide⟩,
   ⟨121, up, by decide⟩,
   ⟨20, up fun d => { d with power := { d.power with thermal := 4, applied := 4 } }, by decide⟩,
   ⟨.io, up, by decide⟩,
   ⟨up, by decide⟩⟩

/-- The premises of each clause of StartSequence are met. -/
theorem test_witness_start_sequence :
  (∃ _rows : Nat, ∃ _f : Option Nat, ∃ b : Nat, ∃ s : State, s.dev.power.boot = 1 ∧ s.dev.power.hkPll = true ∧ s.dev.perm.repair = s.dev.perm ∧ (s.dev.hasp % 2 = 0) ∧ s.dev.hasp ≠ 8 ∧ s.dev.chooseFw = some b) ∧
  (∃ _rows : Nat, ∃ _f : Option Nat, ∃ s : State, s.dev.power.boot = 1 ∧ s.dev.power.hkPll = true ∧ s.dev.perm.repair = s.dev.perm ∧ s.dev.hasp = 8) ∧
  (∃ _rows : Nat, ∃ _f : Option Nat, ∃ s : State, s.dev.power.boot = 1 ∧ s.dev.power.hkPll = true ∧ s.dev.perm.repair = s.dev.perm ∧ (s.dev.hasp % 2 = 0) ∧ s.dev.hasp ≠ 8 ∧ s.dev.chooseFw = none) ∧
  (∃ s : State, s.dev.power.boot = 1 ∧ s.dev.power.hkPll = true ∧ s.dev.perm.repair = s.dev.perm ∧ (s.dev.hasp % 2 = 1) ∧ s.dev.shackled = false ∧ s.dev.power.applied ≤ 1) ∧
  (∃ _rows : Nat, ∃ f : Option Nat, ∃ s : State, s.dev.power.boot = 1 ∧ s.dev.power.hkPll = true ∧ s.dev.perm.repair = s.dev.perm ∧ (s.dev.hasp % 2 = 1) ∧ s.dev.shackled = false ∧ s.dev.power.applied ≤ 1 ∧ (wipeStops (s.dev.hasp + 1) f = true)) ∧
  (∃ r : BootReport, ∃ s : State, s.dev.power.boot = 2 ∧ s.dev.shackled = false ∧ r.lostSeq = none ∧ s.dev.tp.pendShackle = false) ∧
  (∃ _r : BootReport, ∃ s : State, s.dev.power.boot = 2 ∧ s.dev.shackled = true) ∧
  (∃ s : State, s.dev.power.boot = 3 ∧ s.dev.shackled = false) :=
  ⟨⟨3, none, 0, dv fun d => { d with power := { d.power with boot := 1, hkPll := true, rstN := true } }, by decide⟩,
   ⟨3, none, dv fun d => haspAt 8 { d with power := { d.power with boot := 1, hkPll := true, rstN := true } }, by decide⟩,
   ⟨3, none, dv fun d => { d with power := { d.power with boot := 1, hkPll := true, rstN := true }, nv := { d.nv with fwVer := 5 } }, by decide⟩,
   ⟨dv fun d => haspAt 1 { d with power := { d.power with boot := 1, hkPll := true, rstN := true } }, by decide⟩,
   ⟨3, some 4, dv fun d => haspAt 1 { d with power := { d.power with boot := 1, hkPll := true, rstN := true } }, by decide⟩,
   ⟨{}, dv fun d => { d with power := { d.power with boot := 2, hkPll := true, rstN := true } }, by decide⟩,
   ⟨{}, dv fun d => { d with power := { d.power with boot := 2, hkPll := true, rstN := true }, fc := { d.fc with shackled := true } }, by decide⟩,
   ⟨dv fun d => { d with power := { d.power with boot := 3, hkPll := true, rstN := true } }, by decide⟩⟩

/-- The premises of each clause of LinksTrainAndLeaveActive are met. -/
theorem test_witness_links_train_and_leave_active :
  (∃ m : Nat, ∃ s : State, s.dev.trains m = true ∧ s.dev.running = true ∧ ((s.dev.link m).partner = false)) ∧
  (∃ m : Nat, ∃ s : State, s.dev.trains m = true ∧ s.dev.running = true ∧ ((s.dev.link m).partner = false) ∧ ((s.dev.link m).state = .reset)) ∧
  (∃ m : Nat, ∃ rate : Nat, ∃ tx : Nat, ∃ rx : Nat, ∃ s : State, m < 2 ∧ rate < 3 ∧ tx ≤ 4 ∧ rx ≤ 4 ∧ ((s.dev.link m).partner = true) ∧ ((s.dev.link m).state = .training ∨ (s.dev.link m).state = .retrain) ∧ ((s.dev.link m).repairEn = true ∨ (tx = 0 ∧ rx = 0))) ∧
  (∃ m : Nat, ∃ rate : Nat, ∃ tx : Nat, ∃ rx : Nat, ∃ s : State, m < 2 ∧ rate < 3 ∧ tx ≤ 68 ∧ rx ≤ 68 ∧ ((s.dev.link m).partner = true) ∧ ((s.dev.link m).state = .training ∨ (s.dev.link m).state = .retrain) ∧ ((4 < tx ∨ 4 < rx))) ∧
  (∃ m : Nat, ∃ s : State, m < 2 ∧ s.dev.linkUp m = true) ∧
  (∃ m : Nat, ∃ s : State, m < 2 ∧ ((s.dev.link m).state = .active ∨ (s.dev.link m).state = .retrain)) ∧
  (∃ m : Nat, ∃ s : State, m < 2 ∧ s.dev.linkUp m = true) :=
  ⟨⟨1, up, by decide⟩,
   ⟨1, up, by decide⟩,
   ⟨0, 2, 3, 1, up fun d => { d with link0 := { d.link0 with state := .retrain } }, by decide⟩,
   ⟨0, 2, 5, 1, up fun d => { d with link0 := { d.link0 with state := .retrain } }, by decide⟩,
   ⟨0, up, by decide⟩,
   ⟨0, up, by decide⟩,
   ⟨0, up, by decide⟩⟩

/-- The premises of each clause of ModuleControl are met. -/
theorem test_witness_module_control :
  (∃ m : Nat, ∃ v : Word, ∃ s : State, m < 2 ∧ (hostOpen s) ∧ (.link m ∉ s.dev.fc.resets) ∧ s.dev.linkUp m = true ∧ bitOf v.toNat 1 = true ∧ ((m = 1 → bitOf v.toNat 0 = true ∧ s.dev.link1.enable = true))) ∧
  (∃ v : Word, ∃ s : State, (hostOpen s) ∧ (.link 1 ∉ s.dev.fc.resets) ∧ bitOf v.toNat 0 = false ∧ bitOf v.toNat 1 = false ∧ s.dev.link1.enable = true ∧ s.dev.boundToOne = false) ∧
  (∃ v : Word, ∃ s : State, (hostOpen s) ∧ (.link 1 ∉ s.dev.fc.resets) ∧ bitOf v.toNat 0 = false ∧ bitOf v.toNat 1 = false ∧ s.dev.link1.enable = true ∧ s.dev.boundToOne = true) ∧
  (∃ v : Word, ∃ s : State, (hostOpen s) ∧ (.link 1 ∉ s.dev.fc.resets) ∧ bitOf v.toNat 0 = true ∧ bitOf v.toNat 1 = false ∧ s.dev.link1.enable = false ∧ s.dev.link1.state = .disabled) :=
  ⟨⟨0, 0x1B, up, by decide⟩,
   ⟨0x10, up, by decide⟩,
   ⟨0x10, withLeaf .active (fun l => { l with module := 1 }), by decide⟩,
   ⟨0x11, up fun d => { d with link1 := { d.link1 with enable := false, state := .disabled } }, by decide⟩⟩

/-- The premises of each clause of ConfigurationAccesses are met. -/
theorem test_witness_configuration_accesses :
  (∃ m : Nat, ∃ _reg : Nat, ∃ s : State, m < 2 ∧ s.dev.cfgServed m = true ∧ s.dev.power.boot ≠ 4 ∧ s.dev.shackled = false) ∧
  (∃ m : Nat, ∃ _f : CfgWrite, ∃ s : State, m < 2 ∧ s.dev.cfgServed m = true ∧ s.dev.power.boot ≠ 4 ∧ s.dev.shackled = false) ∧
  (∃ m : Nat, ∃ s : State, m < 2 ∧ s.dev.cfgServed m = true ∧ s.dev.power.boot = 4) ∧
  (∃ m : Nat, ∃ _on : Bool, ∃ s : State, m < 2 ∧ s.dev.cfgServed m = true ∧ s.dev.power.boot = 4) ∧
  (∃ m : Nat, ∃ _n : Nat, ∃ s : State, m < 2 ∧ s.dev.cfgServed m = true ∧ s.dev.power.boot = 4) ∧
  (∃ m : Nat, ∃ reg : Nat, ∃ _v : Word, ∃ s : State, m < 2 ∧ s.dev.cfgServed m = true ∧ s.dev.power.boot = 4 ∧ reg ≠ 0) :=
  ⟨⟨0, 4, dv fun d => { d with link0 := { d.link0 with state := .active }, power := { d.power with boot := 3 } }, by decide⟩,
   ⟨0, .msixEnable true, dv fun d => { d with link0 := { d.link0 with state := .active }, power := { d.power with boot := 3 } }, by decide⟩,
   ⟨0, up, by decide⟩,
   ⟨0, true, up, by decide⟩,
   ⟨0, 64, up, by decide⟩,
   ⟨0, 4, 9, up, by decide⟩⟩

/-- The premises of each clause of LeafVectorTableWrites are met. -/
theorem test_witness_leaf_vector_table_writes :
  (∃ _v : Word, ∃ s : State, (hostOpen s)) ∧
  (∃ v : Word, ∃ s : State, (hostOpen s) ∧ bitOf v.toNat 2 = true ∧ bitOf v.toNat 0 = true) ∧
  (∃ v : Word, ∃ s : State, (hostOpen s) ∧ bitOf v.toNat 2 = false ∧ bitOf v.toNat 0 = false ∧ ((s.dev.vec s.dev.ul.index).pend = true) ∧ (s.dev.linkUp (s.dev.leaf (s.dev.ul.index / 4)).module = true)) ∧
  (∃ v : Word, ∃ s : State, (hostOpen s) ∧ bitOf v.toNat 2 = false ∧ bitOf v.toNat 0 = true) ∧
  (∃ v : Word, ∃ s : State, (hostOpen s) ∧ bitOf v.toNat 2 = false ∧ bitOf v.toNat 0 = false ∧ ((s.dev.vec s.dev.ul.index).pend = false)) ∧
  (∃ v : Word, ∃ s : State, (hostOpen s) ∧ bitOf v.toNat 2 = false ∧ bitOf v.toNat 0 = false ∧ ((s.dev.vec s.dev.ul.index).pend = true) ∧ (s.dev.linkUp (s.dev.leaf (s.dev.ul.index / 4)).module = false)) :=
  ⟨⟨21, withLeaf .active id (vectors openVec), by decide⟩,
   ⟨5, withLeaf .active id (vectors openVec), by decide⟩,
   ⟨0, withLeaf .active id (vectors { openVec with pend := true }), by decide⟩,
   ⟨1, withLeaf .active id (vectors openVec), by decide⟩,
   ⟨0, withLeaf .active id (vectors openVec), by decide⟩,
   ⟨0, withLeaf .active (fun l => { l with module := 1 }) (vectors { openVec with pend := true }), by decide⟩⟩

/-- The premises of each clause of RegisterWritesFollowTheirAccessCode are met. -/
theorem test_witness_register_writes_follow_their_access_code :
  (∃ _off : Nat, ∃ _acc : Access, ∃ _v : Word, ∃ s : State, s.dev.serves 0 = false ∧ s.dev.link0.state ≠ .retrain) ∧
  (∃ _off : Nat, ∃ _acc : Access, ∃ _v : Word, ∃ s : State, s.dev.serves 0 = false ∧ s.dev.link0.state = .retrain) ∧
  (∃ off : Nat, ∃ acc : Access, ∃ _v : Word, ∃ s : State, s.dev.serves 0 = true ∧ (acc.size ≠ 4 ∨ acc.enables ≠ 15 ∨ off % 4 ≠ 0)) ∧
  (∃ _v : Word, ∃ s : State, (hostOpen s)) ∧
  (∃ off : Nat, ∃ _v : Word, ∃ s : State, (hostOpen s) ∧ (off % 4 = 0) ∧ (0x43 ≤ off / 65536) ∧ (off / 65536 < 0x80)) ∧
  (∃ off : Nat, ∃ _v : Word, ∃ s : State, (hostOpen s) ∧ (off % 4 = 0) ∧ (off / 65536 < 0x80) ∧ s.dev.held off = true) ∧
  (∃ _v : Word, ∃ s : State, s.dev.serves 0 = true ∧ s.dev.shackled = true) ∧
  (∃ _v : Word, ∃ s : State, (hostOpen s)) ∧
  (∃ v : Word, ∃ s : State, (hostOpen s) ∧ s.dev.held 0x20010 = false ∧ s.dev.sc.lock = true ∧ field v.toNat 4 4 ≠ s.dev.sc.gap) :=
  ⟨⟨0x24, {}, 5, State.reset, by decide⟩,
   ⟨0x24, {}, 5, up fun d => { d with link0 := { d.link0 with state := .retrain } }, by decide⟩,
   ⟨0x26, {}, 5, up, by decide⟩,
   ⟨5, up, by decide⟩,
   ⟨0x430000, 5, up, by decide⟩,
   ⟨0x100004, 5, up (held (.tumbler 0)), by decide⟩,
   ⟨5, up fun d => { d with fc := { d.fc with shackled := true } }, by decide⟩,
   ⟨5, withLeaf .active (fun l => { l with causes := 7 }), by decide⟩,
   ⟨0x30, up fun d => { d with sc := { d.sc with lock := true } }, by decide⟩⟩

/-- The premises of each clause of RegisterPairsReadOneMoment are met. -/
theorem test_witness_register_pairs_read_one_moment :
  (∃ s : State, (hostOpen s)) ∧
  (∃ s : State, (hostOpen s) ∧ (noShadow s 0x20004)) ∧
  (∃ m : Nat, ∃ l : Nat, ∃ s : State, (windowOpen s m l)) ∧
  (∃ m : Nat, ∃ l : Nat, ∃ s : State, (windowOpen s m l) ∧ (noShadow s (2 ^ 27 + l * 65536 + 0x2010))) ∧
  (∃ off : Nat, ∃ _v : Word, ∃ s : State, (hostOpen s) ∧ (off % 4 = 0) ∧ pairLo off = true) ∧
  (∃ _v : Word, ∃ s : State, (hostOpen s)) ∧
  (∃ off : Nat, ∃ acc : Access, ∃ s : State, s.dev.serves 0 = true ∧ (acc.size ≠ 4 ∨ acc.enables ≠ 15 ∨ off % 4 ≠ 0)) ∧
  (∃ off : Nat, ∃ acc : Access, ∃ _v : Word, ∃ s : State, s.dev.serves 0 = true ∧ (acc.size ≠ 4 ∨ acc.enables ≠ 15 ∨ off % 4 ≠ 0)) :=
  ⟨⟨up, by decide⟩,
   ⟨up, by decide⟩,
   ⟨0, 5, withLeaf .active, by decide⟩,
   ⟨0, 5, withLeaf .active, by decide⟩,
   ⟨0x20000, 5, up, by decide⟩,
   ⟨5, up, by decide⟩,
   ⟨0x20000, { size := 8, enables := 255 }, up, by decide⟩,
   ⟨0x20001, {}, 5, up, by decide⟩⟩

/-- The premises of each clause of DebugReadsNeedTheirRights are met. -/
theorem test_witness_debug_reads_need_their_rights :
  (∃ off : Nat, ∃ s : State, (hostOpen s) ∧ inVault off = true ∧ (off % 4 = 0) ∧ (noShadow s off) ∧ s.dev.right 0 = true) ∧
  (∃ off : Nat, ∃ s : State, (hostOpen s) ∧ inVault off = true ∧ (off % 4 = 0) ∧ (noShadow s off) ∧ s.dev.right 0 = false) ∧
  (∃ off : Nat, ∃ _v : Word, ∃ s : State, (hostOpen s) ∧ inVault off = true ∧ (off % 4 = 0) ∧ s.dev.right 1 = true ∧ s.dev.vault.wf = true ∧ ((∀ i < 4, s.dev.homedByte (s.dev.vaultAddr off + i) = none))) ∧
  (∃ off : Nat, ∃ _v : Word, ∃ s : State, (hostOpen s) ∧ inVault off = true ∧ (off % 4 = 0) ∧ s.dev.right 1 = true ∧ sharedBase ≤ s.dev.vaultAddr off ∧ ((∀ i < 4, (s.dev.slots.keyByte (s.dev.vaultAddr off + i - sharedBase)).isSome = true))) ∧
  (∃ off : Nat, ∃ _v : Word, ∃ s : State, (hostOpen s) ∧ inVault off = true ∧ (off % 4 = 0) ∧ s.dev.right 1 = true) ∧
  (∃ off : Nat, ∃ _v : Word, ∃ s : State, (hostOpen s) ∧ inVault off = true ∧ (off % 4 = 0) ∧ s.dev.right 1 = false) ∧
  (∃ v : Word, ∃ s : State, (hostOpen s) ∧ s.dev.right 5 = true ∧ bitOf v.toNat 31 = true ∧ field v.toNat 0 8 < 0x32) ∧
  (∃ v : Word, ∃ s : State, (hostOpen s) ∧ s.dev.right 5 = true ∧ (bitOf v.toNat 31 = false ∨ 0x32 ≤ field v.toNat 0 8)) ∧
  (∃ _v : Word, ∃ s : State, (hostOpen s) ∧ s.dev.right 5 = false) ∧
  (∃ s : State, (hostOpen s) ∧ (noShadow s 0xC0064)) ∧
  (∃ s : State, (hostOpen s) ∧ (.entropy ∉ s.dev.fc.resets) ∧ s.dev.rawAllowed = true) ∧
  (∃ s : State, (hostOpen s) ∧ (.entropy ∉ s.dev.fc.resets) ∧ s.dev.rawAllowed = false) :=
  ⟨⟨0x800010, up (rights 1), by decide⟩,
   ⟨0x800010, up, by decide⟩,
   ⟨0x800010, 0x12345678, up (rights 2), by decide⟩,
   ⟨0x800000, 0x12345678, up fun d => rights 2 { d with hg := { d.hg with vaultPage := 3 }, slots := { d.slots with slots := [(0, .first 0 (List.replicate 64 1) (List.replicate 64 2))] } }, by decide⟩,
   ⟨0x800010, 0x12345678, up (rights 2), by decide⟩,
   ⟨0x800010, 7, up, by decide⟩,
   ⟨0x80000001, up (rights 0x20), by decide⟩,
   ⟨0x1, up (rights 0x20), by decide⟩,
   ⟨0x80000001, up, by decide⟩,
   ⟨up, by decide⟩,
   ⟨up (rights 0x10), by decide⟩,
   ⟨up (haspAt 4), by decide⟩⟩

/-- The premises of each clause of ErrorInjectionNeedsItsRight are met. -/
theorem test_witness_error_injection_needs_its_right :
  (∃ n : Nat, ∃ v : Word, ∃ s : State, (hostOpen s) ∧ n < 32 ∧ n < s.dev.tu.length ∧ (.tumbler n ∉ s.dev.fc.resets) ∧ s.dev.right 6 = true ∧ bitOf v.toNat 8 = true) ∧
  (∃ n : Nat, ∃ v : Word, ∃ s : State, (hostOpen s) ∧ n < 16 ∧ n < s.dev.bo.length ∧ (s.dev.held (injectOffset (.bolt n)) = false) ∧ s.dev.right 6 = true ∧ bitOf v.toNat 8 = true) ∧
  (∃ x : InjectTarget, ∃ v : Word, ∃ s : State, (hostOpen s) ∧ s.dev.right 6 = true ∧ bitOf v.toNat 8 = true ∧ field v.toNat 4 2 ≠ 3 ∧ (s.dev.held (injectOffset x) = false) ∧ ((x = .bank ∨ x = .blockArray ∨ x = .digest))) ∧
  (∃ x : InjectTarget, ∃ v : Word, ∃ s : State, (hostOpen s) ∧ ((∀ n, x = .tumbler n → n < 32)) ∧ ((∀ n, x = .bolt n → n < 16)) ∧ (s.dev.held (injectOffset x) = false) ∧ s.dev.right 6 = false ∧ bitOf v.toNat 8 = true) :=
  ⟨⟨2, 0x121, up (rights 0x40), by decide⟩,
   ⟨2, 0x121, up (rights 0x40), by decide⟩,
   ⟨.bank, 0x121, up (rights 0x40), by decide⟩,
   ⟨.bank, 0x121, up, by decide, (by intro _ h; cases h), (by intro _ h; cases h), by decide, by decide, by decide⟩⟩

/-- The premises of each clause of LeafWindowWrites are met. -/
theorem test_witness_leaf_window_writes :
  (∃ m : Nat, ∃ l : Nat, ∃ q : Nat, ∃ size : Nat, ∃ v : DWord, ∃ s : State, (windowOpen s m l) ∧ q < 64 ∧ (size = 4 ∨ size = 8) ∧ ((s.dev.leaf l).state = .active) ∧ ((s.dev.leaf l).resetting = false) ∧ (((s.dev.leaf l).queue q).en = true) ∧ (((s.dev.leaf l).queue q).stopped = false) ∧ (v.toNat % 2 ^ 16 < 2 ^ ((s.dev.leaf l).queue q).sqLog) ∧ (v.toNat / 2 ^ 16 % 2 ^ 16 < 2 ^ ((s.dev.leaf l).queue q).cqLog)) ∧
  (∃ m : Nat, ∃ l : Nat, ∃ q : Nat, ∃ size : Nat, ∃ v : DWord, ∃ s : State, (windowOpen s m l) ∧ q < 64 ∧ (size = 4 ∨ size = 8) ∧ ((s.dev.leaf l).state = .active) ∧ ((s.dev.leaf l).resetting = false) ∧ (((s.dev.leaf l).queue q).en = false ∨ 2 ^ ((s.dev.leaf l).queue q).sqLog ≤ v.toNat % 2 ^ 16 ∨ 2 ^ ((s.dev.leaf l).queue q).cqLog ≤ v.toNat / 2 ^ 16 % 2 ^ 16)) ∧
  (∃ m : Nat, ∃ l : Nat, ∃ q : Nat, ∃ size : Nat, ∃ _v : DWord, ∃ s : State, (windowOpen s m l) ∧ q < 64 ∧ (size = 4 ∨ size = 8) ∧ ((s.dev.leaf l).state = .quiescing ∨ (s.dev.leaf l).state = .quiesced) ∧ ((s.dev.leaf l).resetting = false)) ∧
  (∃ m : Nat, ∃ l : Nat, ∃ _off : Nat, ∃ _size : Nat, ∃ _v : DWord, ∃ s : State, m < 2 ∧ s.dev.serves m = true ∧ s.dev.leafHit m l = false) ∧
  (∃ m : Nat, ∃ l : Nat, ∃ off : Nat, ∃ size : Nat, ∃ _v : DWord, ∃ s : State, (windowOpen s m l) ∧ leafWriteOk off size = false) ∧
  (∃ m : Nat, ∃ l : Nat, ∃ _v : Word, ∃ s : State, (windowOpen s m l)) :=
  ⟨⟨0, 5, 0, 4, 0x00000001, withLeaf .active (fun l => { l with queues := [(0, { en := true, sqLog := 4, cqLog := 4 })] }), by decide⟩,
   ⟨0, 5, 0, 4, 0x00000010, withLeaf .active (fun l => { l with queues := [(0, { en := true, sqLog := 4, cqLog := 4 })] }), by decide⟩,
   ⟨0, 5, 0, 4, 3, withLeaf .quiesced, by decide⟩,
   ⟨0, 6, 0, 4, 3, withLeaf .active, by decide⟩,
   ⟨0, 5, 2, 4, 3, withLeaf .active, by decide⟩,
   ⟨0, 5, 0x2, withLeaf .active (fun l => { l with status := 3 }), by decide⟩⟩

/-- The premises of each clause of RandomWindowServesEachLineOnce are met. -/
theorem test_witness_random_window_serves_each_line_once :
  (∃ m : Nat, ∃ l : Nat, ∃ off : Nat, ∃ size : Nat, ∃ s : State, (windowOpen s m l) ∧ (randomOk off (fullAccess size) = true) ∧ s.dev.heldFull m = false ∧ s.dev.ns.notReady = true) ∧
  (∃ m : Nat, ∃ l : Nat, ∃ off : Nat, ∃ size : Nat, ∃ line : Bytes, ∃ s : State, (windowOpen s m l) ∧ (randomOk off (fullAccess size) = true) ∧ s.dev.heldFull m = false ∧ s.dev.ns.notReady = false ∧ (noneHeld s m) ∧ s.dev.ns.pre m = some line) ∧
  (∃ m : Nat, ∃ l : Nat, ∃ off : Nat, ∃ size : Nat, ∃ s : State, (windowOpen s m l) ∧ (randomOk off (fullAccess size) = true) ∧ s.dev.heldFull m = false ∧ s.dev.ns.notReady = false ∧ (¬ noneHeld s m ∨ s.dev.ns.pre m = none)) ∧
  (∃ m : Nat, ∃ l : Nat, ∃ off : Nat, ∃ size : Nat, ∃ s : State, (windowOpen s m l) ∧ (randomOk off (fullAccess size) = false) ∧ (leafWordOk off (fullAccess size) = false)) ∧
  (∃ m : Nat, ∃ l : Nat, ∃ off : Nat, ∃ s : State, (windowOpen s m l) ∧ (leafWordOk off {} = true)) ∧
  (∃ m : Nat, ∃ l : Nat, ∃ size : Nat, ∃ line : Bytes, ∃ s : State, m < 2 ∧ (s.dev.ns.held.find? (fun h => h.1 == m) = some (m, l, size)) ∧ s.dev.ns.notReady = false ∧ 0 < size ∧ s.dev.ns.pre m = some line) ∧
  (∃ m : Nat, ∃ l : Nat, ∃ size : Nat, ∃ s : State, (s.dev.ns.held.find? (fun h => h.1 == m) = some (m, l, size)) ∧ s.dev.ns.notReady = true) :=
  ⟨⟨0, 5, 0x1000, 8, withLeaf .active, by decide⟩,
   ⟨0, 5, 0x1000, 8, zeros 64, withLeaf .active id random, by decide⟩,
   ⟨0, 5, 0x1000, 8, withLeaf .active id fun d => { random d with ns := { (random d).ns with window := [], pre0 := none } }, by decide⟩,
   ⟨0, 5, 0x1004, 8, withLeaf .active, by decide⟩,
   ⟨0, 5, 0x5040, withLeaf .active, by decide⟩,
   ⟨0, 5, 8, zeros 64, withLeaf .active id fun d => { random d with ns := { (random d).ns with held := [(0, 5, 8)] } }, by decide⟩,
   ⟨0, 5, 8, withLeaf .active id fun d => { d with ns := { d.ns with held := [(0, 5, 8)] } }, by decide⟩⟩

/-- The premises of each clause of DmaReadsReachTheirTurnOrEndIt are met. -/
theorem test_witness_dma_reads_reach_their_turn_or_end_it :
  (∃ m : Nat, ∃ tag : Nat, ∃ off : Nat, ∃ slot : Nat, ∃ data : Bytes, ∃ r : DmaRead, ∃ x : Turn, ∃ z : ZInstr, ∃ s : State, m < 2 ∧ s.dev.linkUp m = true ∧ ((s.dev.dma m).issuedRead tag = some r) ∧ r.why = .load slot off ∧ data.length = r.len ∧ (Map.get? s.dev.turns slot = some x) ∧ x.awaiting = 1 ∧ x.phase = .waitDma ∧ x.due = none ∧ (x.prog[x.pc]? = some z) ∧ (storeQuiet s x)) ∧
  (∃ m : Nat, ∃ tag : Nat, ∃ off : Nat, ∃ slot : Nat, ∃ data : Bytes, ∃ r : DmaRead, ∃ x : Turn, ∃ s : State, m < 2 ∧ s.dev.linkUp m = true ∧ ((s.dev.dma m).issuedRead tag = some r) ∧ (r.why = .load slot off ∨ r.why = .prog slot off) ∧ data.length = r.len ∧ (Map.get? s.dev.turns slot = some x) ∧ 2 ≤ x.awaiting) ∧
  (∃ m : Nat, ∃ tag : Nat, ∃ off : Nat, ∃ slot : Nat, ∃ data : Bytes, ∃ r : DmaRead, ∃ x : Turn, ∃ s : State, m < 2 ∧ s.dev.linkUp m = true ∧ ((s.dev.dma m).issuedRead tag = some r) ∧ r.why = .slice slot off ∧ data.length = r.len ∧ (Map.get? s.dev.turns slot = some x) ∧ prefixLen x.parts 0 = off) ∧
  (∃ m : Nat, ∃ tag : Nat, ∃ off : Nat, ∃ slot : Nat, ∃ n : Nat, ∃ data : Bytes, ∃ r : DmaRead, ∃ x : Turn, ∃ s : State, m < 2 ∧ s.dev.linkUp m = true ∧ ((s.dev.dma m).issuedRead tag = some r) ∧ r.why = .slice slot off ∧ (Map.get? s.dev.turns slot = some x) ∧ x.ending = none ∧ x.home = some n ∧ (data.length < r.len ∨ (data.length = r.len ∧ prefixLen x.parts 0 ≠ off))) ∧
  (∃ m : Nat, ∃ tag : Nat, ∃ _data : Bytes, ∃ r : DmaRead, ∃ s : State, m < 2 ∧ s.dev.linkUp m = true ∧ ((s.dev.dma m).issuedRead tag = some r) ∧ r.why = .dropped) ∧
  (∃ m : Nat, ∃ tag : Nat, ∃ off : Nat, ∃ slot : Nat, ∃ data : Bytes, ∃ r : DmaRead, ∃ x : Turn, ∃ s : State, m < 2 ∧ s.dev.linkUp m = true ∧ ((s.dev.dma m).issuedRead tag = some r) ∧ (r.why = .load slot off ∨ r.why = .prog slot off) ∧ data.length ≠ r.len ∧ (Map.get? s.dev.turns slot = some x)) ∧
  (∃ m : Nat, ∃ tag : Nat, ∃ off : Nat, ∃ slot : Nat, ∃ bit : Nat, ∃ kind : ReadError, ∃ r : DmaRead, ∃ x : Turn, ∃ s : State, m < 2 ∧ s.dev.linkUp m = true ∧ ((s.dev.dma m).issuedRead tag = some r) ∧ (r.why = .load slot off ∨ r.why = .prog slot off) ∧ (Map.get? s.dev.turns slot = some x) ∧ ((kind = .ur ∧ bit = 0) ∨ (kind = .ca ∧ bit = 1) ∨ (kind = .poison ∧ bit = 3))) ∧
  (∃ m : Nat, ∃ tag : Nat, ∃ off : Nat, ∃ slot : Nat, ∃ r : DmaRead, ∃ x : Turn, ∃ s : State, m < 2 ∧ (((s.dev.dma m).reads.find? fun r => r.tag == tag && r.timed) = some r) ∧ (r.why = .load slot off ∨ r.why = .prog slot off) ∧ (Map.get? s.dev.turns slot = some x)) :=
  ⟨⟨0, 6, 0, 3, [5, 6, 7, 8], (readFor (.load 3 0)), loading, zi .load 0 0 255 255 0, running loading id (reading (readFor (.load 3 0))), by decide⟩,
   ⟨0, 6, 0, 3, [5, 6, 7, 8], (readFor (.load 3 0)), { loading with awaiting := 2 }, running { loading with awaiting := 2 } id (reading (readFor (.load 3 0))), by decide⟩,
   ⟨0, 6, 0, 3, [5, 6, 7, 8], (readFor (.slice 3 0)), { loading with phase := .running, home := some 2 }, running ({ loading with phase := .running, home := some 2 }) id (reading (readFor (.slice 3 0))), by decide⟩,
   ⟨0, 6, 0, 3, 2, [5, 6, 7], (readFor (.slice 3 0)), { loading with phase := .running, home := some 2 }, running ({ loading with phase := .running, home := some 2 }) id (reading (readFor (.slice 3 0))), by decide⟩,
   ⟨0, 6, [5, 6, 7, 8], readFor .dropped, up (reading (readFor .dropped)), by decide⟩,
   ⟨0, 6, 0, 3, [5, 6, 7], (readFor (.load 3 0)), loading, running loading id (reading (readFor (.load 3 0))), by decide⟩,
   ⟨0, 6, 0, 3, 1, .ca, (readFor (.load 3 0)), loading, running loading id (reading (readFor (.load 3 0))), by decide⟩,
   ⟨0, 6, 0, 3, (readFor (.load 3 0)), loading, running loading id (reading (readFor (.load 3 0))), by decide⟩⟩

/-- The premises of each clause of DmaWritesGoOutInOrder are met. -/
theorem test_witness_dma_writes_go_out_in_order :
  (∃ m : Nat, ∃ slot : Nat, ∃ w : DmaWrite, ∃ rest : List DmaWrite, ∃ x : Turn, ∃ s : State, m < 2 ∧ s.dev.linkUp m = true ∧ ((s.dev.dma m).writes = w :: rest) ∧ w.why = .result slot ∧ (Map.get? s.dev.turns slot = some x) ∧ x.ending = none) ∧
  (∃ m : Nat, ∃ slot : Nat, ∃ w : DmaWrite, ∃ rest : List DmaWrite, ∃ x : Turn, ∃ s : State, m < 2 ∧ s.dev.linkUp m = true ∧ ((s.dev.dma m).writes = w :: rest) ∧ w.why = .record slot ∧ (s.dev.turns = [(slot, x)]) ∧ ((s.dev.leaf x.leaf).module = m) ∧ s.dev.hg.cmd.job = none ∧ ((s.dev.vec (x.leaf * 4 + ((s.dev.leaf x.leaf).queue x.queue).vector)).mask = false)) ∧
  (∃ m : Nat, ∃ slot : Nat, ∃ w : DmaWrite, ∃ rest : List DmaWrite, ∃ x : Turn, ∃ s : State, m < 2 ∧ ((s.dev.dma m).writes = w :: rest) ∧ w.why = .record slot ∧ (s.dev.turns = [(slot, x)]) ∧ s.dev.hg.cmd.job = none) :=
  ⟨⟨0, 3, writeFor (.result 3), [], { loading with pendingW := 1 }, running { loading with pendingW := 1 } id (writing (writeFor (.result 3))), by decide⟩,
   ⟨0, 3, writeFor (.record 3), [], { loading with phase := .closing }, running { loading with phase := .closing } id (fun d => writing (writeFor (.record 3)) (vectors openVec d)), by decide⟩,
   ⟨0, 3, writeFor (.record 3), [], { loading with phase := .closing }, running { loading with phase := .closing } id (writing (writeFor (.record 3))), by decide⟩⟩

/-- The premises of each clause of BusyBlocksDropCommands are met. -/
theorem test_witness_busy_blocks_drop_commands :
  (∃ e ∈ blockCommands, ∃ s : State, (hostOpen s) ∧ (¬ unitIdle s e.1)) ∧
  (∃ e ∈ blockCommands, ∃ s : State, s.dev.serves 0 = false ∧ s.dev.link0.state ≠ .retrain) ∧
  (∃ e ∈ blockCommands, ∃ s : State, s.dev.serves 0 = false ∧ s.dev.link0.state = .retrain) ∧
  (∃ e ∈ blockCommands, ∃ s : State, s.dev.serves 0 = true ∧ (s.dev.shackled = true ∨ s.dev.mc.romOnly = true)) ∧
  (∃ _b : Byte, ∃ s : State, (mayCommand s .hinge)) ∧
  (∃ _b : Byte, ∃ s : State, (mayCommand s .keyway)) ∧
  (∃ _b : Byte, ∃ s : State, (mayCommand s .hasp)) ∧
  (∃ _b : Byte, ∃ s : State, (hostOpen s)) :=
  ⟨⟨(JobId.hinge, Instr.hgCreate), by decide, up (busy .hinge), by decide⟩,
   ⟨(JobId.hinge, Instr.hgCreate), by decide, State.reset, by decide⟩,
   ⟨(JobId.hinge, Instr.hgCreate), by decide, up fun d => { d with link0 := { d.link0 with state := .retrain } }, by decide⟩,
   ⟨(JobId.hinge, Instr.hgCreate), by decide, up fun d => { d with fc := { d.fc with shackled := true } }, by decide⟩,
   ⟨0x70, up, by decide⟩,
   ⟨0x70, up, by decide⟩,
   ⟨0x70, up, by decide⟩,
   ⟨0x70, up, by decide⟩⟩

/-- The premises of each clause of LeafCommandsActOnTheSelectedLeaf are met. -/
theorem test_witness_leaf_commands_act_on_the_selected_leaf :
  (∃ c ∈ [Instr.hgQconfig, .hgReset, .hgDestroy, .hgQuiesce, .hgResume, .hgRebind, .hgDlogSet, .hgDlogHarvest, .hgDlogStop], ∃ s : State, (mayCommand s .hinge) ∧ ((s.dev.leaf s.dev.hg.sel).state = .free)) ∧
  (∃ s : State, (mayCommand s .hinge) ∧ ((s.dev.leaf s.dev.hg.sel).state = .active ∨ (s.dev.leaf s.dev.hg.sel).state = .quiesced) ∧ s.dev.arg .hinge 0 < 64 ∧ (s.dev.queueTurns s.dev.hg.sel (s.dev.arg .hinge 0) = []) ∧ (s.dev.arg64 .hinge 1 % 4096 = 0) ∧ (s.dev.arg64 .hinge 3 % 4096 = 0) ∧ (field (s.dev.arg .hinge 5) 28 3 = 0) ∧ (field (s.dev.arg .hinge 5) 22 2 = 0) ∧ (field (s.dev.arg .hinge 5) 12 8 = 0) ∧ (field (s.dev.arg .hinge 5) 4 4 = 0) ∧ (4 ≤ field (s.dev.arg .hinge 5) 8 4) ∧ (4 ≤ field (s.dev.arg .hinge 5) 0 4)) ∧
  (∃ s : State, (mayCommand s .hinge) ∧ ((s.dev.leaf s.dev.hg.sel).state = .active ∨ (s.dev.leaf s.dev.hg.sel).state = .quiescing ∨ (s.dev.leaf s.dev.hg.sel).state = .quiesced)) ∧
  (∃ s : State, (mayCommand s .hinge) ∧ ((s.dev.leaf s.dev.hg.sel).state = .active) ∧ s.dev.arg .hinge 0 = 0 ∧ 0 < s.dev.arg .hinge 1 ∧ (s.dev.arg .hinge 1 < 2 ^ 24)) ∧
  (∃ s : State, (mayCommand s .hinge) ∧ ((s.dev.leaf s.dev.hg.sel).state = .quiesced)) ∧
  (∃ s : State, (mayCommand s .hinge) ∧ ((s.dev.leaf s.dev.hg.sel).state = .quiesced) ∧ (s.dev.bindingOk (s.dev.arg .hinge 2) = true)) ∧
  (∃ s : State, (mayCommand s .hinge) ∧ ((s.dev.leaf s.dev.hg.sel).state = .active ∨ (s.dev.leaf s.dev.hg.sel).state = .quiesced) ∧ (s.dev.arg64 .hinge 0 % 4096 = 0) ∧ (s.dev.arg64 .hinge 2 % 4096 = 0) ∧ (s.dev.arg64 .hinge 4 % 4096 = 0) ∧ (s.dev.arg .hinge 6 % 64 = 0) ∧ 0 < s.dev.arg .hinge 6 ∧ (s.dev.arg .hinge 6 ≤ 2 ^ 26)) :=
  ⟨⟨.hgQconfig, by decide, up, by decide⟩,
   ⟨withLeaf .active id (hgArgs [3, 0x1000, 0, 0x2000, 0, 0x80000505, 0, 0]), by decide⟩,
   ⟨withLeaf .active, by decide⟩,
   ⟨withLeaf .active id (hgArgs [0, 50, 0, 0, 0, 0, 0, 0]), by decide⟩,
   ⟨withLeaf .quiesced, by decide⟩,
   ⟨withLeaf .quiesced id (hgArgs [0, 0, 0x01000007, 0, 0, 0, 0, 0]), by decide⟩,
   ⟨withLeaf .active id (hgArgs [0x1000, 0, 0x2000, 0, 0, 0, 64, 0]), by decide⟩⟩

/-- The premises of each clause of LeafWorkFinishes are met. -/
theorem test_witness_leaf_work_finishes :
  (∃ s : State, (mayCommand s .hinge) ∧ ((s.dev.leaf s.dev.hg.sel).state = .active) ∧ ((s.dev.leaf s.dev.hg.sel).dlog.en = true) ∧ ((s.dev.leaf s.dev.hg.sel).dlog.upd = [])) ∧
  (∃ s : State, (mayCommand s .hinge) ∧ ((s.dev.leaf s.dev.hg.sel).state = .active) ∧ ((s.dev.leaf s.dev.hg.sel).dlog.en = true) ∧ ((s.dev.leaf s.dev.hg.sel).dlog.upd ≠ [])) ∧
  (∃ s : State, (mayCommand s .hinge) ∧ ((s.dev.leaf s.dev.hg.sel).state ≠ .free) ∧ ((s.dev.leaf s.dev.hg.sel).dlog.upd = [])) ∧
  (∃ s : State, (mayCommand s .hinge) ∧ ((s.dev.leaf s.dev.hg.sel).state ≠ .free) ∧ ((s.dev.leaf s.dev.hg.sel).dlog.upd ≠ [])) ∧
  (∃ l : Nat, ∃ s : State, ((s.dev.leaf l).resetting = true) ∧ ((s.dev.leaf l).destroying = false) ∧ (s.dev.turnsOf l = [])) ∧
  (∃ l : Nat, ∃ b : Nat, ∃ s : State, ((s.dev.leaf l).state = .quiescing) ∧ ((s.dev.leaf l).deadline = some b) ∧ met s.dev.sc.beat b = true) ∧
  (∃ l : Nat, ∃ s : State, ((s.dev.leaf l).state = .quiescing) ∧ ((s.dev.leaf l).resetting = false) ∧ (s.dev.turnsOf l = [])) ∧
  (∃ j : Job, ∃ w : List Seg, ∃ s : State, s.dev.hg.cmd.job = some j ∧ j.failed = true ∧ j.phase = .working w ∧ j.op ≠ 12 ∧ s.dev.workPossible j.plan = true) ∧
  (∃ j : Job, ∃ w : List Seg, ∃ s : State, s.dev.hg.cmd.job = some j ∧ j.failed = true ∧ j.phase = .working w ∧ j.op ≠ 12 ∧ s.dev.workPossible j.plan = false) ∧
  (∃ j : Job, ∃ w : List Seg, ∃ s : State, s.dev.hg.cmd.job = some j ∧ j.failed = true ∧ j.phase = .working w ∧ j.op = 12 ∧ s.dev.ns.notReady = false ∧ s.dev.hingeCanDraw 88 = true ∧ (s.dev.workPossible (certWork ++ [kemWork 4, boltWork 36 3 true]) = true)) :=
  ⟨⟨withLeaf .active (fun l => { l with dlog := { en := true, pages := 64 } }), by decide⟩,
   ⟨withLeaf .active (fun l => { l with dlog := { en := true, pages := 64, upd := [{ addr := 0x1000, mask := 1, slot := none }] } }), by decide⟩,
   ⟨withLeaf .active, by decide⟩,
   ⟨withLeaf .active (fun l => { l with dlog := { en := true, pages := 64, upd := [{ addr := 0x1000, mask := 1, slot := none }] } }), by decide⟩,
   ⟨5, withLeaf .active (fun l => { l with resetting := true }), by decide⟩,
   ⟨5, 0, withLeaf .quiescing (fun l => { l with deadline := some 0 }), by decide⟩,
   ⟨5, withLeaf .quiescing (fun l => { l with deadline := some 90 }), by decide⟩,
   ⟨{ op := 1, leaf := 5, failed := true, phase := .working [boltWork 5 2 true], plan := attestWork 1 }, [boltWork 5 2 true], withLeaf .quiesced id fun d => engines { d with hg := { d.hg with cmd := { d.hg.cmd with job := some { op := 1, leaf := 5, failed := true, phase := .working [boltWork 5 2 true], plan := attestWork 1 } } } }, by decide⟩,
   ⟨{ op := 1, leaf := 5, failed := true, phase := .working [boltWork 5 2 true], plan := attestWork 1 }, [boltWork 5 2 true], withLeaf .quiesced id fun d => id { d with hg := { d.hg with cmd := { d.hg.cmd with job := some { op := 1, leaf := 5, failed := true, phase := .working [boltWork 5 2 true], plan := attestWork 1 } } } }, by decide⟩,
   ⟨{ op := 12, leaf := 5, failed := true, phase := .working [boltWork 5 2 true], plan := attestWork 1 }, [boltWork 5 2 true], withLeaf .quiesced id fun d => random <| engines { d with hg := { d.hg with cmd := { d.hg.cmd with job := some { op := 12, leaf := 5, failed := true, phase := .working [boltWork 5 2 true], plan := attestWork 1 } } } }, by decide⟩⟩

/-- The premises of each clause of LeafLifeCommandsBegin are met. -/
theorem test_witness_leaf_life_commands_begin :
  (∃ c ∈ [Instr.hgCreate, .hgImportOpen, .hgExport, .hgImport], ∃ s : State, (mayCommand s .hinge) ∧ s.dev.lifeBusy = true) ∧
  (∃ c ∈ [Instr.hgCreate, .hgImportOpen, .hgExport, .hgImport], ∃ s : State, (mayCommand s .hinge) ∧ s.dev.lifeBusy = false ∧ s.dev.kw.valid = false) ∧
  (∃ l : Nat, ∃ s : State, (mayCommand s .hinge) ∧ s.dev.lifeBusy = false ∧ s.dev.kw.valid = true ∧ s.dev.pickFree = .ok l ∧ (s.dev.bindingOk (s.dev.arg .hinge 2) = true)) ∧
  (∃ l : Nat, ∃ s : State, (mayCommand s .hinge) ∧ s.dev.lifeBusy = false ∧ s.dev.kw.valid = true ∧ s.dev.pickFree = .ok l ∧ s.dev.ns.notReady = false ∧ s.dev.hingeCanDraw 16 = true) ∧
  (∃ l : Nat, ∃ s : State, (mayCommand s .hinge) ∧ s.dev.lifeBusy = false ∧ s.dev.kw.valid = true ∧ s.dev.pickFree = .ok l ∧ s.dev.ns.notReady = false ∧ s.dev.hingeCanDraw 16 = false) ∧
  (∃ l : Nat, ∃ s : State, (mayCommand s .hinge) ∧ s.dev.lifeBusy = false ∧ s.dev.kw.valid = true ∧ s.dev.pickFree = .ok l ∧ s.dev.ns.notReady = true) ∧
  (∃ s : State, (mayCommand s .hinge) ∧ ((s.dev.leaf s.dev.hg.sel).state = .reserved)) ∧
  (∃ s : State, (mayCommand s .hinge) ∧ ((s.dev.leaf s.dev.hg.sel).state ≠ .free) ∧ ((s.dev.leaf s.dev.hg.sel).state ≠ .reserved)) ∧
  (∃ s : State, (mayCommand s .hinge) ∧ s.dev.lifeBusy = false ∧ s.dev.kw.valid = true ∧ ((s.dev.leaf s.dev.hg.sel).state = .quiesced) ∧ s.dev.arg .hinge 2 = 9051 ∧ s.dev.arg .hinge 5 < 4096 ∧ s.dev.ns.notReady = false) ∧
  (∃ b : Bytes, ∃ s : State, (mayCommand s .hinge) ∧ s.dev.lifeBusy = false ∧ s.dev.kw.valid = true ∧ ((s.dev.leaf s.dev.hg.sel).state = .exported) ∧ (Map.get? s.dev.hg.blobs s.dev.hg.sel = some b)) ∧
  (∃ s : State, (mayCommand s .hinge) ∧ s.dev.lifeBusy = false ∧ s.dev.kw.valid = true ∧ ((s.dev.leaf s.dev.hg.sel).state = .reserved) ∧ (s.dev.bindingOk (s.dev.arg .hinge 2) = true)) :=
  ⟨⟨.hgCreate, by decide, up (haspAt 1), by decide⟩,
   ⟨.hgCreate, by decide, up, by decide⟩,
   ⟨6, up fun d => hgArgs [0x4000, 0, 0x10000007, 0, 0, 0, 0, 0] { d with hg := { d.hg with sel := 6 }, kw := { d.kw with valid := true } }, by decide, by decide, by decide, rfl, by decide⟩,
   ⟨6, up fun d => random (hgArgs [0x4000, 0, 0, 0, 0, 0, 0, 0] { d with hg := { d.hg with sel := 6 }, kw := { d.kw with valid := true } }), by decide, by decide, by decide, rfl, by decide⟩,
   ⟨6, up fun d => (fun d => { d with ns := { d.ns with state := .ready } }) (hgArgs [0x4000, 0, 0, 0, 0, 0, 0, 0] { d with hg := { d.hg with sel := 6 }, kw := { d.kw with valid := true } }), by decide, by decide, by decide, rfl, by decide, by decide⟩,
   ⟨6, up fun d => (hgArgs [0x4000, 0, 0, 0, 0, 0, 0, 0] { d with hg := { d.hg with sel := 6 }, kw := { d.kw with valid := true } }), by decide, by decide, by decide, rfl, by decide⟩,
   ⟨withLeaf .reserved, by decide⟩,
   ⟨withLeaf .active, by decide⟩,
   ⟨withLeaf .quiesced id fun d => random (hgArgs [0x4000, 0, 9051, 0x8000, 0, 100, 0, 0] { d with kw := { d.kw with valid := true } }), by decide⟩,
   ⟨[1, 2, 3], withLeaf .exported id fun d => hgArgs [0x4000, 0, 9051, 0x8000, 0, 100, 0, 0] { d with kw := { d.kw with valid := true }, hg := { d.hg with blobs := [(5, [1, 2, 3])] } }, by decide⟩,
   ⟨withLeaf .reserved id fun d => hgArgs [0x4000, 0, 7, 0, 0, 0, 0, 0] { d with kw := { d.kw with valid := true } }, by decide⟩⟩

/-- The premises of each clause of KeywayAndHaspCommandsBegin are met. -/
theorem test_witness_keyway_and_hasp_commands_begin :
  (∃ s : State, (mayCommand s .keyway) ∧ (s.dev.hasp % 2 = 1)) ∧
  (∃ s : State, (mayCommand s .keyway) ∧ (s.dev.hasp % 2 = 0) ∧ s.dev.hasp ≠ 2) ∧
  (∃ s : State, (mayCommand s .keyway) ∧ s.dev.hasp = 2 ∧ (s.dev.leaves.any (fun e => e.2.state != .free) = true)) ∧
  (∃ s : State, (mayCommand s .keyway) ∧ s.dev.hasp = 2 ∧ (s.dev.leaves.any (fun e => e.2.state != .free) = false) ∧ s.dev.ns.rootBlocked = false) ∧
  (∃ s : State, (mayCommand s .keyway) ∧ s.dev.arg .keyway 2 ≠ 9051) ∧
  (∃ s : State, (mayCommand s .keyway) ∧ s.dev.arg .keyway 2 = 9051) ∧
  (∃ s : State, (mayCommand s .keyway) ∧ (s.dev.kw.cert = [])) ∧
  (∃ s : State, (mayCommand s .keyway) ∧ (s.dev.kw.cert ≠ [])) ∧
  (∃ s : State, (mayCommand s .keyway) ∧ s.dev.kw.valid = false) ∧
  (∃ s : State, (mayCommand s .keyway) ∧ s.dev.kw.valid = true) ∧
  (∃ s : State, (mayCommand s .hasp) ∧ s.dev.arg .hasp 2 = 4787) ∧
  (∃ s : State, (mayCommand s .hasp) ∧ s.dev.arg .hasp 2 = 4787) ∧
  (∃ c ∈ [Instr.hsOpen, .hsTransition], ∃ s : State, (mayCommand s .hasp) ∧ s.dev.arg .hasp 2 ≠ 4787) ∧
  (∃ s : State, (mayCommand s .hasp)) ∧
  (∃ s : State, (mayCommand s .hasp) ∧ s.dev.hasp = 2 ∧ s.dev.arg .hasp 2 = 2688) ∧
  (∃ s : State, (mayCommand s .hasp) ∧ (s.dev.hasp % 2 = 0) ∧ s.dev.hasp ≠ 2) :=
  ⟨⟨up (haspAt 1), by decide⟩,
   ⟨up (haspAt 4), by decide⟩,
   ⟨withLeaf .active id (haspAt 2), by decide⟩,
   ⟨up (haspAt 2), by decide⟩,
   ⟨up, by decide⟩,
   ⟨up (kwArgs [0x4000, 0, 9051, 0]), by decide⟩,
   ⟨up, by decide⟩,
   ⟨up fun d => { d with kw := { d.kw with cert := [1, 2, 3] } }, by decide⟩,
   ⟨up, by decide⟩,
   ⟨up (fun d => { d with kw := { d.kw with valid := true } }), by decide⟩,
   ⟨up (hsArgs [0x4000, 0, 4787, 0]), by decide⟩,
   ⟨up (hsArgs [0x4000, 0, 4787, 0]), by decide⟩,
   ⟨.hsOpen, by decide, up, by decide⟩,
   ⟨up (rights 5), by decide⟩,
   ⟨up fun d => haspAt 2 (hsArgs [0x4000, 0, 2688, 0] d), by decide⟩,
   ⟨up (haspAt 4), by decide⟩⟩

/-- The premises of each clause of MaintenanceRequestsGetTickets are met. -/
theorem test_witness_maintenance_requests_get_tickets :
  (∃ e ∈ interlockRows, ∃ k : Nat, ∃ s : State, (startsAtOnce s e.1 k)) ∧
  (∃ e ∈ interlockRows, ∃ k : Nat, ∃ s : State, (hostOpen s) ∧ s.dev.reqCheck e.1 s.dev.mi.cmd.args = none ∧ s.dev.mi.freeTicket = some k ∧ s.dev.mi.queue.length < 8 ∧ (s.dev.canStart (reqClass e.1) = false)) ∧
  (∃ e ∈ interlockRows, ∃ s : State, (hostOpen s) ∧ s.dev.reqCheck e.1 s.dev.mi.cmd.args = none ∧ 8 ≤ s.dev.mi.queue.length) ∧
  (∃ e ∈ interlockRows, ∃ st : Status, ∃ s : State, (hostOpen s) ∧ s.dev.reqCheck e.1 s.dev.mi.cmd.args = some st ∧ st ≠ St.rightMissing) :=
  ⟨⟨(0x20, .miMramScrub), by decide, 1, up, by decide⟩,
   ⟨(0x20, .miMramScrub), by decide, 1, up fun d => acting (act 0x20) d, by decide⟩,
   ⟨(0x20, .miMramScrub), by decide, up fun d => { d with mi := { d.mi with queue := List.replicate 8 (act 3) } }, by decide⟩,
   ⟨(0x12, .miRawCapture), by decide, St.badArgument, up (miArgs [40, 0, 0, 0]), by decide⟩⟩

/-- The premises of each clause of MaintenanceActivitiesDoTheirWork are met. -/
theorem test_witness_maintenance_activities_do_their_work :
  (∃ k : Nat, ∃ s : State, (startsAtOnce s 0x01 k) ∧ (s.dev.mi.running.any (fun r => r.op == 1) = false) ∧ (bitOf (nth s.dev.mi.cmd.args 0 0) 0 = true) ∧ ((s.dev.tumbler 0).retired = false) ∧ ((s.dev.tumbler 0).parked = false)) ∧
  (∃ k : Nat, ∃ n : Nat, ∃ s : State, (startsAtOnce s 0x02 k) ∧ n < 32 ∧ nth s.dev.mi.cmd.args 0 0 = n ∧ n < s.dev.tu.length) ∧
  (∃ k : Nat, ∃ s : State, (startsAtOnce s 0x03 k)) ∧
  (∃ k : Nat, ∃ p : Nat, ∃ s : State, (startsAtOnce s 0x10 k) ∧ nth s.dev.mi.cmd.args 0 0 = p ∧ p < s.dev.ns.pins.length) ∧
  (∃ k : Nat, ∃ p : Nat, ∃ s : State, (startsAtOnce s 0x11 k) ∧ nth s.dev.mi.cmd.args 0 0 = p ∧ p < s.dev.ns.pins.length) ∧
  (∃ k : Nat, ∃ s : State, (startsAtOnce s 0x12 k)) ∧
  (∃ k : Nat, ∃ s : State, (startsAtOnce s 0x13 k)) ∧
  (∃ k : Nat, ∃ s : State, (startsAtOnce s 0x20 k)) ∧
  (∃ k : Nat, ∃ c : Instr, ∃ s : State, ((c = .miWearRelocate ∧ startsAtOnce s 0x21 k) ∨ (c = .miJournalCompact ∧ startsAtOnce s 0x23 k))) ∧
  (∃ k : Nat, ∃ s : State, (startsAtOnce s 0x22 k)) ∧
  (∃ k : Nat, ∃ s : State, (startsAtOnce s 0x30 k)) ∧
  (∃ k : Nat, ∃ s : State, (startsAtOnce s 0x31 k)) :=
  ⟨⟨1, (up fun d => miArgs [0x101, 100, 0, 0] (engines (random (haspAt 2 { d with mc := { d.mc with verB := some 0, classes := List.replicate 4 { verA := some 3, verB := some 3 } }, nv := { d.nv with ready := true } })))), by decide⟩,
   ⟨1, 2, (up fun d => miArgs [2, 0, 0, 0] (engines (random (haspAt 2 { d with mc := { d.mc with verB := some 0, classes := List.replicate 4 { verA := some 3, verB := some 3 } }, nv := { d.nv with ready := true } })))), by decide⟩,
   ⟨1, (up fun d => miArgs [1, 0, 0, 0] (engines (random (haspAt 2 { d with mc := { d.mc with verB := some 0, classes := List.replicate 4 { verA := some 3, verB := some 3 } }, nv := { d.nv with ready := true } })))), by decide⟩,
   ⟨1, 3, (up fun d => miArgs [3, 0, 0, 0] (engines (random (haspAt 2 { d with mc := { d.mc with verB := some 0, classes := List.replicate 4 { verA := some 3, verB := some 3 } }, nv := { d.nv with ready := true } })))), by decide⟩,
   ⟨1, 3, (up fun d => miArgs [3, 0, 0, 0] (engines (random (haspAt 2 { d with mc := { d.mc with verB := some 0, classes := List.replicate 4 { verA := some 3, verB := some 3 } }, nv := { d.nv with ready := true } })))), by decide⟩,
   ⟨1, (up fun d => miArgs [3, 0, 0, 0] (engines (random (haspAt 2 { d with mc := { d.mc with verB := some 0, classes := List.replicate 4 { verA := some 3, verB := some 3 } }, nv := { d.nv with ready := true } })))), by decide⟩,
   ⟨1, (up fun d => miArgs [0, 0, 0, 0] (engines (random (haspAt 2 { d with mc := { d.mc with verB := some 0, classes := List.replicate 4 { verA := some 3, verB := some 3 } }, nv := { d.nv with ready := true } })))), by decide⟩,
   ⟨1, (up fun d => miArgs [0, 0, 0, 0] (engines (random (haspAt 2 { d with mc := { d.mc with verB := some 0, classes := List.replicate 4 { verA := some 3, verB := some 3 } }, nv := { d.nv with ready := true } })))), by decide⟩,
   ⟨1, .miWearRelocate, (up fun d => miArgs [0, 0, 0, 0] (engines (random (haspAt 2 { d with mc := { d.mc with verB := some 0, classes := List.replicate 4 { verA := some 3, verB := some 3 } }, nv := { d.nv with ready := true } })))), by decide⟩,
   ⟨1, (up fun d => miArgs [0x1000, 0, 4096, 0x101] (engines (random (haspAt 2 { d with mc := { d.mc with verB := some 0, classes := List.replicate 4 { verA := some 3, verB := some 3 } }, nv := { d.nv with ready := true } })))), by decide⟩,
   ⟨1, (up fun d => miArgs [0, 0, 0, 0] (engines (random (haspAt 2 { d with mc := { d.mc with verB := some 0, classes := List.replicate 4 { verA := some 3, verB := some 3 } }, nv := { d.nv with ready := true } })))), by decide⟩,
   ⟨1, (up fun d => miArgs [0, 0, 0, 0] (engines (random (haspAt 2 { d with mc := { d.mc with verB := some 0, classes := List.replicate 4 { verA := some 3, verB := some 3 } }, nv := { d.nv with ready := true }, hs := { d.hs with rights := 128 } })))), by decide⟩⟩

/-- The premises of each clause of ActivitiesStartAndFinish are met. -/
theorem test_witness_activities_start_and_finish :
  (∃ r : Req, ∃ s : State, (s.dev.mi.queue = [r]) ∧ s.dev.canStart r.cls = true ∧ ((s.dev.onMi fun m => { m with queue := [] }).recheck r = none)) ∧
  (∃ c : ActClass, ∃ r : Req, ∃ st : Status, ∃ s : State, (s.dev.activityOver c = some (r, st))) ∧
  (∃ s : State, s.dev.tp.rekeyWanted = true ∧ s.dev.ns.notReady = false) :=
  ⟨⟨act 0x20, up fun d => random (haspAt 2 { d with nv := { d.nv with ready := true }, mi := { d.mi with queue := [act 0x20], tickets := [(4, { state := 1, op := 0x20 })] } }), by decide⟩,
   ⟨.nv, { act 0x20 with ended := some 0 }, BitVec.ofNat 16 0, up fun d => acting { act 0x20 with ended := some 0 } d, by decide⟩,
   ⟨up fun d => random { d with tp := { d.tp with rekeyWanted := true } }, by decide⟩⟩

/-- The premises of each clause of PatchesAndSwapsEnd are met. -/
theorem test_witness_patches_and_swaps_end :
  (∃ n : Nat, ∃ p : Pass, ∃ s : State, s.dev.mc.pass = some p ∧ p.drain = true ∧ p.step = 0 ∧ p.cls = 0 ∧ p.engine = n ∧ n < s.dev.tu.length ∧ s.dev.drained p = true ∧ s.dev.power.applied < 3) ∧
  (∃ p : Pass, ∃ s : State, s.dev.mc.pass = some p ∧ p.drain = true ∧ p.step = 0 ∧ p.late = false ∧ met s.dev.sc.beat p.deadline = true ∧ s.dev.drained p = false ∧ ((s.dev.engineOf p.cls p.engine).parked = false)) ∧
  (∃ n : Nat, ∃ p : Pass, ∃ s : State, s.dev.mc.pass = some p ∧ p.step = 1 ∧ p.cls = 0 ∧ p.engine = n ∧ n < s.dev.tu.length ∧ p.revert = false) ∧
  (∃ p : Pass, ∃ s : State, s.dev.mc.pass = some p ∧ p.step = 1 ∧ p.revert = false) ∧
  (∃ b : Nat, ∃ r : Req, ∃ s : State, s.dev.mc.swapping = some b ∧ s.dev.swapReq = some r) ∧
  (∃ b : Nat, ∃ r : Req, ∃ s : State, s.dev.mc.swapping = some b ∧ s.dev.swapReq = some r) ∧
  (∃ s : State, s.dev.mc.swapping = none ∧ s.dev.power.boot = 4 ∧ s.dev.shackled = false) ∧
  (∃ s : State, 3 ≤ s.dev.power.applied) :=
  ⟨⟨2, pass, up (patching pass), by decide⟩,
   ⟨pass, up fun d => { patching pass d with sc := { d.sc with beat := 200, beatB := 200 }, turns := [(3, { loading with phase := .running, home := some 2, op := some { z := zi .mlkemKeygen 0 0 0 0 0, cls := 0, shape := .single, per := 1, started := true, unit := some (.tumbler 2), engines := [.tumbler 2] } })] }, by decide⟩,
   ⟨2, { pass with step := 1, drain := false }, up (patching { pass with step := 1, drain := false }), by decide⟩,
   ⟨{ pass with step := 1, drain := false }, up (patching { pass with step := 1, drain := false }), by decide⟩,
   ⟨1, act 3, up fun d => acting (act 3) { d with mc := { d.mc with swapping := some 1, halted := true } }, by decide⟩,
   ⟨1, act 3, up fun d => acting (act 3) { d with mc := { d.mc with swapping := some 1, halted := true } }, by decide⟩,
   ⟨up, by decide⟩,
   ⟨up fun d => { d with power := { d.power with applied := 3 } }, by decide⟩⟩

/-- The premises of each clause of TransitionsBurnWipeAndBurn are met. -/
theorem test_witness_transitions_burn_wipe_and_burn :
  (∃ x : Trans, ∃ s : State, s.dev.hs.trans = some x ∧ x.step = 0 ∧ s.dev.power.applied ≤ 1 ∧ s.dev.shackled = false) ∧
  (∃ rows : Nat, ∃ x : Trans, ∃ s : State, s.dev.hs.trans = some x ∧ x.step = 0 ∧ s.dev.power.applied ≤ 1 ∧ s.dev.shackled = false ∧ rows < 3) ∧
  (∃ x : Trans, ∃ s : State, s.dev.hs.trans = some x ∧ x.step = 4) ∧
  (∃ x : Trans, ∃ s : State, s.dev.hs.trans = some x ∧ 1 ≤ x.step ∧ x.step ≤ 8 ∧ 2 ≤ x.tries) ∧
  (∃ x : Trans, ∃ s : State, s.dev.hs.trans = some x ∧ 1 ≤ x.step ∧ x.step ≤ 8 ∧ x.tries < 2) ∧
  (∃ x : Trans, ∃ s : State, s.dev.hs.trans = some x ∧ x.step = 9 ∧ s.dev.power.applied ≤ 1 ∧ s.dev.shackled = false) :=
  ⟨⟨{ target := 2, ticket := 1, step := 0, tries := 0 }, up (moving 0 0), by decide⟩,
   ⟨2, { target := 2, ticket := 1, step := 0, tries := 0 }, up (moving 0 0), by decide⟩,
   ⟨{ target := 2, ticket := 1, step := 4, tries := 0 }, up fun d => moving 4 0 (haspAt 1 d), by decide⟩,
   ⟨{ target := 2, ticket := 1, step := 4, tries := 2 }, up fun d => moving 4 2 (haspAt 1 d), by decide⟩,
   ⟨{ target := 2, ticket := 1, step := 4, tries := 1 }, up fun d => moving 4 1 (haspAt 1 d), by decide⟩,
   ⟨{ target := 2, ticket := 1, step := 9, tries := 0 }, up fun d => moving 9 0 (haspAt 1 d), by decide⟩⟩

/-- The premises of each clause of ControlAndCellWords are met. -/
theorem test_witness_control_and_cell_words :
  (∃ slot : Nat, ∃ x : Turn, ∃ z : ZInstr, ∃ s : State, (s.dev.atWord slot .nop = some (x, z))) ∧
  (∃ slot : Nat, ∃ x : Turn, ∃ z : ZInstr, ∃ s : State, (s.dev.atWord slot .fence = some (x, z))) ∧
  (∃ slot : Nat, ∃ x : Turn, ∃ z : ZInstr, ∃ s : State, (s.dev.atWord slot .wait = some (x, z))) ∧
  (∃ slot : Nat, ∃ x : Turn, ∃ z : ZInstr, ∃ s : State, (s.dev.atWord slot .skipIf = some (x, z))) ∧
  (∃ slot : Nat, ∃ x : Turn, ∃ z : ZInstr, ∃ s : State, (s.dev.atWord slot .loop = some (x, z))) ∧
  (∃ slot : Nat, ∃ x : Turn, ∃ z : ZInstr, ∃ s : State, (s.dev.atWord slot .alloc = some (x, z)) ∧ (x.cell? z.dst = none)) ∧
  (∃ slot : Nat, ∃ x : Turn, ∃ z : ZInstr, ∃ s : State, (s.dev.atWord slot .alloc = some (x, z)) ∧ (x.cell? z.dst ≠ none) ∧ x.wantsRecord = true) ∧
  (∃ slot : Nat, ∃ x : Turn, ∃ z : ZInstr, ∃ s : State, (s.dev.atWord slot .free = some (x, z)) ∧ s.dev.preCheck x z = none) ∧
  (∃ slot : Nat, ∃ x : Turn, ∃ z : ZInstr, ∃ s : State, (s.dev.atWord slot .zero = some (x, z)) ∧ s.dev.preCheck x z = none ∧ (storeQuiet s x)) ∧
  (∃ slot : Nat, ∃ x : Turn, ∃ z : ZInstr, ∃ s : State, (s.dev.atWord slot .copyWhole = some (x, z)) ∧ s.dev.preCheck x z = none ∧ (storeQuiet s x)) ∧
  (∃ slot : Nat, ∃ x : Turn, ∃ z : ZInstr, ∃ s : State, (s.dev.atWord slot .copySlice = some (x, z)) ∧ s.dev.preCheck x z = none ∧ (storeQuiet s x)) ∧
  (∃ slot : Nat, ∃ x : Turn, ∃ z : ZInstr, ∃ s : State, (s.dev.atWord slot .copyAppend = some (x, z)) ∧ s.dev.preCheck x z = none ∧ (storeQuiet s x)) ∧
  (∃ slot : Nat, ∃ x : Turn, ∃ z : ZInstr, ∃ s : State, (s.dev.atWord slot .copyCtr = some (x, z)) ∧ s.dev.preCheck x z = none ∧ (storeQuiet s x)) ∧
  (∃ slot : Nat, ∃ x : Turn, ∃ z : ZInstr, ∃ s : State, (s.dev.atWord slot .xor = some (x, z)) ∧ s.dev.preCheck x z = none ∧ (storeQuiet s x)) ∧
  (∃ slot : Nat, ∃ x : Turn, ∃ z : ZInstr, ∃ s : State, (s.dev.atWord slot .cmpCt = some (x, z)) ∧ s.dev.preCheck x z = none) ∧
  (∃ slot : Nat, ∃ x : Turn, ∃ z : ZInstr, ∃ s : State, (s.dev.atWord slot .randFill = some (x, z)) ∧ s.dev.preCheck x z = none ∧ 0 < z.imm ∧ s.dev.servesTurn x z.imm = true ∧ (storeQuiet s x)) ∧
  (∃ slot : Nat, ∃ x : Turn, ∃ z : ZInstr, ∃ s : State, (s.dev.atWord slot .randFill = some (x, z)) ∧ s.dev.preCheck x z = none ∧ 0 < z.imm ∧ s.dev.servesTurn x z.imm = false) ∧
  (∃ slot : Nat, ∃ n : Nat, ∃ x : Turn, ∃ z : ZInstr, ∃ s : State, (s.dev.atWord slot .zero = some (x, z)) ∧ s.dev.preCheck x z = none ∧ x.bolt = false ∧ x.home = some n ∧ n < s.dev.tu.length ∧ ((s.dev.tumbler n).armed = some 0)) :=
  ⟨⟨3, turn (zi .nop 0 255 255 255 0) [], zi .nop 0 255 255 255 0, running (turn (zi .nop 0 255 255 255 0) []) (id) (id), by decide⟩,
   ⟨3, turn (zi .fence 0 255 255 255 0) [], zi .fence 0 255 255 255 0, running (turn (zi .fence 0 255 255 255 0) []) (id) (id), by decide⟩,
   ⟨3, turn (zi .wait 0 255 255 255 7) [], zi .wait 0 255 255 255 7, running (turn (zi .wait 0 255 255 255 7) []) (id) (id), by decide⟩,
   ⟨3, turn (zi .skipIf 1 255 255 255 0x302) [], zi .skipIf 1 255 255 255 0x302, running (turn (zi .skipIf 1 255 255 255 0x302) []) (id) (id), by decide⟩,
   ⟨3, turn (zi .loop 0 255 255 255 0x201) [], zi .loop 0 255 255 255 0x201, running (turn (zi .loop 0 255 255 255 0x201) []) (id) (id), by decide⟩,
   ⟨3, turn (zi .alloc 0 1 255 255 8) [], zi .alloc 0 1 255 255 8, running (turn (zi .alloc 0 1 255 255 8) []) (id) (id), by decide⟩,
   ⟨3, turn (zi .alloc 0 1 255 255 8) [(1, blank 8)], zi .alloc 0 1 255 255 8, running (turn (zi .alloc 0 1 255 255 8) [(1, blank 8)]) (id) (id), by decide⟩,
   ⟨3, turn (zi .free 0 1 255 255 0) [(1, blank 8)], zi .free 0 1 255 255 0, running (turn (zi .free 0 1 255 255 0) [(1, blank 8)]) (id) (id), by decide⟩,
   ⟨3, turn (zi .zero 0 1 255 255 0) [(1, blank 8)], zi .zero 0 1 255 255 0, running (turn (zi .zero 0 1 255 255 0) [(1, blank 8)]) (id) (id), by decide⟩,
   ⟨3, turn (zi .copyWhole 0 1 0 255 0) [(0, full [1, 2, 3, 4]), (1, blank 8)], zi .copyWhole 0 1 0 255 0, running (turn (zi .copyWhole 0 1 0 255 0) [(0, full [1, 2, 3, 4]), (1, blank 8)]) (id) (id), by decide⟩,
   ⟨3, turn (zi .copySlice 1 1 0 255 1) [(0, full [1, 2, 3, 4]), (1, blank 2)], zi .copySlice 1 1 0 255 1, running (turn (zi .copySlice 1 1 0 255 1) [(0, full [1, 2, 3, 4]), (1, blank 2)]) (id) (id), by decide⟩,
   ⟨3, turn (zi .copyAppend 2 1 0 255 0) [(0, full [1, 2, 3, 4]), (1, blank 8)], zi .copyAppend 2 1 0 255 0, running (turn (zi .copyAppend 2 1 0 255 0) [(0, full [1, 2, 3, 4]), (1, blank 8)]) (id) (id), by decide⟩,
   ⟨3, turn (zi .copyCtr 3 1 0 255 2) [(0, full (zeros 16)), (1, blank 40)], zi .copyCtr 3 1 0 255 2, running (turn (zi .copyCtr 3 1 0 255 2) [(0, full (zeros 16)), (1, blank 40)]) (id) (id), by decide⟩,
   ⟨3, turn (zi .xor 0 1 0 2 0) [(0, full [1, 2, 3, 4]), (1, blank 8), (2, full [5, 6, 7, 8])], zi .xor 0 1 0 2 0, running (turn (zi .xor 0 1 0 2 0) [(0, full [1, 2, 3, 4]), (1, blank 8), (2, full [5, 6, 7, 8])]) (id) (id), by decide⟩,
   ⟨3, turn (zi .cmpCt 0 255 0 2 0) [(0, full [1, 2, 3, 4]), (2, full [5, 6, 7, 8])], zi .cmpCt 0 255 0 2 0, running (turn (zi .cmpCt 0 255 0 2 0) [(0, full [1, 2, 3, 4]), (2, full [5, 6, 7, 8])]) (id) (id), by decide⟩,
   ⟨3, turn (zi .randFill 0 1 255 255 8) [(1, blank 8)], zi .randFill 0 1 255 255 8, running (turn (zi .randFill 0 1 255 255 8) [(1, blank 8)]) (id) (random), by decide⟩,
   ⟨3, turn (zi .randFill 0 1 255 255 8) [(1, blank 8)], zi .randFill 0 1 255 255 8, running (turn (zi .randFill 0 1 255 255 8) [(1, blank 8)]) (id) (id), by decide⟩,
   ⟨3, 0, turn (zi .zero 0 1 255 255 0) [(1, blank 8)], zi .zero 0 1 255 255 0, running (turn (zi .zero 0 1 255 255 0) [(1, blank 8)]) (id) (fun d => { d with tu := List.replicate 32 { armed := some 0 } }), by decide⟩⟩

/-- The premises of each clause of HostWordsReadAndWriteInOrder are met. -/
theorem test_witness_host_words_read_and_write_in_order :
  (∃ slot : Nat, ∃ x : Turn, ∃ z : ZInstr, ∃ s : State, (s.dev.atWord slot .load = some (x, z)) ∧ s.dev.preCheck x z = none ∧ 0 < x.size z.dst ∧ x.size z.dst ≤ 4096) ∧
  (∃ slot : Nat, ∃ x : Turn, ∃ z : ZInstr, ∃ s : State, (s.dev.atWord slot .store = some (x, z)) ∧ s.dev.preCheck x z = none) ∧
  (∃ slot : Nat, ∃ x : Turn, ∃ z : ZInstr, ∃ s : State, (s.dev.atWord slot .storeStream = some (x, z)) ∧ s.dev.preCheck x z = none ∧ ((s.dev.leaf x.leaf).dlog.en = false)) ∧
  (∃ slot : Nat, ∃ x : Turn, ∃ z : ZInstr, ∃ s : State, (s.dev.atWord slot .fin = some (x, z)) ∧ s.dev.preCheck x z = none ∧ x.wantsRecord = true ∧ x.failing = none) ∧
  (∃ slot : Nat, ∃ st : Status, ∃ x : Turn, ∃ z : ZInstr, ∃ s : State, (s.dev.atWord slot .fin = some (x, z)) ∧ x.wantsRecord = true ∧ x.due = some st ∧ statusClass st ≠ 4) ∧
  (∃ slot : Nat, ∃ x : Turn, ∃ z : ZInstr, ∃ s : State, (s.dev.atWord slot .fin = some (x, z)) ∧ s.dev.preCheck x z = none ∧ x.wantsRecord = true ∧ x.failing = none ∧ (x.stores = []) ∧ x.pendingW = 0 ∧ x.record = none ∧ x.recordQueued = false ∧ z.a = 0xFF ∧ ((s.dev.leaf x.leaf).dlog.en = false)) :=
  ⟨⟨3, turn (zi .load 0 1 255 255 0) [(1, blank 8)], zi .load 0 1 255 255 0, running (turn (zi .load 0 1 255 255 0) [(1, blank 8)]) (id) (id), by decide⟩,
   ⟨3, turn (zi .store 0 255 0 255 0) [(0, full [1, 2, 3, 4])], zi .store 0 255 0 255 0, running (turn (zi .store 0 255 0 255 0) [(0, full [1, 2, 3, 4])]) (id) (id), by decide⟩,
   ⟨3, turn (zi .storeStream 2 255 0 255 0) [(0, full [1, 2, 3, 4])], zi .storeStream 2 255 0 255 0, running (turn (zi .storeStream 2 255 0 255 0) [(0, full [1, 2, 3, 4])]) (id) (id), by decide⟩,
   ⟨3, turn (zi .fin 0 255 255 255 0) [], zi .fin 0 255 255 255 0, running (turn (zi .fin 0 255 255 255 0) []) (id) (id), by decide⟩,
   ⟨3, St.dmaFault, { turn (zi .fin 0 255 255 255 0) [] with due := some St.dmaFault }, zi .fin 0 255 255 255 0, running ({ turn (zi .fin 0 255 255 255 0) [] with due := some St.dmaFault }), by decide⟩,
   ⟨3, turn (zi .fin 0 255 255 255 0) [], zi .fin 0 255 255 255 0, running (turn (zi .fin 0 255 255 255 0) []) (id) (id), by decide⟩⟩

/-- The premises of each clause of StateWordsKeepTheirRecords are met. -/
theorem test_witness_state_words_keep_their_records :
  (∃ slot : Nat, ∃ x : Turn, ∃ z : ZInstr, ∃ s : State, (s.dev.atWord slot .digestInit = some (x, z)) ∧ s.dev.preCheck x z = none ∧ (storeQuiet s x)) ∧
  (∃ slot : Nat, ∃ x : Turn, ∃ z : ZInstr, ∃ s : State, (s.dev.atWord slot .digestFinal = some (x, z)) ∧ s.dev.preCheck x z = none ∧ (storeQuiet s x)) ∧
  (∃ slot : Nat, ∃ x : Turn, ∃ z : ZInstr, ∃ s : State, (s.dev.atWord slot .digestStream = some (x, z)) ∧ s.dev.preCheck x z = none ∧ ((x.hstate z.dst).closed = false)) ∧
  (∃ slot : Nat, ∃ alg : Nat, ∃ i : Bytes, ∃ o : Bytes, ∃ x : Turn, ∃ z : ZInstr, ∃ s : State, (s.dev.atWord slot .macInit = some (x, z)) ∧ s.dev.preCheck x z = none ∧ (storeQuiet s x) ∧ (Map.get? s.dev.slots.slots (leNat (x.bytes z.a)) = some (.first alg i o)) ∧ s.dev.dg.armed ≠ some 2) ∧
  (∃ slot : Nat, ∃ x : Turn, ∃ z : ZInstr, ∃ s : State, (s.dev.atWord slot .macInit = some (x, z)) ∧ s.dev.preCheck x z = none ∧ s.dev.dg.armed = some 2 ∧ x.wantsRecord = true) ∧
  (∃ slot : Nat, ∃ x : Turn, ∃ z : ZInstr, ∃ s : State, (s.dev.atWord slot .bnSetmod = some (x, z)) ∧ s.dev.preCheck x z = none ∧ (modulusOk z.cls (beNat (x.bytes z.a)) = true)) ∧
  (∃ slot : Nat, ∃ x : Turn, ∃ z : ZInstr, ∃ s : State, (s.dev.atWord slot .bnSetmod = some (x, z)) ∧ s.dev.preCheck x z = none ∧ (modulusOk z.cls (beNat (x.bytes z.a)) = false) ∧ x.wantsRecord = true) ∧
  (∃ slot : Nat, ∃ x : Turn, ∃ z : ZInstr, ∃ s : State, (s.dev.atWord slot .ctxSaveVault = some (x, z)) ∧ s.dev.preCheck x z = none) ∧
  (∃ slot : Nat, ∃ code : Nat, ∃ bs : Bytes, ∃ x : Turn, ∃ z : ZInstr, ∃ s : State, (s.dev.atWord slot .ctxRestoreVault = some (x, z)) ∧ s.dev.preCheck x z = none ∧ (Map.get? (s.dev.leaf x.leaf).ctx (z.imm % 8) = some (code, bs)) ∧ (z.imm / 2 ^ 16 % 2 ^ 8 = code) ∧ (storeQuiet s x) ∧ s.dev.bk.armed ≠ some 2) ∧
  (∃ slot : Nat, ∃ x : Turn, ∃ z : ZInstr, ∃ s : State, (s.dev.atWord slot .ctxRestoreVault = some (x, z)) ∧ s.dev.preCheck x z = none ∧ s.dev.bk.armed = some 2 ∧ x.wantsRecord = true) ∧
  (∃ slot : Nat, ∃ x : Turn, ∃ z : ZInstr, ∃ s : State, (s.dev.atWord slot .ctxRestoreVault = some (x, z)) ∧ s.dev.preCheck x z = none ∧ (Map.get? (s.dev.leaf x.leaf).ctx (z.imm % 8) = none) ∧ s.dev.bk.armed ≠ some 2 ∧ x.wantsRecord = true) ∧
  (∃ slot : Nat, ∃ x : Turn, ∃ z : ZInstr, ∃ s : State, (s.dev.atWord slot .keywClear = some (x, z)) ∧ s.dev.preCheck x z = none ∧ s.dev.keywayBusy x.leaf = false ∧ (s.dev.hasp % 2 = 0)) :=
  ⟨⟨3, turn (zi .digestInit 0x00 1 255 255 4) [(1, blank 512)], zi .digestInit 0x00 1 255 255 4, running (turn (zi .digestInit 0x00 1 255 255 4) [(1, blank 512)]) (id) (id), by decide⟩,
   ⟨3, turn (zi .digestFinal 0 1 0 255 0) [(0, stCell 0 2 2), (1, blank 64)], zi .digestFinal 0 1 0 255 0, running (turn (zi .digestFinal 0 1 0 255 0) [(0, stCell 0 2 2), (1, blank 64)]) (id) (id), by decide +kernel⟩,
   ⟨3, turn (zi .digestStream 0 1 255 255 0) [(1, stCell 0 2 0)], zi .digestStream 0 1 255 255 0, running (turn (zi .digestStream 0 1 255 255 0) [(1, stCell 0 2 0)]) (id) (id), by decide +kernel⟩,
   ⟨3, 0, [1, 2], [3], { turn (zi .macInit 0 1 0 255 0) [(0, full [2, 0]), (1, blank 512)] with last := 0 }, zi .macInit 0 1 0 255 0, running ({ turn (zi .macInit 0 1 0 255 0) [(0, full [2, 0]), (1, blank 512)] with last := 0 }) (fun l => { l with slotCount := 4 }) fun d => { d with slots := { d.slots with slots := [(2, .first 0 [1, 2] [3])] } }, by decide⟩,
   ⟨3, { turn (zi .macInit 0 1 0 255 0) [(0, full [2, 0]), (1, blank 512)] with last := 0 }, zi .macInit 0 1 0 255 0, running ({ turn (zi .macInit 0 1 0 255 0) [(0, full [2, 0]), (1, blank 512)] with last := 0 }) (fun l => { l with slotCount := 4 }) fun d => { d with dg := { d.dg with armed := some 2 }, slots := { d.slots with slots := [(2, .first 0 [1, 2] [3])] } }, by decide⟩,
   ⟨3, turn (zi .bnSetmod 1 255 0 255 0) [(0, full (beBytes (2 ^ 255 + 19) 32))], zi .bnSetmod 1 255 0 255 0, running (turn (zi .bnSetmod 1 255 0 255 0) [(0, full (beBytes (2 ^ 255 + 19) 32))]) (id) (id), by decide⟩,
   ⟨3, turn (zi .bnSetmod 1 255 0 255 0) [(0, full (zeros 32))], zi .bnSetmod 1 255 0 255 0, running (turn (zi .bnSetmod 1 255 0 255 0) [(0, full (zeros 32))]) (id) (id), by decide⟩,
   ⟨3, turn (zi .ctxSaveVault 0 255 0 255 3) [(0, full [1, 2, 3, 4])], zi .ctxSaveVault 0 255 0 255 3, running (turn (zi .ctxSaveVault 0 255 0 255 3) [(0, full [1, 2, 3, 4])]) (id) (id), by decide⟩,
   ⟨3, 0xFF, [7, 8], turn (zi .ctxRestoreVault 0 1 255 255 0xFF0003) [(1, blank 8)], zi .ctxRestoreVault 0 1 255 255 0xFF0003, running (turn (zi .ctxRestoreVault 0 1 255 255 0xFF0003) [(1, blank 8)]) fun l => { l with ctx := [(3, (0xFF, [7, 8]))] }, by decide⟩,
   ⟨3, turn (zi .ctxRestoreVault 0 1 255 255 0xFF0003) [(1, blank 8)], zi .ctxRestoreVault 0 1 255 255 0xFF0003, running (turn (zi .ctxRestoreVault 0 1 255 255 0xFF0003) [(1, blank 8)]) (fun l => { l with ctx := [(3, (0xFF, [7, 8]))] }) fun d => { d with bk := { d.bk with armed := some 2 } }, by decide⟩,
   ⟨3, turn (zi .ctxRestoreVault 0 1 255 255 0xFF0003) [(1, blank 8)], zi .ctxRestoreVault 0 1 255 255 0xFF0003, running (turn (zi .ctxRestoreVault 0 1 255 255 0xFF0003) [(1, blank 8)]) (id) (id), by decide⟩,
   ⟨3, turn (zi .keywClear 0 255 255 255 0) [], zi .keywClear 0 255 255 255 0, running (turn (zi .keywClear 0 255 255 255 0) []) (id) (id), by decide⟩⟩

/-- The premises of each clause of EngineWordsJoinTheirReadyList are met. -/
theorem test_witness_engine_words_join_their_ready_list :
  (∃ e ∈ zaxusEngineRows, ∃ slot : Nat, ∃ x : Turn, ∃ z : ZInstr, ∃ s : State, ∃ st : Status, (s.dev.atWord slot e.1 = some (x, z)) ∧ s.dev.preCheck x z = some st ∧ x.wantsRecord = true) ∧
  (∃ e ∈ zaxusEngineRows, ∃ slot : Nat, ∃ x : Turn, ∃ z : ZInstr, ∃ s : State, (s.dev.atWord slot e.1 = some (x, z)) ∧ s.dev.preCheck x z = none ∧ x.strokes z ≠ 0 ∧ z.drawLen = 0 ∧ x.woken = false) ∧
  (∃ e ∈ zaxusEngineRows, ∃ slot : Nat, ∃ x : Turn, ∃ z : ZInstr, ∃ s : State, (s.dev.atWord slot e.1 = some (x, z)) ∧ s.dev.preCheck x z = none ∧ x.strokes z ≠ 0 ∧ z.drawLen ≠ 0 ∧ s.dev.servesTurn x z.drawLen = true ∧ x.woken = false) ∧
  (∃ e ∈ zaxusEngineRows, ∃ slot : Nat, ∃ x : Turn, ∃ z : ZInstr, ∃ s : State, (s.dev.atWord slot e.1 = some (x, z)) ∧ s.dev.preCheck x z = none ∧ z.drawLen ≠ 0 ∧ s.dev.servesTurn x z.drawLen = false) ∧
  (∃ e ∈ zaxusPlainRows ++ zaxusEngineRows, ∃ slot : Nat, ∃ s : State, s.dev.atWord slot e.1 = none) :=
  ⟨⟨(.keywCut, .zxKeywCut), .head _, 3, (turn (zi .keywCut 0 255 0 255 0)), zi .keywCut 0 255 0 255 0, running (turn (zi .keywCut 0 255 0 255 0)), St.badCell, by decide⟩,
   ⟨(.keywCut, .zxKeywCut), .head _, 3, (turn (zi .keywCut 0 255 0 255 0) [(0, full (zeros 104))]), zi .keywCut 0 255 0 255 0, running (turn (zi .keywCut 0 255 0 255 0) [(0, full (zeros 104))]), by decide⟩,
   ⟨(.keywGen, .zxKeywGen), .tail _ (.head _), 3, turn (zi .keywGen 1 255 255 255 0x11), zi .keywGen 1 255 255 255 0x11, running (turn (zi .keywGen 1 255 255 255 0x11)) id random, by decide⟩,
   ⟨(.keywGen, .zxKeywGen), .tail _ (.head _), 3, turn (zi .keywGen 1 255 255 255 0x11), zi .keywGen 1 255 255 255 0x11, running (turn (zi .keywGen 1 255 255 255 0x11)), by decide⟩,
   ⟨(.nop, .zxNop), .head _, 3, up, by decide⟩⟩

/-- The premises of each clause of BeatsAdvanceAndFreeze are met. -/
theorem test_witness_beats_advance_and_freeze :
  (∃ s : State, s.dev.sc.tick = .ended ∧ s.dev.power.engPll = true ∧ s.dev.sc.beat = s.dev.sc.beatB) ∧
  (∃ b : BitVec 48, ∃ s : State, s.dev.sc.tick = .ended ∧ s.dev.power.engPll = true ∧ (b.toNat ≠ (s.dev.sc.beat + 1) % 2 ^ 48)) ∧
  (∃ s : State, s.dev.sc.tick = .begun) ∧
  (∃ _b : Option (BitVec 48), ∃ s : State, s.dev.sc.tick ≠ .ended) ∧
  (∃ s : State, s.dev.sc.tick ≠ .begun) :=
  ⟨⟨up, by decide⟩,
   ⟨5, up, by decide⟩,
   ⟨up fun d => { d with sc := { d.sc with tick := .begun } }, by decide⟩,
   ⟨some 5, up fun d => { d with sc := { d.sc with tick := .begun } }, by decide⟩,
   ⟨up, by decide⟩⟩

/-- The premises of each clause of LastStrokeReleasesTheOutcome are met. -/
theorem test_witness_last_stroke_releases_the_outcome :
  (∃ slot : Nat, ∃ x : Turn, ∃ o : Op, ∃ s : State, s.dev.sc.tick = .frozen ∧ (s.dev.turns = [(slot, x)]) ∧ x.op = some o ∧ o.active = true ∧ o.goesOn = false ∧ x.due = none ∧ x.ending = none ∧ o.z.kind ≠ .mceEncaps ∧ o.hit = none ∧ o.result.status = St.done ∧ (o.result.effs = []) ∧ s.dev.hg.cmd.job = none ∧ s.dev.kw.cmd.job = none ∧ s.dev.hs.cmd.job = none ∧ s.dev.mi.cmd.job = none ∧ ((∀ e ∈ s.dev.tu, e.armed = none)) ∧ ((∀ e ∈ s.dev.bo, e.armed = none)) ∧ s.dev.bb.armed = none ∧ s.dev.bk.armed = none ∧ s.dev.dg.armed = none ∧ s.dev.mc.traceEn = false) ∧
  (∃ s : State, s.dev.sc.tick = .frozen) :=
  ⟨⟨3, { turn (zi .bnAdd 0 1 0 2 0) [(1, blank 8)] with phase := .running, op := some { z := zi .bnAdd 0 1 0 2 0, cls := 1, shape := .single, per := 1, started := true, total := 1, active := true, engines := [.bolt 0], result := { outs := [(1, [9, 9, 9], false)], status := St.done } } }, { z := zi .bnAdd 0 1 0 2 0, cls := 1, shape := .single, per := 1, started := true, total := 1, active := true, engines := [.bolt 0], result := { outs := [(1, [9, 9, 9], false)], status := St.done } }, running ({ turn (zi .bnAdd 0 1 0 2 0) [(1, blank 8)] with phase := .running, op := some { z := zi .bnAdd 0 1 0 2 0, cls := 1, shape := .single, per := 1, started := true, total := 1, active := true, engines := [.bolt 0], result := { outs := [(1, [9, 9, 9], false)], status := St.done } } }) id fun d => { d with sc := { d.sc with tick := .frozen } }, by decide⟩,
   ⟨up fun d => { d with sc := { d.sc with tick := .frozen } }, by decide⟩⟩

/-- The premises of each clause of FetchKeywaySpillAndSlotRanges are met. -/
theorem test_witness_fetch_keyway_spill_and_slot_ranges :
  (∃ l : Nat, ∃ q : Nat, ∃ n : Nat, ∃ rest : List (Nat × Nat), ∃ s : State, (s.dev.sc.fetchList = (l, q) :: rest) ∧ 0 < n ∧ (s.dev.canIssue (s.dev.leaf l).module = true) ∧ (n = min (min 4 (s.dev.fetchable l q)) (2 ^ ((s.dev.leaf l).queue q).sqLog - ((s.dev.leaf l).queue q).sqHead)) ∧ ((s.dev.turnsOf l).length + n ≤ s.dev.sc.leafLimit) ∧ (s.dev.turns.length + n ≤ 8192)) ∧
  (∃ l : Nat, ∃ q : Nat, ∃ rest : List (Nat × Nat), ∃ s : State, (s.dev.sc.fetchList = (l, q) :: rest) ∧ s.dev.fetchable l q = 0) ∧
  (∃ l : Nat, ∃ k : KwChange, ∃ c : KwPending, ∃ x : Turn, ∃ s : State, ((s.dev.leaf l).change = some c) ∧ c.durable = true ∧ c.change = some k ∧ s.dev.sc.tick = .ended ∧ (Map.get? s.dev.turns c.slot = some x) ∧ x.phase = .waitEdge ∧ x.leaf = l ∧ x.due = none) ∧
  (∃ slot : Nat, ∃ x : Turn, ∃ o : Op, ∃ s : State, (s.dev.turns = [(slot, x)]) ∧ x.phase = .waitSpill ∧ x.op = some o ∧ ((mceKeygenPlan o.z.set4).2.2 ≤ s.dev.freeUnits.length)) ∧
  (∃ _v : Word, ∃ s : State, (hostOpen s) ∧ (.digest ∉ s.dev.fc.resets)) ∧
  (∃ s : State, (hostOpen s) ∧ (.digest ∉ s.dev.fc.resets) ∧ s.dev.rangeRefused = true) ∧
  (∃ s : State, (hostOpen s) ∧ (.digest ∉ s.dev.fc.resets) ∧ s.dev.rangeRefused = false ∧ ((rangeUnits s.dev.slots.base s.dev.slots.count).any s.dev.unitOccupied = true)) ∧
  (∃ s : State, (hostOpen s) ∧ (.digest ∉ s.dev.fc.resets) ∧ s.dev.rangeRefused = false ∧ ((rangeUnits s.dev.slots.base s.dev.slots.count).any s.dev.unitOccupied = false)) ∧
  (∃ l : Nat, ∃ b : Nat, ∃ n : Nat, ∃ s : State, (s.dev.slots.pend = some (l, b, n)) ∧ ((rangeUnits b n).any s.dev.unitOccupied = false)) :=
  ⟨⟨5, 0, 3, [], withLeaf .active (fun l => { l with queues := [(0, { en := true, sqLog := 4, cqLog := 4, sqTail := 3, sqBase := 0x4000 })] }) (fun d => { d with sc := { d.sc with fetchList := [(5, 0)] } }), by decide⟩,
   ⟨5, 0, [], withLeaf .active id (fun d => { d with sc := { d.sc with fetchList := [(5, 0)] } }), by decide⟩,
   ⟨5, .clear, { change := some .clear, value := 8, slot := 3, durable := true }, { turn (zi .keywClear 0 255 255 255 0) with phase := .waitEdge }, running { turn (zi .keywClear 0 255 255 255 0) with phase := .waitEdge } (fun l => { l with change := some { change := some .clear, value := 8, slot := 3, durable := true } }), by decide⟩,
   ⟨3, { turn (zi .mceKeygen 0 1 255 255 0) [(1, blank 8192)] with phase := .waitSpill, op := some { z := zi .mceKeygen 0 1 255 255 0, cls := 0, shape := .elastic, per := 140 } }, { z := zi .mceKeygen 0 1 255 255 0, cls := 0, shape := .elastic, per := 140 }, running ({ turn (zi .mceKeygen 0 1 255 255 0) [(1, blank 8192)] with phase := .waitSpill, op := some { z := zi .mceKeygen 0 1 255 255 0, cls := 0, shape := .elastic, per := 140 } }), by decide⟩,
   ⟨9, withLeaf .active, by decide⟩,
   ⟨up fun d => { d with slots := { d.slots with sel := 5, base := 0, count := 9 } }, by decide⟩,
   ⟨withLeaf .active id fun d => { d with slots := { d.slots with sel := 5, base := 0, count := 9, spill := [(2, [0])] } }, by decide⟩,
   ⟨withLeaf .active (fun l => { l with slotCount := 0 }) fun d => { d with slots := { d.slots with sel := 5, base := 0, count := 9, slots := [(3, .first 0 [] [])] } }, by decide⟩,
   ⟨5, 0, 9, withLeaf .active id fun d => { d with slots := { d.slots with pend := some (5, 0, 9) } }, by decide⟩⟩

/-- The premises of each clause of GeneratorsReseedAndStoresAreScrubbed are met. -/
theorem test_witness_generators_reseed_and_stores_are_scrubbed :
  (∃ g : GenId, ∃ s : State, genExists g = true ∧ ((∀ n, g = .tumbler n → n < s.dev.tu.length)) ∧ ((∀ n, g = .bolt n → n < s.dev.bo.length)) ∧ s.dev.canDraw 32 = true ∧ ((s.dev.maskGen g).seeded = true) ∧ s.dev.hg.cmd.job = none ∧ ((∀ e ∈ s.dev.turns, e.2.phase ≠ .waitEntropy)) ∧ ((s.dev.maskGen g).starved = true ∨ met s.dev.sc.beat (s.dev.maskGen g).due = true)) ∧
  (∃ g : GenId, ∃ s : State, genExists g = true ∧ ((∀ n, g = .tumbler n → n < s.dev.tu.length)) ∧ ((∀ n, g = .bolt n → n < s.dev.bo.length)) ∧ s.dev.canDraw 32 = true ∧ ((s.dev.maskGen g).seeded = false) ∧ s.dev.hg.cmd.job = none ∧ ((∀ e ∈ s.dev.turns, e.2.phase ≠ .waitEntropy))) ∧
  (∃ g : GenId, ∃ s : State, genExists g = true ∧ ((∀ n, g = .tumbler n → n < s.dev.tu.length)) ∧ ((∀ n, g = .bolt n → n < s.dev.bo.length)) ∧ ((s.dev.maskGen g).seeded = true) ∧ ((s.dev.maskGen g).starved = false) ∧ (65536 ≤ (s.dev.maskGen g).overdue s.dev.sc.beat)) ∧
  (∃ n : Nat, ∃ spot : StoreSpot, ∃ s : State, n < s.dev.tu.length ∧ (s.dev.scrubs (s.dev.tumbler n) = true) ∧ (s.dev.spotOn (.tumbler n) spot = true)) ∧
  (∃ n : Nat, ∃ spot : StoreSpot, ∃ s : State, n < s.dev.tu.length ∧ (s.dev.scrubs (s.dev.tumbler n) = true) ∧ (s.dev.spotOn (.tumbler n) spot = true)) ∧
  (∃ n : Nat, ∃ slot : Nat, ∃ x : Turn, ∃ s : State, n < s.dev.tu.length ∧ (s.dev.scrubs (s.dev.tumbler n) = true) ∧ (Map.get? s.dev.turns slot = some x) ∧ x.bolt = false ∧ x.home = some n ∧ x.ending = none) ∧
  (∃ n : Nat, ∃ spot : StoreSpot, ∃ s : State, n < s.dev.tu.length ∧ (s.dev.scrubs (s.dev.tumbler n) = true) ∧ (spot = .blank ∨ spot = .free)) ∧
  (∃ n : Nat, ∃ spot : StoreSpot, ∃ s : State, n < s.dev.bo.length ∧ (s.dev.scrubs (s.dev.bolt n) = true) ∧ (s.dev.spotOn (.bolt n) spot = true)) ∧
  (∃ _h : Nat, ∃ a : Nat, ∃ _spot : StoreSpot, ∃ s : State, s.dev.power.engPll = true ∧ s.dev.vaultHeld a = false) ∧
  (∃ _h : Nat, ∃ l : Nat, ∃ _spot : StoreSpot, ∃ s : State, s.dev.power.engPll = true ∧ ((s.dev.leaf l).state ≠ .free)) :=
  ⟨⟨.bank, up fun d => random { d with bb := { d.bb with mask := { seeded := true } } }, by decide, (by intro _ h; cases h), (by intro _ h; cases h), by decide, by decide, by decide⟩,
   ⟨.bank, up fun d => random { d with bb := { d.bb with mask := {} } }, by decide, (by intro _ h; cases h), (by intro _ h; cases h), by decide, by decide⟩,
   ⟨.bank, up fun d => random { d with sc := { d.sc with beat := 70000, beatB := 70000 }, bb := { d.bb with mask := { seeded := true } } }, by decide, (by intro _ h; cases h), (by intro _ h; cases h), by decide, by decide, by decide⟩,
   ⟨2, .blank, up engines, by decide⟩,
   ⟨2, .free, up engines, by decide⟩,
   ⟨2, 3, { loading with home := some 2 }, running { loading with home := some 2 } id engines, by decide⟩,
   ⟨2, .free, up engines, by decide⟩,
   ⟨2, .free, up engines, by decide⟩,
   ⟨0, 0x1800000 + 77, .free, up, by decide⟩,
   ⟨0, 5, .free, withLeaf .active, by decide⟩⟩

set_option maxRecDepth 20000 in
/-- The premises of each clause of NoisePinsAreTested are met. -/
theorem test_witness_noise_pins_are_tested :
  (∃ blocks : List (BitVec 1024), ∃ s : State, s.dev.sampling = true ∧ blocks.length = 32) ∧
  (∃ blocks : List (BitVec 1024), ∃ p : Nat, ∃ test : Nat, ∃ run : Nat, ∃ last : Bool, ∃ s : State, s.dev.sampling = true ∧ blocks.length = 32 ∧ p < 32 ∧ p < s.dev.ns.pins.length ∧ ((s.dev.ns.pin p).tested = true) ∧ (s.dev.ns.healthTest (s.dev.ns.pin p) (nth blocks p 0) = (test, run, last)) ∧ test ≠ 0) ∧
  (∃ blocks : List (BitVec 1024), ∃ p : Nat, ∃ run : Nat, ∃ last : Bool, ∃ s : State, s.dev.sampling = true ∧ blocks.length = 32 ∧ p < 32 ∧ p < s.dev.ns.pins.length ∧ ((s.dev.ns.pin p).tested = true) ∧ (s.dev.ns.healthTest (s.dev.ns.pin p) (nth blocks p 0) = (0, run, last))) ∧
  (∃ blocks : List (BitVec 1024), ∃ s : State, s.dev.sampling = true ∧ blocks.length = 32) ∧
  (∃ p : Nat, ∃ s : State, s.dev.sampling = true ∧ p < 32 ∧ ((s.dev.ns.pin p).state = .restarting) ∧ ((s.dev.ns.pin p).trimmed = false) ∧ ((s.dev.ns.pin p).startup = false)) ∧
  (∃ p : Nat, ∃ s : State, s.dev.ns.rawWait = some p ∧ s.dev.ns.notReady = false ∧ s.dev.sampling = true ∧ s.dev.power.applied < 3 ∧ p < s.dev.ns.pins.length) ∧
  (∃ s : State, s.dev.ns.rawActive = true ∧ s.dev.ns.rawPin < s.dev.ns.pins.length) :=
  ⟨⟨(List.replicate 32 (0 : BitVec 1024)), up, by decide⟩,
   ⟨(List.replicate 32 (0 : BitVec 1024)), 3, 1, 1024, false, up, by decide +kernel⟩,
   ⟨(List.replicate 32 (BitVec.ofNat 1024 0x3fd4235992edcf451a1afe878b33e968617959ce3f1f65a8de5271007814e8a25f2dd97f1cfb10f62827688de6a16a3b0d464138a62332553fc1ea36f17fd374c6a5387777330bdbd7210dff076ce2ef87b0b125ec1d7da0a6eb8c9ebd69fe29d76d4330f1446beab0c11fdecb91ce375bc8fbbcbde5c0994164d8399f767c45)), 3, (Entropy.healthTest {} {} (BitVec.ofNat 1024 0x3fd4235992edcf451a1afe878b33e968617959ce3f1f65a8de5271007814e8a25f2dd97f1cfb10f62827688de6a16a3b0d464138a62332553fc1ea36f17fd374c6a5387777330bdbd7210dff076ce2ef87b0b125ec1d7da0a6eb8c9ebd69fe29d76d4330f1446beab0c11fdecb91ce375bc8fbbcbde5c0994164d8399f767c45)).2.1, (Entropy.healthTest {} {} (BitVec.ofNat 1024 0x3fd4235992edcf451a1afe878b33e968617959ce3f1f65a8de5271007814e8a25f2dd97f1cfb10f62827688de6a16a3b0d464138a62332553fc1ea36f17fd374c6a5387777330bdbd7210dff076ce2ef87b0b125ec1d7da0a6eb8c9ebd69fe29d76d4330f1446beab0c11fdecb91ce375bc8fbbcbde5c0994164d8399f767c45)).2.2, up, by decide +kernel⟩,
   ⟨(List.replicate 32 (0 : BitVec 1024)), up fun d => { d with ns := { d.ns with rawActive := true, rawPin := 3, state := .raw } }, by decide⟩,
   ⟨3, up fun d => { d with ns := d.ns.onPin 3 fun p => { p with state := .restarting } }, by decide⟩,
   ⟨3, up fun d => { random d with ns := { (random d).ns with rawWait := some 3 } }, by decide⟩,
   ⟨up fun d => { d with ns := { d.ns with rawActive := true, rawPin := 3, state := .raw } }, by decide⟩⟩

/-- The premises of each clause of EntropyServesItsConsumers are met. -/
theorem test_witness_entropy_serves_its_consumers :
  (∃ g : Nat, ∃ s : State, s.dev.canGenerate false = true ∧ s.dev.ns.alive = true ∧ 0 < s.dev.ns.online ∧ s.dev.ns.nextDrbg false = some g) ∧
  (∃ g : Nat, ∃ s : State, s.dev.canGenerate true = true ∧ s.dev.ns.alive = true ∧ 0 < s.dev.ns.online ∧ s.dev.ns.nextDrbg true = some g ∧ s.dev.hg.cmd.job = none ∧ ((∀ e ∈ s.dev.turns, e.2.phase ≠ .waitEntropy))) ∧
  (∃ j : Job, ∃ s : State, s.dev.ns.rootWanted = true ∧ s.dev.ns.rootBlocked = false ∧ s.dev.ns.rootReady = true ∧ s.dev.kw.cmd.job = some j ∧ j.op = 1 ∧ j.phase = .waiting ∧ j.unit = none ∧ s.dev.workPossible idgenWork = true) ∧
  (∃ j : Job, ∃ s : State, s.dev.ns.rootWanted = true ∧ s.dev.ns.rootBlocked = true ∧ s.dev.kw.cmd.job = some j ∧ j.op = 1 ∧ j.phase = .waiting) ∧
  (∃ s : State, s.dev.ns.timedOut = false ∧ s.dev.ns.state ≠ .ready ∧ s.dev.power.rstN = true) ∧
  (∃ slot : Nat, ∃ x : Turn, ∃ s : State, (Map.get? s.dev.turns slot = some x) ∧ x.phase = .waitEntropy ∧ x.due = none ∧ (s.dev.ns.state = .failed ∨ (s.dev.ns.notReady = true ∧ max 1 s.dev.ns.waitLimit * 4096 ≤ (s.dev.sc.beat + 2 ^ 48 - x.entropyWait) % 2 ^ 48))) :=
  ⟨⟨0, up (fun d => { random d with ns := { (random d).ns with chans := List.replicate 14 { online := true }, drbgs := List.replicate 64 { inst := true, last := some 0 }, internal := List.replicate 4 (zeros 64) } }), by decide⟩,
   ⟨48, up (fun d => { random d with ns := { (random d).ns with chans := List.replicate 14 { online := true }, drbgs := List.replicate 64 { inst := true, last := some 0 }, internal := List.replicate 4 (zeros 64) } }), by decide⟩,
   ⟨{ op := 1 }, up fun d => engines ((fun d => { d with kw := { d.kw with cmd := { d.kw.cmd with job := some { op := 1 } } } }) { d with ns := { d.ns with rootWanted := true, masters := (List.range 4).map fun i => (i, [1]), pins := List.replicate 32 { state := .active } } }), by decide⟩,
   ⟨{ op := 1 }, up fun d => (fun d => { d with kw := { d.kw with cmd := { d.kw.cmd with job := some { op := 1 } } } }) { d with ns := { d.ns with rootWanted := true, rootBlocked := true } }, by decide⟩,
   ⟨up, by decide⟩,
   ⟨3, { loading with phase := .waitEntropy }, running { loading with phase := .waitEntropy } id fun d => { d with ns := { d.ns with state := .failed } }, by decide⟩⟩

/-- The premises of each clause of CalibrationCommands are met. -/
theorem test_witness_calibration_commands :
  (∃ s : State, (calIdle s) ∧ calKnown s.dev.ca.code s.dev.ca.inst = true) ∧
  (∃ s : State, (calIdle s) ∧ calKnown s.dev.ca.code s.dev.ca.inst = false) ∧
  (∃ s : State, (calIdle s) ∧ (s.dev.calCheck (calJob s 2) = none) ∧ s.dev.calMayWrite = true) ∧
  (∃ s : State, (calIdle s) ∧ (s.dev.calCheck (calJob s 3) = none) ∧ s.dev.calMayWrite = true) ∧
  (∃ s : State, (calIdle s) ∧ (s.dev.calCheck { op := 4 } = none) ∧ (s.dev.ca.overlay = [])) ∧
  (∃ k : Nat, ∃ r : CalRec, ∃ s : State, (calIdle s) ∧ (s.dev.calCheck { op := 4 } = none) ∧ (s.dev.ca.overlay = [(k, r)]) ∧ s.dev.calMayWrite = true) ∧
  (∃ s : State, (calIdle s) ∧ (s.dev.calCheck (calJob s 5) = none) ∧ s.dev.calMayWrite = true) ∧
  (∃ s : State, (calIdle s) ∧ (s.dev.calCheck (calJob s 2) = none) ∧ s.dev.calMayWrite = false) ∧
  (∃ op : Nat, ∃ c : Instr, ∃ st : Status, ∃ s : State, ((op, c) ∈ [(2, Instr.caSet false), (3, .caDrop false), (5, .caFactorySet false)]) ∧ (calIdle s) ∧ (s.dev.calCheck (calJob s op) = some st)) ∧
  (∃ c ∈ calRows, ∃ s : State, (hostOpen s) ∧ (s.dev.ca.jobs ≠ [])) :=
  ⟨⟨up (cal 1 0 [7, 0, 0, 0, 0, 0, 0, 0]), by decide⟩,
   ⟨up (cal 0x7F 0 [7, 0, 0, 0, 0, 0, 0, 0]), by decide⟩,
   ⟨up fun d => haspAt 2 (cal 0x08 0 [0x6E66, 0, 0, 0, 0, 0, 0, 0] d), by decide⟩,
   ⟨up fun d => haspAt 2 (cal 0x08 0 [0x6E66, 0, 0, 0, 0, 0, 0, 0] { d with ca := { d.ca with overlay := [(0x200, ⟨[1]⟩)] } }), by decide⟩,
   ⟨up fun d => haspAt 2 (cal 0x08 0 [] d), by decide⟩,
   ⟨0x200, ⟨[1]⟩, up fun d => haspAt 2 (cal 0x08 0 [] { d with ca := { d.ca with overlay := [(0x200, ⟨[1]⟩)] } }), by decide⟩,
   ⟨up (cal 0x08 0 [0x6E66, 0, 0, 0, 0, 0, 0, 0]), by decide⟩,
   ⟨up fun d => haspAt 2 (cal 0x08 0 [0x6E66, 0, 0, 0, 0, 0, 0, 0] { d with power := { d.power with applied := 3 } }), by decide⟩,
   ⟨2, .caSet false, St.rightMissing, up fun d => rights 0 (haspAt 2 (cal 0x08 0 [0x6E66, 0, 0, 0, 0, 0, 0, 0] d)), by decide⟩,
   ⟨.caRead, by decide, up fun d => { d with ca := { d.ca with jobs := [{ op := 4 }] } }, by decide⟩⟩

/-- The premises of each clause of MonitorReports are met. -/
theorem test_witness_monitor_reports :
  (∃ s : State, (monitorHeard s)) ∧
  (∃ s : State, (monitorHeard s)) ∧
  (∃ s : State, (monitorHeard s)) ∧
  (∃ s : State, (monitorHeard s)) ∧
  (∃ s : State, (monitorHeard s)) ∧
  (∃ s : State, (monitorHeard s)) ∧
  (∃ s : State, (monitorHeard s)) ∧
  (∃ code : Nat, ∃ inst : Nat, ∃ s : State, (monitorHeard s) ∧ calKnown code inst = true) ∧
  (∃ code : Nat, ∃ inst : Nat, ∃ s : State, (monitorHeard s) ∧ calKnown code inst = false) ∧
  (∃ s : State, (monitorHeard s)) ∧
  (∃ c ∈ monRows, ∃ s : State, s.dev.monitorOn = false) ∧
  (∃ c ∈ monRows, ∃ s : State, s.dev.scrapped = true ∧ (c ∉ [Instr.monVer, .monHasp, .monFaults])) ∧
  (∃ s : State, s.dev.monitorOn = true ∧ s.dev.jt.holds = false ∧ s.dev.scrapped = true) :=
  ⟨⟨up, by decide⟩,
   ⟨up, by decide⟩,
   ⟨up, by decide⟩,
   ⟨up, by decide⟩,
   ⟨up, by decide⟩,
   ⟨up, by decide⟩,
   ⟨up, by decide⟩,
   ⟨8, 0, up, by decide⟩,
   ⟨0x7F, 0, up, by decide⟩,
   ⟨up, by decide⟩,
   ⟨.monHelp, by decide, up fun d => { d with ca := { d.ca with monEn := false } }, by decide⟩,
   ⟨.monHelp, by decide, up (haspAt 8), by decide⟩,
   ⟨up (haspAt 8), by decide⟩⟩

/-- The premises of each clause of MonitorCommands are met. -/
theorem test_witness_monitor_commands :
  (∃ src : Nat, ∃ s : State, (monitorHeard s) ∧ s.dev.right 1 = true ∧ src < 1536) ∧
  (∃ c : Instr, ∃ s : State, (monitorHeard s) ∧ s.dev.right 1 = false ∧ ((∃ src, c = .monFaultsClear src) ∨ (∃ off v, c = .monPoke off v))) ∧
  (∃ c : Instr, ∃ s : State, (monitorHeard s) ∧ s.dev.right 0 = false ∧ ((∃ off, c = .monPeek off) ∨ (∃ off n, c = .monDump off n))) ∧
  (∃ s : State, (monitorHeard s) ∧ s.dev.right 0 = true ∧ (noShadow s (0x4000000 + 0x24))) ∧
  (∃ off : Nat, ∃ s : State, (monitorHeard s) ∧ s.dev.right 0 = true ∧ (off % 4 = 0) ∧ off < 0x4000000) ∧
  (∃ off : Nat, ∃ s : State, (monitorHeard s) ∧ s.dev.right 0 = true ∧ (off % 4 ≠ 0)) ∧
  (∃ s : State, (monitorHeard s) ∧ s.dev.right 0 = true ∧ (noShadow s (0x4000000 + 0x20)) ∧ (noShadow s (0x4000000 + 0x24))) ∧
  (∃ _off : Nat, ∃ n : Nat, ∃ s : State, (monitorHeard s) ∧ s.dev.right 0 = true ∧ (n = 0 ∨ 256 < n)) ∧
  (∃ _v : Word, ∃ s : State, (monitorHeard s) ∧ s.dev.right 1 = true) ∧
  (∃ _cert : Bytes, ∃ s : State, (monitorHeard s)) ∧
  (∃ c ∈ [Instr.monOpenTimeout, .monBadLine true, .monBadLine false], ∃ s : State, (monitorHeard s)) ∧
  (∃ s : State, (monitorHeard s)) ∧
  (∃ rate : Nat, ∃ s : State, (monitorHeard s) ∧ rate < 8) ∧
  (∃ s : State, s.dev.ca.baudTrial = true) ∧
  (∃ code : Nat, ∃ inst : Nat, ∃ v : Bytes, ∃ s : State, (monitorHeard s) ∧ (s.dev.ca.jobs = []) ∧ s.dev.calMayWrite = true ∧ code ≠ 0x08 ∧ (s.dev.calCheck { op := 2, code := code, inst := inst, value := fit 32 v } = none)) ∧
  (∃ code : Nat, ∃ inst : Nat, ∃ s : State, (monitorHeard s) ∧ (s.dev.ca.jobs = []) ∧ s.dev.calMayWrite = true ∧ (s.dev.calCheck { op := 3, code := code, inst := inst } = none)) ∧
  (∃ s : State, (monitorHeard s) ∧ (s.dev.ca.jobs = []) ∧ (s.dev.ca.overlay = []) ∧ (s.dev.calCheck { op := 4 } = none)) :=
  ⟨⟨7, up (rights 2), by decide⟩,
   ⟨.monPoke 0 5, up, by decide, by decide, .inr ⟨0, 5, rfl⟩⟩,
   ⟨.monDump 0 3, up, by decide, by decide, .inr ⟨0, 3, rfl⟩⟩,
   ⟨up (rights 1), by decide⟩,
   ⟨0x24, up (rights 1), by decide⟩,
   ⟨0x25, up (rights 1), by decide⟩,
   ⟨up (rights 1), by decide⟩,
   ⟨0, 257, up (rights 1), by decide⟩,
   ⟨5, up (rights 2), by decide⟩,
   ⟨[1, 2], up, by decide⟩,
   ⟨.monOpenTimeout, by decide, up, by decide⟩,
   ⟨up (rights 2), by decide⟩,
   ⟨3, up, by decide⟩,
   ⟨up fun d => { d with ca := { d.ca with baudTrial := true, baud := 3 } }, by decide⟩,
   ⟨0x0B, 0, [1], up fun d => haspAt 2 (cal 0 0 [] d), by decide⟩,
   ⟨0x08, 0, up fun d => haspAt 2 (cal 0 0 [] { d with ca := { d.ca with overlay := [(0x200, ⟨[1]⟩)] } }), by decide⟩,
   ⟨up fun d => haspAt 2 (cal 0 0 [] d), by decide⟩⟩

/-- The premises of each clause of TestAccessPort are met. -/
theorem test_witness_test_access_port :
  (∃ s : State, s.dev.tapOn = true) ∧
  (∃ s : State, s.dev.tapOn = true) ∧
  (∃ s : State, s.dev.tapOn = true) ∧
  (∃ s : State, s.dev.tapOn = true ∧ s.dev.shackled = false) ∧
  (∃ _p : Word, ∃ s : State, s.dev.tapOn = true ∧ s.dev.shackled = false) ∧
  (∃ c : Instr, ∃ ir : TapIr, ∃ s : State, ((c = .highz ∧ ir = .highz) ∨ (c = .clamp ∧ ir = .clamp)) ∧ s.dev.tapOn = true ∧ s.dev.shackled = false ∧ s.dev.right 2 = true) ∧
  (∃ c ∈ [Instr.highz, .clamp], ∃ s : State, s.dev.tapOn = true ∧ s.dev.shackled = false ∧ s.dev.right 2 = false) ∧
  (∃ _cert : Bytes, ∃ s : State, s.dev.tapOn = true ∧ s.dev.shackled = false) ∧
  (∃ s : State, s.dev.tapOn = true) ∧
  (∃ op : Byte, ∃ s : State, s.dev.tapOn = true ∧ s.dev.shackled = false ∧ 0x80 ≤ op.toNat ∧ op.toNat ≠ 0xFF ∧ s.dev.right 3 = true) ∧
  (∃ op : Byte, ∃ s : State, s.dev.tapOn = true ∧ s.dev.shackled = false ∧ 0x80 ≤ op.toNat ∧ op.toNat ≠ 0xFF ∧ s.dev.right 3 = false) ∧
  (∃ c ∈ [Instr.extest, .samplePreload 0, .highz, .clamp, .jtagOpen [], .jtagSecureInstruction 0x80], ∃ s : State, s.dev.tapOn = true ∧ s.dev.shackled = true) :=
  ⟨⟨up, by decide⟩,
   ⟨up, by decide⟩,
   ⟨up, by decide⟩,
   ⟨up, by decide⟩,
   ⟨0x55, up, by decide⟩,
   ⟨.highz, .highz, up (rights 4), by decide⟩,
   ⟨.highz, by decide, up, by decide⟩,
   ⟨[1, 2], up, by decide⟩,
   ⟨up, by decide⟩,
   ⟨0x81, up (rights 8), by decide⟩,
   ⟨0x81, up, by decide⟩,
   ⟨.extest, by decide, up fun d => { d with fc := { d.fc with shackled := true } }, by decide⟩⟩

/-- The premises of each clause of TamperSourcesCountAndRespond are met. -/
theorem test_witness_tamper_sources_count_and_respond :
  (∃ n : Nat, ∃ x : TSrc, ∃ s : State, s.dev.aon.dead = false ∧ 8 ≤ n ∧ n < 32 ∧ (s.dev.tp.srcs[n]? = some x) ∧ s.dev.tp.counts n = true ∧ x.openW = true ∧ x.age s.dev.aon.rtc < x.ticks ∧ (x.count + 1 < x.need)) ∧
  (∃ n : Nat, ∃ x : TSrc, ∃ s : State, s.dev.aon.dead = false ∧ 8 ≤ n ∧ n < 32 ∧ (s.dev.tp.srcs[n]? = some x) ∧ s.dev.tp.counts n = true ∧ (x.openW = false ∨ x.ticks ≤ x.age s.dev.aon.rtc) ∧ 1 < x.need) ∧
  (∃ n : Nat, ∃ x : TSrc, ∃ s : State, s.dev.aon.dead = false ∧ s.dev.aon.onBackup = false ∧ s.dev.power.off = false ∧ n < 32 ∧ (s.dev.tp.srcs[n]? = some x) ∧ s.dev.tp.counts n = true ∧ x.need ≤ 1 ∧ s.dev.tp.level n ≤ 1) ∧
  (∃ n : Nat, ∃ x : TSrc, ∃ s : State, s.dev.aon.dead = false ∧ s.dev.aon.onBackup = false ∧ s.dev.power.off = false ∧ n < 32 ∧ (s.dev.tp.srcs[n]? = some x) ∧ s.dev.tp.counts n = true ∧ x.need ≤ 1 ∧ s.dev.tp.level n = 2 ∧ (s.dev.aon.share ≠ [])) ∧
  (∃ n : Nat, ∃ x : TSrc, ∃ s : State, s.dev.aon.dead = false ∧ s.dev.aon.onBackup = false ∧ s.dev.power.off = false ∧ n < 32 ∧ (s.dev.tp.srcs[n]? = some x) ∧ s.dev.tp.counts n = true ∧ x.need ≤ 1 ∧ s.dev.tp.level n = 3 ∧ s.dev.shackled = false) ∧
  (∃ n : Nat, ∃ x : TSrc, ∃ s : State, s.dev.aon.dead = false ∧ s.dev.aon.onBackup = true ∧ n < 32 ∧ (s.dev.tp.srcs[n]? = some x) ∧ s.dev.tp.counts n = true ∧ x.need ≤ 1) ∧
  (∃ n : Nat, ∃ x : TSrc, ∃ s : State, n < 32 ∧ (s.dev.tp.srcs[n]? = some x) ∧ x.openW = true ∧ x.ticks ≤ x.age s.dev.aon.rtc) ∧
  (∃ n : Nat, ∃ x : TSrc, ∃ _v : Word, ∃ s : State, (hostOpen s) ∧ n < 32 ∧ (s.dev.tp.srcs[n]? = some x) ∧ s.dev.tp.lock = false) ∧
  (∃ n : Nat, ∃ v : Word, ∃ s : State, (hostOpen s) ∧ n < 32 ∧ s.dev.tp.lock = true ∧ (tpCfgBits v.toNat ≠ (nth s.dev.tp.srcs n {}).cfg)) ∧
  (∃ n : Nat, ∃ s : State, n < 32 ∧ ((nth s.dev.tp.srcs n {}).settling = true)) ∧
  (∃ v : Word, ∃ s : State, (hostOpen s) ∧ s.dev.lr.lock = false ∧ (field v.toNat 0 4 ^^^ s.dev.aon.pol ≠ 0)) ∧
  (∃ v : Word, ∃ s : State, (hostOpen s) ∧ s.dev.lr.lock = true ∧ (field v.toNat 0 4 ^^^ s.dev.aon.pol ≠ 0)) ∧
  (∃ lines : BitVec 4, ∃ s : State, s.dev.tp.polMask ≠ 0 ∧ ((∀ k, k < 4 → bitOf s.dev.tp.polMask k = true → bitOf lines.toNat k = bitOf s.dev.aon.pol k))) ∧
  (∃ k : Nat, ∃ lines : BitVec 4, ∃ s : State, s.dev.aon.dead = false ∧ k < 4 ∧ ((∀ j, j < 4 → ((bitOf s.dev.tp.polMask j = true ∧ bitOf lines.toNat j ≠ bitOf s.dev.aon.pol j) ↔ j = k)))) :=
  ⟨⟨20, { cfg := srcCfgWord true 0 4 2, openW := true, count := 1 }, up fun d => source 20 ({ cfg := srcCfgWord true 0 4 2, openW := true, count := 1 }) (id d), by decide⟩,
   ⟨20, { cfg := srcCfgWord true 0 4 2 }, up fun d => source 20 ({ cfg := srcCfgWord true 0 4 2 }) (id d), by decide⟩,
   ⟨20, { cfg := srcCfgWord true 1 1 2 }, up fun d => source 20 ({ cfg := srcCfgWord true 1 1 2 }) (id d), by decide⟩,
   ⟨20, { cfg := srcCfgWord true 2 1 2 }, up fun d => source 20 ({ cfg := srcCfgWord true 2 1 2 }) ((fun d => { d with aon := { d.aon with share := [1, 2] } }) d), by decide⟩,
   ⟨20, { cfg := srcCfgWord true 3 1 2 }, up fun d => source 20 ({ cfg := srcCfgWord true 3 1 2 }) (id d), by decide⟩,
   ⟨20, { cfg := srcCfgWord true 3 1 2 }, up fun d => source 20 ({ cfg := srcCfgWord true 3 1 2 }) ((fun d => { d with aon := { d.aon with onBackup := true } }) d), by decide⟩,
   ⟨20, { cfg := srcCfgWord true 3 3 2, openW := true }, up fun d => source 20 ({ cfg := srcCfgWord true 3 3 2, openW := true }) ((fun d => { d with aon := { d.aon with rtc := 900 } }) d), by decide⟩,
   ⟨20, { cfg := srcCfgWord true 3 3 2 }, 0x80050003, up fun d => source 20 ({ cfg := srcCfgWord true 3 3 2 }) (id d), by decide⟩,
   ⟨20, 0x80050003, up fun d => { d with tp := { d.tp with lock := true } }, by decide⟩,
   ⟨20, up fun d => source 20 { settling := true } d, by decide⟩,
   ⟨3, up, by decide⟩,
   ⟨3, up fun d => { d with lr := { d.lr with lock := true } }, by decide⟩,
   ⟨3, up fun d => { d with tp := { d.tp with polMask := 3 }, aon := { d.aon with pol := 3 } }, by decide, by decide⟩,
   ⟨1, 1, up fun d => { d with tp := { d.tp with polMask := 3 }, aon := { d.aon with pol := 3 } }, by decide⟩⟩

/-- The premises of each clause of CollectorReacts are met. -/
theorem test_witness_collector_reacts :
  (∃ n : Nat, ∃ s : State, (raisedAlone s n) ∧ s.dev.fc.effective n = 0) ∧
  (∃ n : Nat, ∃ s : State, (raisedAlone s n) ∧ (¬ reacts s n 0x3C) ∧ s.dev.fc.sticky.getLsbD n = false) ∧
  (∃ n : Nat, ∃ s : State, (raisedAlone s n) ∧ (¬ reacts s n 0x3C) ∧ s.dev.fc.sticky.getLsbD n = true) ∧
  (∃ n : Nat, ∃ s : State, (raisedAlone s n) ∧ (¬ reacts s n 0x2C) ∧ (reacts s n 0x10)) ∧
  (∃ n : Nat, ∃ s : State, (raisedAlone s n) ∧ (¬ reacts s n 0x28) ∧ (reacts s n 4)) ∧
  (∃ n : Nat, ∃ s : State, (raisedAlone s n) ∧ (¬ reacts s n 0x20) ∧ (reacts s n 8)) ∧
  (∃ n : Nat, ∃ s : State, (raisedAlone s n) ∧ (reacts s n 0x20) ∧ s.dev.fc.shackled = false) ∧
  (∃ raises : List Raise, ∃ r : Raise, ∃ s : State, s.dev.collects = true ∧ ((∀ x ∈ raises, assigned x.source = true)) ∧ (r ∈ raises)) ∧
  (∃ s : State, (s.dev.fc.traps ≠ []) ∧ s.dev.coreRuns = true) ∧
  (∃ s : State, s.dev.serves 0 = true ∧ s.dev.shackled = false ∧ s.dev.mc.romOnly = false ∧ s.dev.fc.aliveStopped = true ∧ s.dev.fc.pinStuck = false) ∧
  (∃ s : State, s.dev.serves 0 = true ∧ s.dev.shackled = false ∧ s.dev.mc.romOnly = false ∧ s.dev.fc.pinStuck = true) ∧
  (∃ bad : List Nat, ∃ s : State, s.dev.power.hkPll = true ∧ (bad ≠ [])) ∧
  (∃ s : State, s.dev.power.hkPll = true) :=
  ⟨⟨1425, up fun d => { d with fc := { d.fc with cfg := [(1425, 0)] } }, by decide +kernel⟩,
   ⟨1425, up fun d => { d with fc := { d.fc with cfg := [(1425, 1)] } }, by decide +kernel⟩,
   ⟨1425, up fun d => { d with fc := { d.fc with cfg := [(1425, 1)], sticky := BitVec.ofNat 1536 (2 ^ 1425) } }, by decide +kernel⟩,
   ⟨1425, up fun d => { d with fc := { d.fc with cfg := [(1425, 0x10)] } }, by decide +kernel⟩,
   ⟨1425, up fun d => { d with fc := { d.fc with cfg := [(1425, 4)] } }, by decide +kernel⟩,
   ⟨1425, up fun d => { d with fc := { d.fc with cfg := [(1425, 8)] } }, by decide +kernel⟩,
   ⟨1520, up, by decide +kernel⟩,
   ⟨[{ source := 1425 }], { source := 1425 }, up, by decide +kernel⟩,
   ⟨up fun d => { d with fc := { d.fc with traps := [1425] } }, by decide +kernel⟩,
   ⟨up fun d => { d with fc := { d.fc with aliveStopped := true } }, by decide +kernel⟩,
   ⟨up fun d => { d with fc := { d.fc with sticky := BitVec.ofNat 1536 (2 ^ 1425), cfg := [(1425, 0x10)], aliveStopped := true } }, by decide +kernel⟩,
   ⟨[4, 7], up, by decide +kernel⟩,
   ⟨up, by decide +kernel⟩⟩

/-- The premises of each clause of CommitsAndEvidenceAreWritten are met. -/
theorem test_witness_commits_and_evidence_are_written :
  (∃ c : Commit, ∃ rest : List Commit, ∃ s : State, s.dev.mayCommit = true ∧ (s.dev.nv.queue = c :: rest) ∧ s.dev.lowers c.val = false) ∧
  (∃ v : CommitVal, ∃ rest : List Commit, ∃ s : State, s.dev.mayCommit = true ∧ (s.dev.nv.queue = { val := v } :: rest) ∧ s.dev.lowers v = true) ∧
  (∃ c : Commit, ∃ rest : List Commit, ∃ s : State, s.dev.mayCommit = true ∧ (s.dev.nv.queue = c :: rest) ∧ s.dev.lowers c.val = false ∧ s.dev.nv.relocs < 16384) ∧
  (∃ l : Nat, ∃ n : Nat, ∃ c : KwPending, ∃ x : Turn, ∃ s : State, (s.dev.nv.current = some { val := .cut l n, why := .keyway l }) ∧ ((s.dev.leaf l).change = some c) ∧ c.change ≠ none ∧ (Map.get? s.dev.turns c.slot = some x) ∧ x.leaf = l ∧ x.phase = .waitCommit) ∧
  (∃ l : Nat, ∃ g : Nat, ∃ c : Nat, ∃ j : Job, ∃ s : State, (s.dev.nv.current = some { val := .leafGen l g true c, why := .job .hinge }) ∧ s.dev.hg.cmd.job = some j ∧ j.op = 1 ∧ j.leaf = l) ∧
  (∃ v : CommitVal, ∃ s : State, (s.dev.nv.current = some { val := v })) ∧
  (∃ e : Evidence, ∃ rest : List Evidence, ∃ s : State, (s.dev.nv.evq = e :: rest) ∧ s.dev.nv.inhibit = false ∧ s.dev.nv.current = none ∧ s.dev.nv.ready = true ∧ s.dev.pinnedType e = true ∧ s.dev.nv.evPinned < 4096) ∧
  (∃ e : Evidence, ∃ rest : List Evidence, ∃ s : State, (s.dev.nv.evq = e :: rest) ∧ s.dev.nv.inhibit = false ∧ s.dev.nv.current = none ∧ s.dev.nv.ready = true ∧ s.dev.pinnedType e = false ∧ s.dev.nv.evHead < 12287) ∧
  (∃ e : Evidence, ∃ rest : List Evidence, ∃ s : State, (s.dev.nv.evq = e :: rest) ∧ s.dev.nv.inhibit = false ∧ s.dev.nv.current = none ∧ s.dev.nv.ready = true ∧ s.dev.pinnedType e = true ∧ 4096 ≤ s.dev.nv.evPinned ∧ s.dev.nv.evHead = 12287) :=
  ⟨⟨{ val := .cut 5 9, why := .keyway 5 }, [], withLeaf .active id (commits [{ val := .cut 5 9, why := .keyway 5 }]), by decide⟩,
   ⟨.epoch 2, [], up fun d => commits [{ val := .epoch 2 }] none { d with kw := { d.kw with epoch := 4 } }, by decide⟩,
   ⟨{ val := .cut 5 9, why := .none }, [], withLeaf .active id (commits [{ val := .cut 5 9, why := .none }]), by decide⟩,
   ⟨5, 9, { change := some .clear, value := 9, slot := 3 }, { loading with phase := .waitCommit }, running { loading with phase := .waitCommit } (fun l => { l with change := some { change := some .clear, value := 9, slot := 3 } }) (commits [] (some { val := .cut 5 9, why := .keyway 5 })), by decide⟩,
   ⟨5, 2, 3, { op := 1, leaf := 5, phase := .committing }, withLeaf .free id fun d => commits [] (some { val := .leafGen 5 2 true 3, why := .job .hinge }) { d with hg := { d.hg with cmd := { d.hg.cmd with job := some { op := 1, leaf := 5, phase := .committing } } } }, by decide⟩,
   ⟨.bootCount 7, up (commits [] (some { val := .bootCount 7 })), by decide⟩,
   ⟨{ kind := 1 }, [], up (records [{ kind := 1 }]), by decide⟩,
   ⟨{ kind := 7 }, [], up (records [{ kind := 7 }]), by decide⟩,
   ⟨{ kind := 1 }, [], up fun d => { records [{ kind := 1 }] d with nv := { (records [{ kind := 1 }] d).nv with evPinned := 4096, evHead := 12287 } }, by decide⟩⟩

/-- The premises of each clause of EvidenceIndexLoadsItsRecord are met. -/
theorem test_witness_evidence_index_loads_its_record :
  (∃ v : Word, ∃ e : Evidence, ∃ s : State, (hostOpen s) ∧ (Map.get? s.dev.nv.evl (v.toNat % 2 ^ 14) = some e)) :=
  ⟨0x1005, { kind := 7, beat := 99 }, up fun d => { d with nv := { d.nv with evl := [(0x1005, { kind := 7, beat := 99 })] } }, by decide⟩

/-- The premises of each clause of UserFlashAndScrub are met. -/
theorem test_witness_user_flash_and_scrub :
  (∃ s : State, (hostOpen s)) ∧
  (∃ s : State, (hostOpen s)) ∧
  (∃ s : State, (Inv s) ∧ (hostOpen s) ∧ s.dev.nv.ufBusy ≠ 2 ∧ s.dev.nv.inhibit = false) ∧
  (∃ s : State, (hostOpen s) ∧ s.dev.nv.ufBusy ≠ 2 ∧ s.dev.nv.inhibit = true) ∧
  (∃ s : State, s.dev.nv.ufBusy = 2 ∧ s.dev.nv.inhibit = false ∧ s.dev.shackled = false) ∧
  (∃ _line : Nat, ∃ _f : Bool, ∃ s : State, s.dev.nv.scrubActive = true ∧ s.dev.nv.inhibit = false ∧ s.dev.power.applied < 3 ∧ s.dev.nv.scrubLine < 65535) ∧
  (∃ _line : Nat, ∃ _f : Bool, ∃ s : State, s.dev.nv.scrubActive = true ∧ s.dev.nv.inhibit = false ∧ s.dev.power.applied < 3 ∧ 65535 ≤ s.dev.nv.scrubLine) ∧
  (∃ _line : Nat, ∃ s : State, s.dev.nv.scrubActive = true ∧ s.dev.nv.inhibit = false ∧ s.dev.power.applied < 3 ∧ s.dev.nv.scrubLine < 65535) ∧
  (∃ line : Nat, ∃ _f : Bool, ∃ s : State, s.dev.nv.scrubActive = true ∧ s.dev.nv.inhibit = false ∧ s.dev.power.applied < 3 ∧ s.dev.nv.scrubLine < 65535 ∧ ownLine line = false) ∧
  (∃ _line : Nat, ∃ _f : Bool, ∃ s : State, s.dev.nv.scrubActive = true ∧ s.dev.nv.inhibit = false ∧ s.dev.power.applied < 3 ∧ s.dev.nv.scrubLine < 65535 ∧ s.dev.nv.relocs < 16384) ∧
  (∃ _r : EccResult, ∃ _line : Nat, ∃ _f : Bool, ∃ s : State, 3 ≤ s.dev.power.applied) ∧
  (∃ _line : Nat, ∃ c : Cal, ((∀ n, Map.get? c.lines n = none))) :=
  ⟨⟨up, by decide⟩,
   ⟨up, by decide⟩,
   ⟨up, by decide⟩,
   ⟨up fun d => { d with nv := { d.nv with inhibit := true } }, by decide⟩,
   ⟨up fun d => { d with nv := { d.nv with ufBusy := 2, ufLine := 3, ufBuf := List.replicate 16 0x01020304 } }, by decide⟩,
   ⟨7, false, up fun d => { d with nv := { d.nv with ready := true, scrubActive := true, scrubLine := 7 } }, by decide⟩,
   ⟨7, false, up fun d => { d with nv := { d.nv with ready := true, scrubActive := true, scrubLine := 65535 } }, by decide⟩,
   ⟨7, up fun d => { d with nv := { d.nv with ready := true, scrubActive := true, scrubLine := 7 } }, by decide⟩,
   ⟨7, false, up fun d => { d with nv := { d.nv with ready := true, scrubActive := true, scrubLine := 7 } }, by decide⟩,
   ⟨7, false, up fun d => { d with nv := { d.nv with ready := true, scrubActive := true, scrubLine := 7 } }, by decide⟩,
   ⟨.outerCorrected, 7, false, up fun d => { d with power := { d.power with applied := 3 } }, by decide⟩,
   ⟨0x400, { overlay := [(0x200, ⟨[9]⟩)] }, (fun _ => rfl)⟩⟩

/-- The premises of each clause of AlarmFramesAreRecordedOnly are met. -/
theorem test_witness_alarm_frames_are_recorded_only :
  (∃ f : RxFrame, ∃ s : State, (frameGoesOn s f.bytes) ∧ u8 f.bytes 0 = 1 ∧ u8 f.bytes 1 = 0xFF) :=
  ⟨(frame (ringFrame 1 0xFF 0x22 5 [2, 3, 4])), ringUp, by decide +kernel⟩

/-- The premises of each clause of RingForwardsAnswersAndSends are met. -/
theorem test_witness_ring_forwards_answers_and_sends :
  (∃ f : RxFrame, ∃ s : State, s.dev.onRing = true ∧ frameGood f.bytes = false) ∧
  (∃ f : RxFrame, ∃ s : State, s.dev.onRing = true ∧ frameGood f.bytes = true ∧ (u8 f.bytes 2 = s.dev.lr.node ∨ u8 f.bytes 3 = 1)) ∧
  (∃ f : RxFrame, ∃ s : State, (frameGoesOn s f.bytes) ∧ u8 f.bytes 1 ≠ 0xFF ∧ (¬ (u8 f.bytes 0 = 2 ∧ u8 f.bytes 1 = s.dev.lr.node)) ∧ s.dev.lr.sending = false ∧ s.dev.jt.holds = false) ∧
  (∃ f : RxFrame, ∃ s : State, (frameGoesOn s f.bytes) ∧ u8 f.bytes 1 ≠ 0xFF ∧ (¬ (u8 f.bytes 0 = 2 ∧ u8 f.bytes 1 = s.dev.lr.node)) ∧ s.dev.lr.sending = true ∧ s.dev.lr.fwd = none) ∧
  (∃ f : RxFrame, ∃ b : Bytes, ∃ s : State, (frameGoesOn s f.bytes) ∧ u8 f.bytes 1 ≠ 0xFF ∧ (¬ (u8 f.bytes 0 = 2 ∧ u8 f.bytes 1 = s.dev.lr.node)) ∧ s.dev.lr.sending = true ∧ s.dev.lr.fwd = some b) ∧
  (∃ f : RxFrame, ∃ s : State, (frameGoesOn s f.bytes) ∧ u8 f.bytes 0 = 2 ∧ u8 f.bytes 1 = s.dev.lr.node ∧ u8 f.bytes 4 = 2 ∧ s.dev.lr.mgmtEn = true) ∧
  (∃ b : Bytes, ∃ rest : List Bytes, ∃ s : State, s.dev.onRing = true ∧ (s.dev.lr.own = b :: rest) ∧ s.dev.lr.fwd = none ∧ s.dev.lr.sending = false ∧ s.dev.jt.holds = false) ∧
  (∃ s : State, s.dev.lr.alarmActive = true ∧ s.dev.lr.tokenEn = true ∧ s.dev.fc.aliveStopped = true ∧ s.dev.power.hkPll = true) ∧
  (∃ s : State, s.dev.lr.passOpen = false ∧ s.dev.power.io = true ∧ s.dev.power.boot ≠ 0 ∧ s.dev.power.hkPll = true) :=
  ⟨⟨frame [1, 2, 3], ringUp, by decide +kernel⟩,
   ⟨(frame (ringFrame 7 0x33 0x10 5 [2, 3, 4])), ringUp, by decide +kernel⟩,
   ⟨(frame (ringFrame 7 0x33 0x22 5 [2, 3, 4])), ringUp, by decide +kernel⟩,
   ⟨(frame (ringFrame 7 0x33 0x22 5 [2, 3, 4])), ringUp fun r => { r with sending := true }, by decide +kernel⟩,
   ⟨(frame (ringFrame 7 0x33 0x22 5 [2, 3, 4])), [1, 2], ringUp fun r => { r with sending := true, fwd := some [1, 2] }, by decide +kernel⟩,
   ⟨(frame (ringFrame 2 0x10 0x22 5 [0, 2])), ringUp, by decide +kernel⟩,
   ⟨[1, 2], [[3]], ringUp fun r => { r with own := [[1, 2], [3]] }, by decide +kernel⟩,
   ⟨ringUp (fun r => { r with alarmActive := true }) fun d => { d with fc := { d.fc with aliveStopped := true } }, by decide⟩,
   ⟨up, by decide⟩⟩

/-- A turn of leaf 5 whose cell 1 holds `b`. -/
def holding (b : Bytes) : Turn := { turn (zi .keywWrap 0 1 2 255 0) [(1, { size := 64, data := b }), (2, blank 64)] with modulus := some (1, 97), home := some 0 }

/-- A leaf 5 with a keyway of 32 bytes. -/
def keyed : Device := (up.dev).setLeaf 5 { state := .active, kw := { key := List.replicate 32 7, loaded := true, gen := 4 } }

theorem test_witness_outcomes_of_engine_words_1 : ∃ (d e : Device) (t u : Turn) (z w : ZInstr) (rnd : Bytes), z.kind = .keywWrap ∧ w.kind = .keywUnwrap ∧
    u.leaf = t.leaf ∧ e.leaf t.leaf = d.leaf t.leaf ∧ 32 ≤ (d.leaf t.leaf).kw.key.length ∧ rnd.length = 12 ∧ (t.bytes z.a).length < 65536 ∧
    (d.dataResult t z rnd).outs = [(z.dst, u.bytes w.a, false)] :=
  ⟨keyed, keyed, holding [1, 2, 3],
    holding (((keyed.dataResult (holding [1, 2, 3]) (zi .keywWrap 0 2 1 255 0) (zeros 12)).outs.headD (0, [], false)).2.1),
    zi .keywWrap 0 2 1 255 0, zi .keywUnwrap 0 2 1 255 0, zeros 12, rfl, rfl, rfl, rfl, by decide, by decide, by decide, rfl⟩

theorem test_witness_outcomes_of_engine_words_2 : ∃ (d e : Device) (t u : Turn) (z w : ZInstr) (rnd : Bytes), z.kind = .ctxSaveWrapped ∧
    w.kind = .ctxRestoreWrapped ∧ u.leaf = t.leaf ∧ e.leaf t.leaf = d.leaf t.leaf ∧ e.gen t.leaf = d.gen t.leaf ∧
    32 ≤ (d.leaf t.leaf).kw.key.length ∧ rnd.length = 12 ∧ (t.bytes z.a).length < 65536 ∧
    (d.dataResult t z rnd).outs = [(z.dst, u.bytes w.a, false)] :=
  ⟨keyed, keyed, holding [1, 2, 3],
    holding (((keyed.dataResult (holding [1, 2, 3]) (zi .ctxSaveWrapped 0 2 1 255 0) (zeros 12)).outs.headD (0, [], false)).2.1),
    zi .ctxSaveWrapped 0 2 1 255 0, zi .ctxRestoreWrapped 0 2 1 255 0xFF0000, zeros 12, rfl, rfl, rfl, rfl, rfl, by decide, by decide, by decide,
    rfl⟩

theorem test_witness_outcomes_of_engine_words_3 : ∃ (alg : Nat) (chain x : Bytes), alg < 10 ∧ chain.length = 200 ∧ x.length % algBlock alg = 0 ∧
    x ≠ [] :=
  ⟨7, zeros 200, zeros 72, by decide, rfl, by decide +kernel, by decide⟩

theorem test_witness_outcomes_of_engine_words_4 : ∃ (t : Turn) (z : ZInstr) (m : Nat), t.modulus.map Prod.snd = some m ∧ beNat (t.bytes z.a) < m ∧
    beNat (t.bytes z.b) < m ∧ m ≤ 2 ^ (8 * classBytes z.cls) ∧ z.kind = .bnSub :=
  ⟨{ holding [5] with cells := [(1, { size := 64, data := [5] }), (2, { size := 64, data := [96] })] }, zi .bnSub 1 3 1 2 0, 97, by decide,
    by decide, by decide, by decide, rfl⟩

theorem test_witness_outcomes_of_engine_words_5 : ∃ (bolt : Nat) (t : Turn) (z : ZInstr) (rnd : Bytes) (m : Nat), t.modulus.map Prod.snd = some m ∧
    m ≤ 2 ^ (8 * classBytes z.cls) ∧ z.kind = .bnInv ∧ (boltResult bolt t z rnd).status = St.done :=
  ⟨0, holding [5], zi .bnInv 1 3 1 255 0, [], 97, by decide, by decide, rfl, by decide +kernel⟩

end Sys2Proof.Tests
end

section
/-! SUPPORT. Releases and clocks (R11, R167, R340, R409, R423, R443) and the release of a block from its BLOCK reset (R354, R397): what each
operation under these events sets, and the parts of the device that it may change. -/

namespace Sys2Proof.Safety

open Sys2Proof.Machine

/-! ### Answers and frames -/

/-- A meaning that may occur and leaves the permanent memories alone answers its device, in the frame of that device. -/
theorem run_of_changesOnly {s : State} {c : Bool} {d : Device} {ps : List Part} (hc : c = true) (hp : Part.perm ∉ ps)
    (h : changesOnly ps s.dev d) : run s c d = .next { s with dev := d } ∧ keepsRest ps s { s with dev := d } := by
  have e : d.perm = s.dev.perm := h .perm hp
  subst hc
  exact ⟨by rw [run_true, ← e], rfl, h⟩

theorem link_of_changesOnly {ps : List Part} {d e : Device} (h : changesOnly ps d e) (h0 : Part.link0 ∉ ps) (h1 : Part.link1 ∉ ps) (m : Nat) :
    e.link m = d.link m := by
  unfold Device.link; split
  · exact h .link0 h0
  · exact h .link1 h1

theorem tu_length_of_changesOnly {ps : List Part} {d e : Device} (h : changesOnly ps d e) (hp : Part.tu ∉ ps) :
    e.tu.length = d.tu.length := by simpa using congrArg List.length (h .tu hp)

theorem bo_length_of_changesOnly {ps : List Part} {d e : Device} (h : changesOnly ps d e) (hp : Part.bo ∉ ps) :
    e.bo.length = d.bo.length := by simpa using congrArg List.length (h .bo hp)

/-- A change of the barrel bank that leaves what waits to be zeroised as it was. -/
theorem changesOnly_bb_clean (d : Device) (x) (h : x.dirty = d.bb.dirty) : changesOnly [.bb] d { d with bb := x } := by
  intro p hp
  cases p with
  | bb => exact absurd (by simp) hp
  | dirty => simp only [Part.same, h]
  | _ => rfl

theorem perm_ne_linkPart (m : Nat) : Part.perm ≠ linkPart m := by unfold linkPart; split <;> decide

/-! ### Reset release and PLL locks (R11, R340, R409, R443) -/

theorem changesOnly_leaveReset (d : Device) : changesOnly [.power] d d.leaveReset :=
  changesOnly.ite _ (changesOnly_power _ _) (changesOnly.refl _ _)

@[simp] theorem leaveReset_rstN (d : Device) : d.leaveReset.power.rstN = d.power.rstN := by unfold Device.leaveReset; split <;> rfl

theorem leaveReset_boot (d : Device) :
    d.leaveReset.power.boot = if d.power.boot = 0 ∧ d.power.released then 1 else d.power.boot := by unfold Device.leaveReset; split <;> rfl

/-- With RST_N high, the device leaves reset by its rails and its stages alone (R409). -/
theorem released_of_rstN {p : Power} (h : p.rstN = true) :
    p.released = true ↔ p.railsGood = true ∧ p.thermal ≠ 4 ∧ p.sensed ≠ 4 := by
  simp [Power.released, h, and_assoc]

theorem changesOnly_armMain (d : Device) : changesOnly [.tp] d d.armMain := changesOnly.ite _ (changesOnly_tp _ _) (changesOnly.refl _ _)

@[simp] theorem armMain_power (d : Device) : d.armMain.power = d.power := changesOnly_armMain d .power (by decide)

/-- A rail or clock source is armed by `arm`; a source that does not exist counts as armed. -/
theorem arm_armed (t : Tamper) {n : Nat} (h8 : 8 ≤ n) (h18 : n < 18) : (nth (t.arm true).srcs n {}).armed = true := by
  cases h : t.srcs[n]? <;> simp [nth, Tamper.arm, h, h8, h18]

theorem nth_armed_of_all {l : List TSrc} (h : ∀ x ∈ l, x.armed = true) (n : Nat) : (nth l n {}).armed = true := by
  cases e : l[n]? with
  | none => simp [nth, e]
  | some x => simpa [nth, e] using h x (List.mem_of_getElem? e)

/-- With good rails and the engine PLL locked, every rail and clock sensor is armed (R340). -/
theorem armMain_armed (d : Device) (hr : d.power.railsGood = true) (he : d.power.engPll = true) {n : Nat} (h8 : 8 ≤ n) (h18 : n < 18) :
    (nth d.armMain.tp.srcs n {}).armed = true := by
  unfold Device.armMain
  split
  · exact arm_armed _ h8 h18
  · rename_i h
    exact nth_armed_of_all (by simpa [hr, he] using h) n

/-! ### Loss of lock (R43, R423) -/

@[simp] theorem powerEvt_power (d : Device) (bits : Nat) : (d.powerEvt bits).power = { d.power with evt := d.power.evt ||| bits } :=
  changesOnly_when (changesOnly_hingeMsi _ _) .power (by decide)

@[simp] theorem powerEvt_fc (d : Device) (bits : Nat) : (d.powerEvt bits).fc = d.fc := changesOnly_powerEvt d bits .fc (by decide)

@[simp] theorem powerEvt_link (d : Device) (bits m : Nat) : (d.powerEvt bits).link m = d.link m :=
  link_of_changesOnly (changesOnly_powerEvt d bits) (by decide) (by decide) m

@[simp] theorem raiseSrc_link (d : Device) (n m : Nat) : (d.raiseSrc n).link m = d.link m := rfl

/-- A source raised together with an event of the power block. -/
theorem changesOnly_raiseSrc_powerEvt (d : Device) (n bits : Nat) :
    changesOnly [.power, .fc, .ul, .out] d ((d.raiseSrc n).powerEvt bits) :=
  (changesOnly.then (changesOnly_raiseSrc d n) (changesOnly_powerEvt _ bits)).mono (by decide)

/-- The loss of a clock PLL (R423) after a change of the power block. -/
theorem changesOnly_power_raiseSrc_powerEvt (d : Device) (x : Power) (n bits : Nat) :
    changesOnly [.power, .fc, .ul, .out] d ((({ d with power := x } : Device).raiseSrc n).powerEvt bits) :=
  ((changesOnly_power d x).mono (by decide)).trans (changesOnly_raiseSrc_powerEvt _ n bits)

theorem changesOnly_retrain (d : Device) (m : Nat) : changesOnly [linkPart m, .fc] d (d.retrain m) :=
  changesOnly.then (changesOnly_onLink d m _) (changesOnly_raiseSrc _ _)

@[simp] theorem retrain_power (d : Device) (m : Nat) : (d.retrain m).power = d.power := (Device.onLink_frame d m _).2.1

@[simp] theorem retrain_state (d : Device) (m : Nat) : ((d.retrain m).link m).state = .retrain :=
  congrArg Link.state (Device.link_onLink d m _)

/-- A UCIe PLL that loses lock retrains its own module, and no other part of the device but what R423 names changes. -/
theorem changesOnly_pllLost_ucie (d : Device) (m : Nat) : changesOnly [linkPart m, .power, .fc, .ul, .out] d (d.pllLost (.ucie m)) := by
  have hr : changesOnly [linkPart m, .power, .fc, .ul, .out] d (if d.linkUp m then d.retrain m else d) :=
    changesOnly.ite _ ((changesOnly_retrain d m).mono (by simp)) (changesOnly.refl _ _)
  exact hr.trans ((changesOnly_raiseSrc_powerEvt _ _ _).mono (by simp))

/-! ### Engines and their retirement (R397) -/

@[simp] theorem tumbler_onTu {d : Device} {n : Nat} (h : n < d.tu.length) (f : Engine → Engine) : (d.onTu n f).tumbler n = f (d.tumbler n) := by
  simp [Device.tumbler, Device.onTu, nth, modifyAt, h]

@[simp] theorem bolt_onBo {d : Device} {n : Nat} (h : n < d.bo.length) (f : Engine → Engine) : (d.onBo n f).bolt n = f (d.bolt n) := by
  simp [Device.bolt, Device.onBo, nth, modifyAt, h]

theorem changesOnly_failWork (d : Device) (p : Job → Bool) : changesOnly [.hg, .kw, .hs, .mi] d (d.failWork p) :=
  changesOnly_foldl (fun e j => (changesOnly_onJob e j _).mono (by cases j <;> decide)) _ _

theorem changesOnly_abortOn (d : Device) (e : EngineId) : changesOnly [.turns, .hg, .kw, .hs, .mi] d (d.abortOn e) :=
  changesOnly.then (changesOnly_turns d _) (changesOnly_failWork _ _)

/-- Retiring any engine raises source 1472 (R397). -/
theorem retire_incoming (d : Device) (cls n : Nat) : { source := 1472 } ∈ (d.retire cls n).fc.incoming := by
  unfold Device.retire; split <;> simp

theorem changesOnly_retire_tumbler (d : Device) (n : Nat) :
    changesOnly [.turns, .hg, .kw, .hs, .mi, .tu, .dirty, .fc] d (d.retire 0 n) :=
  changesOnly.then (changesOnly.then (changesOnly_abortOn d _) (changesOnly_onTu _ _ _)) (changesOnly_raiseSrc _ _)

theorem changesOnly_retire_bolt (d : Device) (n : Nat) :
    changesOnly [.turns, .hg, .kw, .hs, .mi, .bo, .dirty, .fc] d (d.retire 1 n) :=
  changesOnly.then (changesOnly.then (changesOnly_abortOn d _) (changesOnly_onBo _ _ _)) (changesOnly_raiseSrc _ _)

theorem retire_tumbler {d : Device} {n : Nat} (h : n < d.tu.length) :
    ((d.retire 0 n).tumbler n).retired = true ∧ ((d.retire 0 n).tumbler n).inService = false := by
  have hl := tu_length_of_changesOnly (changesOnly_abortOn d (.tumbler n)) (by decide)
  have e : (d.retire 0 n).tumbler n = Engine.retire ((d.abortOn (.tumbler n)).tumbler n) := tumbler_onTu (hl ▸ h) _
  rw [e]; exact ⟨rfl, rfl⟩

theorem retire_bolt {d : Device} {n : Nat} (h : n < d.bo.length) :
    ((d.retire 1 n).bolt n).retired = true ∧ ((d.retire 1 n).bolt n).inService = false := by
  have hl := bo_length_of_changesOnly (changesOnly_abortOn d (.bolt n)) (by decide)
  have e : (d.retire 1 n).bolt n = Engine.retire ((d.abortOn (.bolt n)).bolt n) := bolt_onBo (hl ▸ h) _
  rw [e]; exact ⟨rfl, rfl⟩

theorem changesOnly_retire_bank (d : Device) (n : Nat) : changesOnly [.fc, .bb] d (d.retire 2 n) :=
  changesOnly.then (changesOnly_raiseSrc d 1472) (changesOnly_bb_clean _ _ rfl)

theorem changesOnly_retire_blockArray (d : Device) (n : Nat) : changesOnly [.fc, .bk] d (d.retire 3 n) :=
  changesOnly.then (changesOnly_raiseSrc d 1472) (changesOnly_bk _ _)

/-! ### Release of a BLOCK reset (R354) -/

theorem releaseBlock_resets (d : Device) (b : BlockId) : (d.releaseBlock b).fc.resets = d.fc.resets.filter (· != b) := by cases b <;> rfl

theorem not_mem_releaseBlock_resets (d : Device) (b : BlockId) : b ∉ (d.releaseBlock b).fc.resets := by simp [releaseBlock_resets]

theorem changesOnly_releaseBlock_tumbler (d : Device) (n : Nat) : changesOnly [.fc, .tu] d (d.releaseBlock (.tumbler n)) :=
  changesOnly.then (changesOnly_fc d _) (changesOnly_onTu_clean _ _ _ fun _ => rfl)

theorem changesOnly_releaseBlock_bolt (d : Device) (n : Nat) : changesOnly [.fc, .bo] d (d.releaseBlock (.bolt n)) :=
  changesOnly.then (changesOnly_fc d _) (changesOnly_onBo_clean _ _ _ fun _ => rfl)

theorem changesOnly_releaseBlock_bank (d : Device) : changesOnly [.fc, .bb] d (d.releaseBlock .bank) :=
  changesOnly.then (changesOnly_fc d _) (changesOnly_bb_clean _ _ rfl)

theorem changesOnly_releaseBlock_blockArray (d : Device) : changesOnly [.fc, .bk] d (d.releaseBlock .blockArray) :=
  changesOnly.then (changesOnly_fc d _) (changesOnly_bk _ _)

/-- A block other than a home engine comes out of its reset without a change of the home engines. -/
theorem changesOnly_releaseBlock_shared (d : Device) {b : BlockId} (ht : ∀ n, b ≠ .tumbler n) (hb : ∀ n, b ≠ .bolt n) :
    changesOnly [.fc, .bb, .bk, .dg, .mc] d (d.releaseBlock b) := by
  have fc := fun x => (changesOnly_fc d x).mono (qs := [.fc, .bb, .bk, .dg, .mc]) (by decide)
  cases b with
  | tumbler n => exact absurd rfl (ht n)
  | bolt n => exact absurd rfl (hb n)
  | bank => exact (changesOnly_releaseBlock_bank d).mono (by decide)
  | blockArray => exact (changesOnly_releaseBlock_blockArray d).mono (by decide)
  | digest => exact (fc _).trans ((changesOnly_dg _ _).mono (by decide))
  | mgmt => exact (fc _).trans ((changesOnly_mc _ _).mono (by decide))
  | _ => exact fc _

theorem releaseBlock_tumbler {d : Device} {n : Nat} (h : n < d.tu.length) :
    (d.releaseBlock (.tumbler n)).tumbler n = { d.tumbler n with
      inReset := false, inService := !(d.tumbler n).retired && !(nth d.mc.classes 0 {}).held && !(d.tumbler n).stopped } :=
  tumbler_onTu (d := { d with fc := _ }) h _

theorem releaseBlock_bolt {d : Device} {n : Nat} (h : n < d.bo.length) :
    (d.releaseBlock (.bolt n)).bolt n = { d.bolt n with
      inReset := false, inService := !(d.bolt n).retired && !(nth d.mc.classes 1 {}).held && !(d.bolt n).stopped } :=
  bolt_onBo (d := { d with fc := _ }) h _

@[simp] theorem releaseBlock_tumbler_tu_length (d : Device) (n : Nat) : (d.releaseBlock (.tumbler n)).tu.length = d.tu.length := by
  simp [Device.releaseBlock, Device.onTu, modifyAt]

@[simp] theorem releaseBlock_bolt_bo_length (d : Device) (n : Nat) : (d.releaseBlock (.bolt n)).bo.length = d.bo.length := by
  simp [Device.releaseBlock, Device.onBo, modifyAt]

theorem failBlock_tumbler {d : Device} {n : Nat} (h : n < d.tu.length) :
    ((d.failBlock (.tumbler n)).tumbler n).retired = true ∧ ((d.failBlock (.tumbler n)).tumbler n).inService = false :=
  retire_tumbler (d := d.releaseBlock (.tumbler n)) (by simpa using h)

theorem failBlock_bolt {d : Device} {n : Nat} (h : n < d.bo.length) :
    ((d.failBlock (.bolt n)).bolt n).retired = true ∧ ((d.failBlock (.bolt n)).bolt n).inService = false :=
  retire_bolt (d := d.releaseBlock (.bolt n)) (by simpa using h)

theorem changesOnly_failBlock_tumbler (d : Device) (n : Nat) :
    changesOnly [.turns, .hg, .kw, .hs, .mi, .tu, .dirty, .fc] d (d.failBlock (.tumbler n)) :=
  ((changesOnly_releaseBlock_tumbler d n).mono (by decide)).trans (changesOnly_retire_tumbler _ n)

theorem changesOnly_failBlock_bolt (d : Device) (n : Nat) :
    changesOnly [.turns, .hg, .kw, .hs, .mi, .bo, .dirty, .fc] d (d.failBlock (.bolt n)) :=
  ((changesOnly_releaseBlock_bolt d n).mono (by decide)).trans (changesOnly_retire_bolt _ n)

theorem changesOnly_failBlock_bank (d : Device) : changesOnly [.fc, .bb, .bk] d (d.failBlock .bank) :=
  (changesOnly.then (changesOnly_releaseBlock_bank d) (changesOnly_retire_bank _ 0)).mono (by decide)

theorem changesOnly_failBlock_blockArray (d : Device) : changesOnly [.fc, .bb, .bk] d (d.failBlock .blockArray) :=
  (changesOnly.then (changesOnly_releaseBlock_blockArray d) (changesOnly_retire_blockArray _ 0)).mono (by decide)

end Sys2Proof.Safety
end

section
/-! The clauses of ReleasesAndClocks, event by event. -/

namespace Sys2Proof.Safety

open Sys2Proof.Machine

theorem exec_rstNRelease (s : State) (h : s.dev.power.rstN = false) : ∃ t, exec .rstNRelease s = .next t ∧ t.dev.power.rstN = true ∧
    t.dev.power.boot = (if s.dev.power.boot = 0 ∧ s.dev.power.railsGood = true ∧ s.dev.power.thermal ≠ 4 ∧ s.dev.power.sensed ≠ 4 then 1
      else s.dev.power.boot) ∧ keepsRest [.power] s t := by
  obtain ⟨e, k⟩ := run_of_changesOnly (s := s) (c := !s.dev.power.rstN) (by simp [h]) (by decide)
    ((changesOnly_power s.dev { s.dev.power with rstN := true }).trans (changesOnly_leaveReset _))
  refine ⟨_, e, leaveReset_rstN _, ?_, k⟩
  rw [leaveReset_boot]
  exact ite_congr (propext (and_congr_right fun _ => released_of_rstN rfl)) (fun _ => rfl) fun _ => rfl

theorem exec_housekeepingPllLock (s : State) (hb : 1 ≤ s.dev.power.boot) (hk : s.dev.power.hkPll = false) :
    exec .housekeepingPllLock s = .next { s with dev := { s.dev with power := { s.dev.power with hkPll := true } } } :=
  (run_of_changesOnly (by simp [hb, hk]) (by decide) (changesOnly_power _ _)).1

theorem exec_enginePllLock (s : State) (hb : 1 ≤ s.dev.power.boot) (hk : s.dev.power.hkPll = true) (he : s.dev.power.engPll = false) :
    ∃ t, exec .enginePllLock s = .next t ∧ t.dev.power.engPll = true ∧
      (s.dev.power.railsGood = true → ∀ n, 8 ≤ n → n < 18 → (nth t.dev.tp.srcs n {}).armed = true) ∧ keepsRest [.power, .tp] s t := by
  obtain ⟨e, k⟩ := run_of_changesOnly (s := s) (c := 1 ≤ s.dev.power.boot && s.dev.power.hkPll && !s.dev.power.engPll)
    (by simp [hb, hk, he]) (by decide)
    (changesOnly.then (changesOnly_power s.dev { s.dev.power with engPll := true }) (changesOnly_armMain _))
  exact ⟨_, e, congrArg Power.engPll (armMain_power _), fun hr n h8 h18 =>
    armMain_armed { s.dev with power := { s.dev.power with engPll := true } } hr rfl h8 h18, k⟩

theorem exec_pllLockLoss_engine (s : State) (h : s.dev.power.engPll = true) : ∃ t, exec (.pllLockLoss .engine) s = .next t ∧
    t.dev.power.engPll = false ∧ t.dev.fc.incoming = s.dev.fc.incoming ++ [{ source := 1436 }] ∧
    t.dev.power.evt = s.dev.power.evt ||| 0x10 ∧ keepsRest [.power, .fc, .ul, .out] s t := by
  obtain ⟨e, k⟩ := run_of_changesOnly h (by decide)
    (changesOnly_power_raiseSrc_powerEvt s.dev { s.dev.power with engPll := false } 1436 0x10)
  exact ⟨_, e, by simp, by simp, by simp, k⟩

theorem exec_pllLockLoss_housekeeping (s : State) (h : s.dev.power.hkPll = true) : ∃ t, exec (.pllLockLoss .housekeeping) s = .next t ∧
    t.dev.power.hkPll = false ∧ t.dev.fc.incoming = s.dev.fc.incoming ++ [{ source := 1437 }] ∧
    t.dev.power.evt = s.dev.power.evt ||| 0x10 ∧ keepsRest [.power, .fc, .ul, .out] s t := by
  obtain ⟨e, k⟩ := run_of_changesOnly h (by decide)
    (changesOnly_power_raiseSrc_powerEvt s.dev { s.dev.power with hkPll := false } 1437 0x10)
  exact ⟨_, e, by simp, by simp, by simp, k⟩

theorem exec_pllLockLoss_ucie (m : Nat) (s : State) (hm : m < 2) (hb : 1 ≤ s.dev.power.boot) (hk : s.dev.power.hkPll = true) :
    ∃ t, exec (.pllLockLoss (.ucie m)) s = .next t ∧ { source := 1438 + m } ∈ t.dev.fc.incoming ∧
      t.dev.power.evt = s.dev.power.evt ||| 0x10 ∧ ((s.dev.link m).state = .active → (t.dev.link m).state = .retrain) ∧
      keepsRest [linkPart m, .power, .fc, .ul, .out] s t := by
  obtain ⟨e, k⟩ := run_of_changesOnly (s := s) (c := s.dev.pllLocked (.ucie m)) (by simp [Device.pllLocked, hm, hb, hk])
    (by simp [perm_ne_linkPart]) (changesOnly_pllLost_ucie s.dev m)
  refine ⟨_, e, ?_, ?_, fun ha => ?_, k⟩
  · simp [Device.pllLost]
  · simp only [Device.pllLost, powerEvt_power, Device.raiseSrc_frame]
    split <;> simp
  · simp [Device.pllLost, Device.linkUp, ha]

theorem exec_release_tumbler (n : Nat) (s : State) (hn : n < s.dev.tu.length) (hr : .tumbler n ∈ s.dev.fc.resets) :
    ∃ t, exec (.blockResetRelease (.tumbler n) true) s = .next t ∧ .tumbler n ∉ t.dev.fc.resets ∧ (t.dev.tumbler n).inReset = false ∧
      ((s.dev.tumbler n).retired = false → (nth s.dev.mc.classes 0 {}).held = false → (s.dev.tumbler n).stopped = false →
        (t.dev.tumbler n).inService = true) ∧ keepsRest [.fc, .tu] s t := by
  obtain ⟨e, k⟩ := run_of_changesOnly (List.contains_iff_mem.2 hr) (by decide) (changesOnly_releaseBlock_tumbler s.dev n)
  refine ⟨_, e, not_mem_releaseBlock_resets _ _, ?_, fun h1 h2 h3 => ?_, k⟩
  · rw [releaseBlock_tumbler hn]
  · simp [releaseBlock_tumbler hn, h1, h2, h3]

theorem exec_release_bolt (n : Nat) (s : State) (hn : n < s.dev.bo.length) (hr : .bolt n ∈ s.dev.fc.resets) :
    ∃ t, exec (.blockResetRelease (.bolt n) true) s = .next t ∧ .bolt n ∉ t.dev.fc.resets ∧ (t.dev.bolt n).inReset = false ∧
      keepsRest [.fc, .bo] s t := by
  obtain ⟨e, k⟩ := run_of_changesOnly (List.contains_iff_mem.2 hr) (by decide) (changesOnly_releaseBlock_bolt s.dev n)
  exact ⟨_, e, not_mem_releaseBlock_resets _ _, by rw [releaseBlock_bolt hn], k⟩

theorem exec_release_shared (b : BlockId) (s : State) (hr : b ∈ s.dev.fc.resets) (ht : ∀ n, b ≠ .tumbler n) (hb : ∀ n, b ≠ .bolt n) :
    ∃ t, exec (.blockResetRelease b true) s = .next t ∧ b ∉ t.dev.fc.resets ∧ keepsRest [.fc, .bb, .bk, .dg, .mc] s t := by
  obtain ⟨e, k⟩ := run_of_changesOnly (List.contains_iff_mem.2 hr) (by decide) (changesOnly_releaseBlock_shared s.dev ht hb)
  exact ⟨_, e, not_mem_releaseBlock_resets _ _, k⟩

theorem exec_release_failed_tumbler (n : Nat) (s : State) (hn : n < s.dev.tu.length) (hr : .tumbler n ∈ s.dev.fc.resets) :
    ∃ t, exec (.blockResetRelease (.tumbler n) false) s = .next t ∧ t.pending = s.pending ∧ (t.dev.tumbler n).retired = true ∧
      (t.dev.tumbler n).inService = false ∧ { source := 1472 } ∈ t.dev.fc.incoming := by
  obtain ⟨e, _⟩ := run_of_changesOnly (List.contains_iff_mem.2 hr) (by decide) (changesOnly_failBlock_tumbler s.dev n)
  obtain ⟨hret, hserv⟩ := failBlock_tumbler hn
  exact ⟨_, e, rfl, hret, hserv, retire_incoming _ 0 n⟩

theorem exec_release_failed_bolt (n : Nat) (s : State) (hn : n < s.dev.bo.length) (hr : .bolt n ∈ s.dev.fc.resets) :
    ∃ t, exec (.blockResetRelease (.bolt n) false) s = .next t ∧ t.pending = s.pending ∧ (t.dev.bolt n).retired = true ∧
      (t.dev.bolt n).inService = false ∧ { source := 1472 } ∈ t.dev.fc.incoming := by
  obtain ⟨e, _⟩ := run_of_changesOnly (List.contains_iff_mem.2 hr) (by decide) (changesOnly_failBlock_bolt s.dev n)
  obtain ⟨hret, hserv⟩ := failBlock_bolt hn
  exact ⟨_, e, rfl, hret, hserv, retire_incoming _ 1 n⟩

theorem exec_release_failed_array (b : BlockId) (s : State) (hb : b = .bank ∨ b = .blockArray) (hr : b ∈ s.dev.fc.resets) :
    ∃ t, exec (.blockResetRelease b false) s = .next t ∧ (b = .bank → t.dev.bb.stopped = true) ∧
      (b = .blockArray → t.dev.bk.stopped = true) ∧ { source := 1472 } ∈ t.dev.fc.incoming ∧ keepsRest [.fc, .bb, .bk] s t := by
  obtain rfl | rfl := hb
  · obtain ⟨e, k⟩ := run_of_changesOnly (List.contains_iff_mem.2 hr) (by decide) (changesOnly_failBlock_bank s.dev)
    exact ⟨_, e, fun _ => rfl, nofun, retire_incoming _ 2 0, k⟩
  · obtain ⟨e, k⟩ := run_of_changesOnly (List.contains_iff_mem.2 hr) (by decide) (changesOnly_failBlock_blockArray s.dev)
    exact ⟨_, e, nofun, fun _ => rfl, retire_incoming _ 3 0, k⟩

/-- Settles O14, clause by clause: each event answers the device of its operation, whose effect and frame are the lemmas above. -/
theorem releasesAndClocks : Obligations.ReleasesAndClocks :=
  ⟨exec_rstNRelease, exec_housekeepingPllLock, exec_enginePllLock, exec_pllLockLoss_engine, exec_pllLockLoss_housekeeping,
    exec_pllLockLoss_ucie, exec_release_tumbler, exec_release_bolt, exec_release_shared, exec_release_failed_tumbler,
    exec_release_failed_bolt, exec_release_failed_array⟩

end Sys2Proof.Safety
end

section
/-! SUPPORT. One access of a port (R16, R18, R21, R27, R30, R34, R35, R40, R360): what a host access of BAR0 and of a leaf's window comes to where it
is served, where it is not, and where it is not one word. -/

namespace Sys2Proof.Safety

open Sys2Proof.Machine

/-! ### Which accesses reach their block -/

/-- A command that may always occur and leaves the permanent memories answers its device. -/
theorem run_keepsPerm {s : State} {d : Device} (h : d.perm = s.dev.perm) : run s true d = .next { s with dev := d } := by rw [run_true, ← h]

/-- An access is not one aligned word with all its byte enables (R16). -/
theorem wordAccess_eq_false {off : Nat} {a : Access} : wordAccess off a = false ↔ a.size ≠ 4 ∨ a.enables ≠ 15 ∨ off % 4 ≠ 0 := by
  simp only [wordAccess, Bool.and_eq_false_iff, beq_eq_false_iff_ne, or_assoc, ne_eq]

theorem wordAccess_of_aligned {off : Nat} (h : off % 4 = 0) : wordAccess off {} = true := by simp [wordAccess, h]

theorem hostAccess_of_unserved {d : Device} (h : d.serves 0 = false) (off : Nat) (a : Access) (read : Bool) (f : Device → Device) :
    d.hostAccess off a read f = d.unserved 0 := by simp [Device.hostAccess, h]

theorem hostAccess_of_bad {d : Device} (h : d.serves 0 = true) {off : Nat} {a : Access} (ha : a.size ≠ 4 ∨ a.enables ≠ 15 ∨ off % 4 ≠ 0)
    (read : Bool) (f : Device → Device) : d.hostAccess off a read f = d.badAccess read := by
  simp [Device.hostAccess, h, wordAccess_eq_false.2 ha]

theorem hostAccess_of_word {d : Device} (h : d.serves 0 = true) {off : Nat} (ho : off % 4 = 0) (read : Bool) (f : Device → Device) :
    d.hostAccess off {} read f = f d := by simp [Device.hostAccess, h, wordAccess_of_aligned ho]

/-- Every block of BAR0 answers a host that reaches it (R321, R360, R393). -/
theorem blockServed_of_hostOpen {s : State} (h : hostOpen s) (b : Nat) : s.dev.blockServed b = true := by
  obtain ⟨_, hsh, hrom, hscr⟩ := h
  simp [Device.blockServed, hsh, hrom, hscr]

/-- A register page of BAR0 lies below the vault window (R29). -/
theorem inVault_of_page {off : Nat} (h : off / 65536 < 0x80) : inVault off = false := by
  simp only [inVault, Bool.and_eq_false_iff, decide_eq_false_iff_not]; omega

/-- No BLOCK reset holds the pages of the identity, hinge and microcode registers (R354). -/
theorem held_of_page {d : Device} {off : Nat} (h : off / 65536 = 0 ∨ off / 65536 = 1 ∨ off / 65536 = 0x0C) : d.held off = false := by
  simp only [Device.held, List.any_eq_false]
  intro r _
  obtain h | h | h := h <;> cases r <;> simp [h] <;> omega

theorem regWrite_of_hostOpen {s : State} (h : hostOpen s) {off : Nat} (hp : off / 65536 < 0x80) (v : Nat) :
    s.dev.regWrite off v = if s.dev.held off then s.dev else s.dev.blockWrite off v := by
  have hb := blockServed_of_hostOpen h
  obtain ⟨_, hsh, _, _⟩ := h
  simp [Device.regWrite, hb, hsh, inVault_of_page hp]

theorem regWrite_of_inVault {s : State} (h : hostOpen s) {off : Nat} (hv : inVault off = true) (v : Nat) :
    s.dev.regWrite off v = s.dev.vaultWrite off v := by
  have hb := blockServed_of_hostOpen h
  obtain ⟨_, hsh, _, _⟩ := h
  simp [Device.regWrite, hb, hsh, hv]

/-- A write of one word of a register page reaches its block unless BLOCK reset holds it (R18, R27). -/
theorem hostWrite_word {s : State} (h : hostOpen s) {off : Nat} (ho : off % 4 = 0) (hp : off / 65536 < 0x80) (v : Nat) :
    s.dev.hostWrite off {} v = if s.dev.held off then s.dev else s.dev.blockWrite off v := by
  rw [Device.hostWrite, hostAccess_of_word h.1 ho, regWrite_of_hostOpen h hp]

theorem hostWrite_vault {s : State} (h : hostOpen s) {off : Nat} (ho : off % 4 = 0) (hv : inVault off = true) (v : Nat) :
    s.dev.hostWrite off {} v = s.dev.vaultWrite off v := by
  rw [Device.hostWrite, hostAccess_of_word h.1 ho, regWrite_of_inVault h hv]

theorem hostDo_of_hostOpen {s : State} (h : hostOpen s) (f : Device → Device) : s.dev.hostDo f = f s.dev := by
  obtain ⟨hs, hsh, hrom, hscr⟩ := h
  simp [Device.hostDo, Device.hostDoIn, hs, hsh, hrom, hscr]

theorem hostDoAt_of_hostOpen {s : State} (h : hostOpen s) {b : BlockId} (hb : b ∉ s.dev.fc.resets) (f : Device → Device) :
    s.dev.hostDoAt b f = f s.dev := by
  rw [Device.hostDoAt, hostDo_of_hostOpen h, if_neg (by simpa using hb)]

theorem leafAccess_of_windowOpen {s : State} {m l : Nat} (h : windowOpen s m l) (read ok : Bool) (f : Device → Device) :
    s.dev.leafAccess m l read ok f = if ok then f s.dev else (s.dev.when read (·.emit (.readData 0))).leafStatus l 1 := by
  obtain ⟨_, hs, hl⟩ := h
  cases ok <;> simp [Device.leafAccess, hs, hl]

theorem leafAccess_of_stray {d : Device} {m l : Nat} (hs : d.serves m = true) (hl : d.leafHit m l = false) (ok : Bool) (f : Device → Device) :
    d.leafAccess m l false ok f = d.raiseSrc 1233 := by simp [Device.leafAccess, hs, hl]

/-! ### Reads through the shadows of register pairs (R21) -/

/-- A register that is no _LO register, with no high half waiting for it, is read as it stands (R21). -/
theorem pairRead_plain {d : Device} {base off : Nat} (hl : pairLo off = false) (hs : Map.get? (d.regRead off).2.pairs.shadow (base + off) = none) :
    d.pairRead base off = d.regRead off := by
  simp [Device.pairRead, hl, hs]

theorem hostRead_word {s : State} (h : hostOpen s) {off : Nat} (ho : off % 4 = 0) :
    s.dev.hostRead off {} = Device.replies (s.dev.pairRead 0 off) := by rw [Device.hostRead, hostAccess_of_word h.1 ho]

/-! ### Debug accesses without their right (R333) -/

@[simp] theorem hsEvt_hs (d : Device) (bits : Nat) : (d.hsEvt bits).hs = { d.hs with evt := d.hs.evt ||| bits } :=
  changesOnly_when (changesOnly_hingeMsi _ _) .hs (by decide)

@[simp] theorem hsEvt_fc (d : Device) (bits : Nat) : (d.hsEvt bits).fc = d.fc := changesOnly_hsEvt d bits .fc (by decide)

/-- A debug access without its right sets HS_EVT.DEBUG_ACCESS (R333). -/
@[simp] theorem denied_hs (d : Device) : d.denied.hs = { d.hs with evt := d.hs.evt ||| 0x20 } := by simp [Device.denied]

/-- A debug access without its right raises source 1492 (R333). -/
@[simp] theorem denied_fc (d : Device) : d.denied.fc = { d.fc with incoming := d.fc.incoming ++ [{ source := 1492 }] } := by
  simp [Device.denied, Device.raiseSrc]

theorem changesOnly_replies {ps : List Part} {d : Device} {r : Nat × Device} (h : changesOnly ps d r.2) (ho : Part.out ∈ ps) :
    changesOnly ps d (Device.replies r) :=
  h.trans ((changesOnly_emit _ _).mono (by simpa using ho))

/-- A read without its right answers 0 and raises the debug-access fault (R333). -/
theorem run_denied_read (s : State) : ∃ t, run s true (Device.replies (0, s.dev.denied)) = .next t ∧
    t.dev.out.getLast? = some (.readData 0) ∧ deniedIn s t ∧ keepsRest [.hs, .fc, .ul, .out] s t := by
  obtain ⟨e, k⟩ := run_of_changesOnly (s := s) rfl (by decide)
    (changesOnly_replies (ps := [.hs, .fc, .ul, .out]) (r := (0, s.dev.denied)) ((changesOnly_denied _).mono (by decide)) (by decide))
  exact ⟨_, e, by simp [Device.replies], ⟨by simp [Device.replies], by simp [Device.replies]⟩, k⟩

/-- A write without its right does nothing but raise the debug-access fault (R333). -/
theorem run_denied_write (s : State) : ∃ t, run s true s.dev.denied = .next t ∧ deniedIn s t ∧ keepsRest [.hs, .fc, .ul, .out] s t := by
  obtain ⟨e, k⟩ := run_of_changesOnly (s := s) (ps := [.hs, .fc, .ul, .out]) rfl (by decide) ((changesOnly_denied s.dev).mono (by decide))
  exact ⟨_, e, ⟨denied_hs _, denied_fc _⟩, k⟩

end Sys2Proof.Safety
end

section
/-! Module control (R18, R38, R43, R55, R57): a write of UL_MOD_CTL, field by field. -/

namespace Sys2Proof.Safety

open Sys2Proof.Machine

/-- The write of UL_MOD_CTL's two free fields (R57). -/
def setModFields (d : Device) (m v : Nat) : Device := d.onLink m fun k => { k with repairEn := bitOf v 4, maxRate := field v 2 2 }

theorem modCtl_eq (d : Device) (m v : Nat) :
    d.modCtl m v =
      let d1 := if bitOf v 1 then (setModFields d m v).retrainNow m else setModFields d m v
      if m = 1 then d1.enableOne (bitOf v 0) else d1 := rfl

@[simp] theorem link_setModFields (d : Device) (m v : Nat) :
    (setModFields d m v).link m = { d.link m with repairEn := bitOf v 4, maxRate := field v 2 2 } := Device.link_onLink _ _ _

theorem changesOnly_setModFields (d : Device) (m v : Nat) : changesOnly [linkPart m] d (setModFields d m v) := changesOnly_onLink _ _ _

@[simp] theorem boundToOne_setModFields (d : Device) (m v : Nat) : (setModFields d m v).boundToOne = d.boundToOne :=
  congrArg (fun l : Map Leaf => l.any fun e => e.2.module == 1 && e.2.serves) (changesOnly_setModFields d m v .leaves (by unfold linkPart; split <;> decide))

theorem link_retrain (d : Device) (m : Nat) : (d.retrain m).link m = ({ d.link m with state := .retrain } : Link).counted :=
  Device.link_onLink _ _ _

theorem retrainNow_of_active {d : Device} {m : Nat} (h : (d.link m).state = .active) : d.retrainNow m = d.retrain m := by
  simp [Device.retrainNow, h]

theorem enableOne_of_enabled {d : Device} (h : d.link1.enable = true) : d.enableOne true = d := by simp [Device.enableOne, h]

/-- RETRAIN to an ACTIVE module that stays enabled retrains it (R43, R57). -/
theorem modCtl_of_retrain {d : Device} {m v : Nat} (hr : bitOf v 1 = true) (ha : (d.link m).state = .active)
    (he : m = 1 → bitOf v 0 = true ∧ d.link1.enable = true) : d.modCtl m v = (setModFields d m v).retrain m := by
  rw [modCtl_eq, hr, if_pos rfl, retrainNow_of_active (by simpa using ha)]
  split
  · next h1 =>
    obtain ⟨hb, hl⟩ := he h1
    subst h1
    rw [hb]
    exact enableOne_of_enabled hl
  · rfl

/-- Without RETRAIN, a write of module 1's register is one of its ENABLE bit (R55). -/
theorem modCtl_one_of_no_retrain {d : Device} {v : Nat} (hr : bitOf v 1 = false) : d.modCtl 1 v = (setModFields d 1 v).enableOne (bitOf v 0) := by
  simp [modCtl_eq, hr]

theorem reads_abandon (k : Dma) : ∀ r ∈ k.abandon.reads, r.issued = false := by
  intro r hr
  obtain ⟨_, _, rfl⟩ := List.mem_map.1 hr
  rfl

theorem exec_moduleRetrain (m : Nat) (v : Word) (s : State) (hm : m < 2) (ho : hostOpen s) (hb : .link m ∉ s.dev.fc.resets)
    (hu : s.dev.linkUp m = true) (hr : bitOf v.toNat 1 = true) (he : m = 1 → bitOf v.toNat 0 = true ∧ s.dev.link1.enable = true) :
    ∃ t, exec (.moduleRetrain m v) s = .next t ∧ (t.dev.link m).state = .retrain ∧ (t.dev.link m).repairEn = bitOf v.toNat 4 ∧
      (t.dev.link m).maxRate = field v.toNat 2 2 ∧ { source := 1184 + 16 * m + 1 } ∈ t.dev.fc.incoming ∧ keepsRest [linkPart m, .fc] s t := by
  have hd : s.dev.hostDoAt (.link m) (fun d => d.modCtl m v.toNat) = (setModFields s.dev m v.toNat).retrain m := by
    rw [hostDoAt_of_hostOpen ho hb, modCtl_of_retrain hr (by simpa [Device.linkUp] using hu) he]
  obtain ⟨e, k⟩ := run_of_changesOnly (s := s) (c := m < 2) (by simpa using hm) (by simp [perm_ne_linkPart])
    (((changesOnly_setModFields s.dev m v.toNat).mono (by simp)).trans (changesOnly_retrain _ m))
  exact ⟨_, (congrArg (run s _) hd).trans e, by simp [link_retrain, Link.counted], by simp [link_retrain, Link.counted],
    by simp [link_retrain, Link.counted], by simp [Device.retrain], k⟩

/-- MODULE_ENABLE_WRITE without RETRAIN answers what the ENABLE bit does (R55). -/
theorem exec_moduleEnableWrite {v : Word} {s : State} (ho : hostOpen s) (hb : .link 1 ∉ s.dev.fc.resets) (hr : bitOf v.toNat 1 = false) :
    exec (.moduleEnableWrite v) s = run s true ((setModFields s.dev 1 v.toNat).enableOne (bitOf v.toNat 0)) :=
  congrArg (run s true) ((hostDoAt_of_hostOpen ho hb _).trans (modCtl_one_of_no_retrain hr))

theorem exec_moduleDisable (v : Word) (s : State) (ho : hostOpen s) (hb : .link 1 ∉ s.dev.fc.resets) (h0 : bitOf v.toNat 0 = false)
    (hr : bitOf v.toNat 1 = false) (he : s.dev.link1.enable = true) (hn : s.dev.boundToOne = false) :
    ∃ t, exec (.moduleEnableWrite v) s = .next t ∧ t.dev.link1.enable = false ∧ t.dev.link1.state = .disabled ∧
      (∀ r ∈ t.dev.dma1.reads, r.issued = false) ∧ keepsRest [.link1, .dma1] s t := by
  have hd : (setModFields s.dev 1 v.toNat).enableOne false =
      ((setModFields s.dev 1 v.toNat).onLink 1 fun k => { k with enable := false, state := .disabled }).onDma 1 Dma.abandon := by
    have he' : (setModFields s.dev 1 v.toNat).link1.enable = true := he
    simp [Device.enableOne, he', hn]
  obtain ⟨e, k⟩ := run_of_changesOnly (s := s) rfl (by decide)
    (((changesOnly_setModFields s.dev 1 v.toNat).then (changesOnly_onLink _ 1 _)).then (changesOnly_onDma _ 1 Dma.abandon))
  refine ⟨_, ?_, ?_, ?_, ?_, ⟨k.1, k.2.mono (by decide)⟩⟩
  · rw [exec_moduleEnableWrite ho hb hr, h0, hd]; exact e
  · rfl
  · rfl
  · exact reads_abandon _

theorem exec_moduleDisable_bound (v : Word) (s : State) (ho : hostOpen s) (hb : .link 1 ∉ s.dev.fc.resets) (h0 : bitOf v.toNat 0 = false)
    (hr : bitOf v.toNat 1 = false) (he : s.dev.link1.enable = true) (hn : s.dev.boundToOne = true) :
    ∃ t, exec (.moduleEnableWrite v) s = .next t ∧ t.dev.link1.enable = true ∧ t.dev.link1.state = s.dev.link1.state ∧
      t.dev.link1.evt = s.dev.link1.evt ||| 0x40 ∧ keepsRest [.link1, .ul, .out] s t := by
  have hd : (setModFields s.dev 1 v.toNat).enableOne false = (setModFields s.dev 1 v.toNat).modEvt 1 0x40 := by
    have he' : (setModFields s.dev 1 v.toNat).link1.enable = true := he
    simp [Device.enableOne, he', hn]
  have hl : ((setModFields s.dev 1 v.toNat).modEvt 1 0x40).link1 =
      { s.dev.link1 with repairEn := bitOf v.toNat 4, maxRate := field v.toNat 2 2, evt := s.dev.link1.evt ||| 0x40 } :=
    changesOnly_when (changesOnly_hingeMsi _ _) .link1 (by decide)
  obtain ⟨e, k⟩ := run_of_changesOnly (s := s) rfl (by decide)
    (((changesOnly_setModFields s.dev 1 v.toNat).mono (by decide)).trans (changesOnly_modEvt _ 1 0x40))
  refine ⟨_, ?_, ?_, ?_, ?_, k⟩
  · rw [exec_moduleEnableWrite ho hb hr, h0, hd]; exact e
  · simp [hl, he]
  · simp [hl]
  · simp [hl]

theorem exec_moduleEnable (v : Word) (s : State) (ho : hostOpen s) (hb : .link 1 ∉ s.dev.fc.resets) (h0 : bitOf v.toNat 0 = true)
    (hr : bitOf v.toNat 1 = false) (he : s.dev.link1.enable = false) (hs : s.dev.link1.state = .disabled) :
    ∃ t, exec (.moduleEnableWrite v) s = .next t ∧ t.dev.link1.enable = true ∧
      t.dev.link1.state = (if s.dev.link1.partner = true then .training else .reset) ∧ keepsRest [.link1] s t := by
  have hd : (setModFields s.dev 1 v.toNat).enableOne true =
      ((setModFields s.dev 1 v.toNat).onLink 1 fun k => { k with enable := true }).beginTraining 1 := by
    have he' : (setModFields s.dev 1 v.toNat).link1.enable = false := he
    have hs' : ((setModFields s.dev 1 v.toNat).onLink 1 fun k => { k with enable := true }).link1.state = .disabled := hs
    simp [Device.enableOne, he', hs']
  obtain ⟨e, k⟩ := run_of_changesOnly (s := s) rfl (by decide)
    (((changesOnly_setModFields s.dev 1 v.toNat).trans (changesOnly_onLink _ 1 _)).trans (changesOnly_onLink _ 1 _))
  refine ⟨_, ?_, ?_, ?_, k⟩
  · rw [exec_moduleEnableWrite ho hb hr, h0, hd]; exact e
  · rfl
  · rfl

/-- Settles O18, clause by clause: RETRAIN, ENABLE 0 without and with a leaf bound to module 1, and ENABLE 1. -/
theorem moduleControl : Obligations.ModuleControl :=
  ⟨exec_moduleRetrain, exec_moduleDisable, exec_moduleDisable_bound, exec_moduleEnable⟩

end Sys2Proof.Safety
end

section
/-! Why a host access can stop a run (R291): a module that holds 256 reads of the random window takes no further one, on PAIR_LO_READ as on
RANDOM_WINDOW_READ. -/

namespace Sys2Proof.Safety

open Sys2Proof.Machine

/-- A device whose module 0 holds 256 reads of leaf 0's random window (R291). -/
def fullOfReads : State := { dev := { ns := { held := List.replicate 256 (0, 0, 4) } } }

theorem heldFull_fullOfReads : fullOfReads.dev.heldFull 0 = true := by
  have h : (fullOfReads.dev.ns.held.filter fun h => h.1 == 0).length = 256 := by
    rw [show fullOfReads.dev.ns.held = List.replicate 256 (0, 0, 4) from rfl, List.filter_replicate_of_pos rfl, List.length_replicate]
  exact decide_eq_true (Nat.le_of_eq h.symm)

/-- A read that module `m` does not take ends the run, by whichever row it is given (R291). -/
theorem exec_pairLoRead_of_heldFull {m l off : Nat} {a : Access} {s : State} (hr : randomOk off a = true) (hf : s.dev.heldFull m = true) :
    exec (.pairLoRead (.leafWin m l) ⟨a, off⟩) s = .fault .cannotOccur := by
  have h : s.dev.takesRead m off a = false := by simp [Device.takesRead, hr, hf]
  exact (congrArg (fun c => run s c (s.dev.leafReadAt m l off a)) h).trans (run_false _ _)

/-- Refutes O8, in its second clause: `hostAccess` holds of PAIR_LO_READ by every port, and by a leaf's port such a read of the random window (offset
0x1000, four bytes) stops the run with `cannotOccur` where its module holds 256 reads already (R291). -/
theorem not_commandsStopOnlyWhereTheEventCannotOccur : ¬ Obligations.CommandsStopOnlyWhereTheEventCannotOccur := by
  rintro ⟨_, hostAccessesGoOn⟩
  obtain ⟨t, ht, _⟩ := hostAccessesGoOn (.pairLoRead (.leafWin 0 0) { off := 0x1000 }) fullOfReads rfl
  have stops := exec_pairLoRead_of_heldFull (l := 0) (show randomOk 0x1000 {} = true by decide) heldFull_fullOfReads
  exact nomatch ht.symm.trans stops

end Sys2Proof.Safety
end

section
/-! Register writes by access code (R16, R18, R20, R24, R27, R43, R44, R360). -/

namespace Sys2Proof.Safety

open Sys2Proof.Machine

/-- No block has registers on the pages between the digest cores and the vault window (R24, R29). -/
theorem blockWrite_of_reserved (d : Device) {off : Nat} (hl : 0x43 ≤ off / 65536) (v : Nat) : d.blockWrite off v = d := by
  unfold Device.blockWrite
  rw [if_neg (by omega), if_neg (by omega)]
  split <;> try omega
  rfl

theorem blockWrite_scratch (d : Device) (v : Nat) : d.blockWrite 0x24 v = { d with hg := { d.hg with scratch := v } } := rfl

theorem blockWrite_causes (d : Device) (v : Nat) :
    d.blockWrite 0x11200 v = d.onLeaf d.hg.sel fun x => { x with causes := clearBits x.causes v } := rfl

/-- A write that would change a locked scheduler field keeps it and raises the lock source (R20). -/
theorem blockWrite_locked_sched {d : Device} {v : Nat} (hl : d.sc.lock = true) (hg : field v 4 4 ≠ d.sc.gap) :
    d.blockWrite 0x20010 v = d.raiseSrc 1524 := by
  have hsc : ({ d.sc with lock := d.sc.lock || bitOf v 8 } : Sched) = d.sc := by
    rw [hl, Bool.true_or, ← hl]
  show (if (!d.sc.lock) = true then _ else _) = _
  rw [if_neg (by simp [hl]), if_pos (.inl hg), hsc]

/-- Only W1C fields take a write in the shackle state, and the identity block has none (R360). -/
theorem regWrite_id_of_shackled {d : Device} (h : d.shackled = true) {off : Nat} (hp : off / 65536 = 0) (v : Nat) : d.regWrite off v = d := by
  unfold Device.regWrite
  rw [if_pos h, Device.clearOnly, hp]
  exact ite_self _

theorem exec_registerWrite_unserved {s : State} (h : s.dev.serves 0 = false) (off : Nat) (acc : Access) (v : Word) :
    exec (.registerWrite off acc v) s = run s true (s.dev.unserved 0) := congrArg (run s true) (hostAccess_of_unserved h off acc false _)

theorem exec_registerWrite_notServed (off : Nat) (acc : Access) (v : Word) (s : State) (h : s.dev.serves 0 = false)
    (hr : s.dev.link0.state ≠ .retrain) : exec (.registerWrite off acc v) s = .next { s with dev := s.dev.emit .notServed } := by
  rw [exec_registerWrite_unserved h, Device.unserved, if_neg (show (s.dev.link 0).state ≠ .retrain from hr)]
  exact run_keepsPerm rfl

theorem exec_registerWrite_stalled (off : Nat) (acc : Access) (v : Word) (s : State) (h : s.dev.serves 0 = false)
    (hr : s.dev.link0.state = .retrain) : exec (.registerWrite off acc v) s = .next { s with dev := s.dev.emit .stalled } := by
  rw [exec_registerWrite_unserved h, Device.unserved, if_pos (show (s.dev.link 0).state = .retrain from hr)]
  exact run_keepsPerm rfl

theorem exec_registerWrite_bad (off : Nat) (acc : Access) (v : Word) (s : State) (h : s.dev.serves 0 = true)
    (ha : acc.size ≠ 4 ∨ acc.enables ≠ 15 ∨ off % 4 ≠ 0) : exec (.registerWrite off acc v) s = .next { s with dev := s.dev.raiseSrc 1232 } :=
  (congrArg (run s true) (hostAccess_of_bad h ha false _)).trans (run_keepsPerm rfl)

/-- REGISTER_WRITE of one word of a register page. -/
theorem exec_registerWrite_word {s : State} (h : hostOpen s) {off : Nat} (ho : off % 4 = 0) (hp : off / 65536 < 0x80) (v : Word) :
    exec (.registerWrite off {} v) s = run s true (if s.dev.held off then s.dev else s.dev.blockWrite off v.toNat) :=
  congrArg (run s true) (hostWrite_word h ho hp v.toNat)

theorem exec_registerWrite_scratch (v : Word) (s : State) (h : hostOpen s) :
    exec (.registerWrite 0x24 {} v) s = .next { s with dev := { s.dev with hg := { s.dev.hg with scratch := v.toNat } } } := by
  rw [exec_registerWrite_word h (by decide) (by decide), held_of_page (by decide), if_neg (by decide), blockWrite_scratch]
  exact run_keepsPerm rfl

theorem exec_registerWrite_reserved (off : Nat) (v : Word) (s : State) (h : hostOpen s) (ho : off % 4 = 0) (hl : 0x43 ≤ off / 65536)
    (hu : off / 65536 < 0x80) : exec (.registerWrite off {} v) s = .next s := by
  rw [exec_registerWrite_word h ho hu, blockWrite_of_reserved _ hl, ite_self, run_keepsPerm rfl]

theorem exec_registerWrite_held (off : Nat) (v : Word) (s : State) (h : hostOpen s) (ho : off % 4 = 0) (hp : off / 65536 < 0x80)
    (hh : s.dev.held off = true) : exec (.registerWrite off {} v) s = .next s := by
  rw [exec_registerWrite_word h ho hp, if_pos hh, run_keepsPerm rfl]

theorem exec_registerWrite_shackled (v : Word) (s : State) (h : s.dev.serves 0 = true) (hs : s.dev.shackled = true) :
    exec (.registerWrite 0x24 {} v) s = .next s :=
  (congrArg (run s true) ((hostAccess_of_word h (by decide) false _).trans (regWrite_id_of_shackled hs (by decide) v.toNat))).trans
    (run_keepsPerm rfl)

theorem exec_registerWrite_causes (v : Word) (s : State) (h : hostOpen s) : ∃ t, exec (.registerWrite 0x11200 {} v) s = .next t ∧
    (t.dev.leaf s.dev.hg.sel).causes = clearBits (s.dev.leaf s.dev.hg.sel).causes v.toNat ∧ keepsRest [.leaves] s t := by
  obtain ⟨e, k⟩ := run_of_changesOnly (s := s) rfl (by decide)
    (changesOnly_onLeaf s.dev s.dev.hg.sel fun x => { x with causes := clearBits x.causes v.toNat })
  refine ⟨_, ?_, congrArg Leaf.causes (Device.leaf_onLeaf _ _ _), k⟩
  rw [exec_registerWrite_word h (by decide) (by decide), held_of_page (by decide), if_neg (by decide), blockWrite_causes]
  exact e

theorem exec_registerWrite_locked (v : Word) (s : State) (h : hostOpen s) (hh : s.dev.held 0x20010 = false) (hl : s.dev.sc.lock = true)
    (hg : field v.toNat 4 4 ≠ s.dev.sc.gap) : ∃ t, exec (.registerWrite 0x20010 {} v) s = .next t ∧ t.dev.sc = s.dev.sc ∧ raisedIn s t 1524 ∧
    keepsRest [.fc] s t := by
  obtain ⟨e, k⟩ := run_of_changesOnly (s := s) rfl (by decide) (changesOnly_raiseSrc s.dev 1524)
  refine ⟨{ s with dev := s.dev.raiseSrc 1524 }, ?_, rfl, rfl, k⟩
  rw [exec_registerWrite_word h (by decide) (by decide), hh, if_neg (by decide), blockWrite_locked_sched hl hg]
  exact e

/-- Settles O21, clause by clause: where the write is not served, not one word, dropped, and what it sets where it reaches its block. -/
theorem registerWritesFollowTheirAccessCode : Obligations.RegisterWritesFollowTheirAccessCode :=
  ⟨exec_registerWrite_notServed, exec_registerWrite_stalled, exec_registerWrite_bad, exec_registerWrite_scratch, exec_registerWrite_reserved,
    exec_registerWrite_held, exec_registerWrite_shackled, exec_registerWrite_causes, exec_registerWrite_locked⟩

end Sys2Proof.Safety
end

section
/-! Register pairs (R21, R23, R25): what the halves of BEAT and of a leaf's window read, and what a write of a half does. -/

namespace Sys2Proof.Safety

open Sys2Proof.Machine

/-! ### Tables in order -/

theorem sorted_tail {α : Type} {e : Nat × α} {r : Map α} (h : Map.sorted (e :: r) = true) : Map.sorted r = true := by
  cases r with
  | nil => rfl
  | cons f r => exact (Bool.and_eq_true_iff.1 h).2

/-- No key at or below the first one stands behind it in a table in order. -/
theorem get?_tail_of_le {α : Type} {r : Map α} : ∀ {e : Nat × α} {j : Nat}, Map.sorted (e :: r) = true → j ≤ e.1 → Map.get? r j = none := by
  induction r with
  | nil => intros; rfl
  | cons f r ih =>
    intro e j h hj
    have hlt : e.1 < f.1 := of_decide_eq_true (Bool.and_eq_true_iff.1 h).1
    have hne : f.1 ≠ j := by omega
    simpa [Map.get?, hne] using ih (sorted_tail h) (by omega)

/-- A key taken out of a table in order is gone. -/
theorem get?_erase_self {α : Type} {m : Map α} {k : Nat} (h : Map.sorted m = true) : Map.get? (Map.erase m k) k = none := by
  induction m with
  | nil => rfl
  | cons e r ih =>
    by_cases hk : e.1 = k
    · simpa [Map.erase, hk] using get?_tail_of_le h (Nat.le_of_eq hk.symm)
    · simpa [Map.erase, Map.get?, hk] using ih (sorted_tail h)

/-! ### Reads of a half -/

/-- The device with other shadows of register pairs (R21). -/
def withShadow (d : Device) (m : Map Nat) : Device := { d with pairs := { d.pairs with shadow := m } }

theorem changesOnly_withShadow (d : Device) (m : Map Nat) : changesOnly [.pairs] d (withShadow d m) := changesOnly_pairs _ _

/-- A read of a _LO register leaves the live high half in the shadow (R21). -/
theorem pairRead_lo {d : Device} {base off v : Nat} (hl : pairLo off = true) (hr : d.regRead off = (v, d)) :
    d.pairRead base off = (v, withShadow d (Map.set d.pairs.shadow (base + off + 4) (d.regRead (off + 4)).1)) := by
  simp [Device.pairRead, hr, hl, withShadow]

/-- A read of a _HI register takes the half that waits for it (R21). -/
theorem pairRead_hi {d : Device} {base off v w : Nat} (hl : pairLo off = false) (hr : d.regRead off = (v, d))
    (hs : Map.get? d.pairs.shadow (base + off) = some w) :
    d.pairRead base off = (mixShadow off w v, withShadow d (Map.erase d.pairs.shadow (base + off))) := by
  simp [Device.pairRead, hr, hl, hs, withShadow]

/-- BEAT stands as it is in a scheduler held in BLOCK reset (R25). -/
theorem regRead_of_live {s : State} (h : hostOpen s) {off v : Nat} (hv : inVault off = false)
    (hx : off ≠ 0x60028 ∧ off ≠ 0xC0064 ∧ off ≠ 0xE0024) (hl : s.dev.live off = v) (hr : (s.dev.resetView off).live off = v) :
    s.dev.regRead off = (v, s.dev) := by
  obtain ⟨h1, h2, h3⟩ := hx
  cases hh : s.dev.held off <;> simp [Device.regRead, Device.regValue, blockServed_of_hostOpen h, hv, hh, h1, h2, h3, hl, hr]

theorem regRead_beatLo {s : State} (h : hostOpen s) : s.dev.regRead 0x20000 = (s.dev.sc.beat % 2 ^ 32, s.dev) :=
  regRead_of_live h (by decide) (by decide) rfl rfl

theorem regRead_beatHi {s : State} (h : hostOpen s) : s.dev.regRead 0x20004 = (s.dev.sc.beat / 2 ^ 32 % 2 ^ 32, s.dev) :=
  regRead_of_live h (by decide) (by decide) rfl rfl

/-- What is left in the shadows by a read of BEAT_LO (R21). -/
theorem pairRead_beatLo {s : State} (h : hostOpen s) : s.dev.pairRead 0 0x20000 =
    (s.dev.sc.beat % 2 ^ 32, withShadow s.dev (Map.set s.dev.pairs.shadow 0x20004 (s.dev.sc.beat / 2 ^ 32 % 2 ^ 32))) := by
  rw [pairRead_lo (by decide) (regRead_beatLo h), regRead_beatHi h]

theorem pairRead_beatHi_shadow {s : State} (h : hostOpen s) {w : Nat} (hs : Map.get? s.dev.pairs.shadow 0x20004 = some w) :
    s.dev.pairRead 0 0x20004 = (w, withShadow s.dev (Map.erase s.dev.pairs.shadow 0x20004)) :=
  pairRead_hi (by decide) (regRead_beatHi h) hs

/-- A read of a BAR0 word answers what `pairRead` gives. -/
theorem exec_pairRead_hinge {s : State} (h : hostOpen s) {off : Nat} (ho : off % 4 = 0) :
    exec (.pairLoRead .hinge { off := off }) s = run s true (Device.replies (s.dev.pairRead 0 off)) ∧
    exec (.pairHiRead .hinge { off := off }) s = run s true (Device.replies (s.dev.pairRead 0 off)) :=
  ⟨congrArg (run s true) (hostRead_word h ho), congrArg (run s true) (hostRead_word h ho)⟩

theorem run_replies_shadow (s : State) (v : Nat) (m : Map Nat) :
    run s true (Device.replies (v, withShadow s.dev m)) = .next { s with dev := Device.replies (v, withShadow s.dev m) } ∧
      keepsRest [.pairs, .out] s { s with dev := Device.replies (v, withShadow s.dev m) } :=
  run_of_changesOnly rfl (by decide) (changesOnly_replies ((changesOnly_withShadow _ _).mono (by decide)) (by decide))

theorem exec_beatHi_shadow {u : State} (h : hostOpen u) {w : Nat} (hs : Map.get? u.dev.pairs.shadow 0x20004 = some w) :
    ∃ t, exec (.pairHiRead .hinge { off := 0x20004 }) u = .next t ∧ t.dev.out = u.dev.out ++ [.readData w] ∧
      (u.dev.pairs.shadow.sorted = true → noShadow t 0x20004) ∧ keepsRest [.pairs, .out] u t := by
  obtain ⟨e, k⟩ := run_replies_shadow u w (Map.erase u.dev.pairs.shadow 0x20004)
  refine ⟨_, ?_, rfl, fun hsort => get?_erase_self hsort, k⟩
  rw [(exec_pairRead_hinge h (by decide)).2, pairRead_beatHi_shadow h hs]
  exact e

theorem exec_beatLo_then_beatHi (s : State) (h : hostOpen s) :
    ∃ t, exec (.pairLoRead .hinge { off := 0x20000 }) s = .next t ∧ t.dev.out = s.dev.out ++ [.readData (s.dev.sc.beat % 2 ^ 32)] ∧
      keepsRest [.pairs, .out] s t ∧
      (∀ (u : State), hostOpen u → u.dev.pairs = t.dev.pairs → ∃ w, exec (.pairHiRead .hinge { off := 0x20004 }) u = .next w ∧
        w.dev.out = u.dev.out ++ [.readData (s.dev.sc.beat / 2 ^ 32 % 2 ^ 32)] ∧ (u.dev.pairs.shadow.sorted = true → noShadow w 0x20004) ∧
        keepsRest [.pairs, .out] u w) := by
  obtain ⟨e, k⟩ := run_replies_shadow s (s.dev.sc.beat % 2 ^ 32) (Map.set s.dev.pairs.shadow 0x20004 (s.dev.sc.beat / 2 ^ 32 % 2 ^ 32))
  refine ⟨_, ?_, rfl, k, fun u hu hp => exec_beatHi_shadow hu ?_⟩
  · rw [(exec_pairRead_hinge h (by decide)).1, pairRead_beatLo h]
    exact e
  · rw [hp]
    exact Map.get?_set_self _ _ _

theorem exec_beatHi_live (s : State) (h : hostOpen s) (hn : noShadow s 0x20004) :
    exec (.pairHiRead .hinge { off := 0x20004 }) s = .next { s with dev := s.dev.emit (.readData (s.dev.sc.beat / 2 ^ 32 % 2 ^ 32)) } := by
  have hr := regRead_beatHi h
  rw [(exec_pairRead_hinge h (by decide)).2, pairRead_plain (by decide) (by rw [hr]; exact hn), hr]
  exact run_keepsPerm rfl

/-! ### Reads of a leaf's window -/

/-- A read of a register word of a leaf's window (R32, R35). -/
theorem leafReadAt_word {s : State} {m l off : Nat} (h : windowOpen s m l) (hr : randomOk off {} = false) (hw : leafWordOk off {} = true) :
    s.dev.leafReadAt m l off {} = Device.replies (s.dev.leafRead l off) := by
  simp [Device.leafReadAt, leafAccess_of_windowOpen h, hr, hw]

/-- A register word of a leaf's window is read whatever the module holds: R291 bounds reads of the random window alone. -/
theorem takesRead_word {d : Device} {m off : Nat} {a : Access} (hr : randomOk off a = false) : d.takesRead m off a = true := by
  simp [Device.takesRead, hr]

/-- A pair row by a leaf's port answers the register word of the window (R21). -/
theorem runRead_leafWord {s : State} {m l off : Nat} (h : windowOpen s m l) (hr : randomOk off {} = false) (hw : leafWordOk off {} = true) :
    runRead (.leafWin m l) off {} s = run s true (Device.replies (s.dev.leafRead l off)) := by
  simp only [runRead, takesRead_word hr, leafReadAt_word h hr hw]

theorem exec_leafBeatLo (m l : Nat) (s : State) (h : windowOpen s m l) :
    ∃ t, exec (.pairLoRead (.leafWin m l) { off := 0x5040 }) s = .next t ∧
      t.dev.out = s.dev.out ++ [.readData (s.dev.sc.beat % 2 ^ 32)] ∧ keepsRest [.pairs, .out] s t := by
  have hr : s.dev.leafRead l 0x5040 = (s.dev.sc.beat % 2 ^ 32,
      withShadow s.dev (Map.set s.dev.pairs.shadow (2 ^ 27 + l * 65536 + 0x5040 + 4) (s.dev.leafValue l 0x5044))) := rfl
  obtain ⟨e, k⟩ := run_replies_shadow s (s.dev.sc.beat % 2 ^ 32)
    (Map.set s.dev.pairs.shadow (2 ^ 27 + l * 65536 + 0x5040 + 4) (s.dev.leafValue l 0x5044))
  exact ⟨_, ((runRead_leafWord h (by decide) (by decide)).trans (congrArg (fun r => run s true (Device.replies r)) hr)).trans e, rfl, k⟩

theorem exec_leafRecLost (m l : Nat) (s : State) (h : windowOpen s m l) (hn : noShadow s (2 ^ 27 + l * 65536 + 0x2010)) :
    exec (.pairHiRead (.leafWin m l) { off := 0x2010 }) s = .next { s with dev := s.dev.emit (.readData (s.dev.leaf l).recLostQ) } := by
  have hl : leafPairLo 0x2010 = false := by decide
  have hr : s.dev.leafRead l 0x2010 = ((s.dev.leaf l).recLostQ, s.dev) := by
    simp only [Device.leafRead, hl, Bool.false_eq_true, if_false, hn]
    rfl
  exact ((runRead_leafWord h (by decide) (by decide)).trans (congrArg (fun r => run s true (Device.replies r)) hr)).trans (run_keepsPerm rfl)

/-! ### Writes of a half (R23) -/

theorem exec_pairLoWrite_staged (off : Nat) (v : Word) (s : State) (h : hostOpen s) (ho : off % 4 = 0) (hl : pairLo off = true) :
    ∃ t, exec (.pairLoWrite { off := off } v) s = .next t ∧ Map.get? t.dev.pairs.staged off = some v.toNat ∧
      t.dev.pairs.shadow = s.dev.pairs.shadow ∧ keepsRest [.pairs] s t := by
  obtain ⟨hs, hsh, _, _⟩ := h
  have hd : s.dev.stageLo off {} v.toNat = { s.dev with pairs := { s.dev.pairs with staged := Map.set s.dev.pairs.staged off v.toNat } } := by
    rw [Device.stageLo, hostAccess_of_word hs ho]
    simp [hl, hsh]
  obtain ⟨e, k⟩ := run_of_changesOnly (s := s) rfl (by decide)
    (changesOnly_pairs s.dev { s.dev.pairs with staged := Map.set s.dev.pairs.staged off v.toNat })
  exact ⟨_, (congrArg (run s true) hd).trans e, Map.get?_set_self _ _ _, rfl, k⟩

/-- BEAT takes no write: both its halves are read-only (R18, R25). -/
theorem regWrite_beat {s : State} (h : hostOpen s) {off : Nat} (ho : off = 0x20000 ∨ off = 0x20004) (v : Nat) : s.dev.regWrite off v = s.dev := by
  obtain rfl | rfl := ho <;> rw [regWrite_of_hostOpen h (by decide)] <;> exact ite_self _

theorem exec_pairHiWrite_beat (v : Word) (s : State) (h : hostOpen s) : exec (.pairHiWrite { off := 0x20004 } v) s = .next s := by
  have hd : s.dev.commitPair 0x20004 {} v.toNat = s.dev := by
    have hp : (decide (4 ≤ 0x20004) && pairLo (0x20004 - 4)) = true := by decide
    rw [Device.commitPair, hostAccess_of_word h.1 (by decide), if_pos hp, regWrite_beat h (.inl rfl), regWrite_beat h (.inr rfl)]
  exact (congrArg (run s true) hd).trans (run_keepsPerm rfl)

theorem exec_pairRead_bad (off : Nat) (acc : Access) (s : State) (h : s.dev.serves 0 = true) (ha : acc.size ≠ 4 ∨ acc.enables ≠ 15 ∨ off % 4 ≠ 0) :
    exec (.pairLoRead .hinge ⟨acc, off⟩) s = .next { s with dev := (s.dev.emit .notServed).raiseSrc 1232 } ∧
    exec (.pairHiRead .hinge ⟨acc, off⟩) s = .next { s with dev := (s.dev.emit .notServed).raiseSrc 1232 } := by
  have e := (congrArg (run s true) (hostAccess_of_bad h ha true fun d => Device.replies (d.pairRead 0 off))).trans (run_keepsPerm rfl)
  exact ⟨e, e⟩

theorem exec_pairWrite_bad (off : Nat) (acc : Access) (v : Word) (s : State) (h : s.dev.serves 0 = true)
    (ha : acc.size ≠ 4 ∨ acc.enables ≠ 15 ∨ off % 4 ≠ 0) :
    exec (.pairLoWrite ⟨acc, off⟩ v) s = .next { s with dev := s.dev.raiseSrc 1232 } ∧
    exec (.pairHiWrite ⟨acc, off⟩ v) s = .next { s with dev := s.dev.raiseSrc 1232 } :=
  ⟨(congrArg (run s true) (hostAccess_of_bad h ha false _)).trans (run_keepsPerm rfl),
    (congrArg (run s true) (hostAccess_of_bad h ha false _)).trans (run_keepsPerm rfl)⟩

/-- Settles O22, clause by clause: reads of BEAT and of a leaf's window, staged and dropped writes of a half, and refused accesses. -/
theorem registerPairsReadOneMoment : Obligations.RegisterPairsReadOneMoment :=
  ⟨exec_beatLo_then_beatHi, exec_beatHi_live, exec_leafBeatLo, exec_leafRecLost, exec_pairLoWrite_staged, exec_pairHiWrite_beat,
    exec_pairRead_bad, exec_pairWrite_bad⟩

end Sys2Proof.Safety
end

section
/-! SUPPORT. Vault memory byte by byte (R30, R79, R249): a byte that no field of the state holds goes to the byte memory, a byte of a key state to its
slots, and a word of the window is four of them in order. -/

namespace Sys2Proof.Safety

open Sys2Proof.Machine

/-! ### A byte string in a memory -/

/-- A byte string reads as it was written. -/
theorem read_writeN_inside : ∀ {bs : Bytes} {m : Mem} {a i : Nat}, m.wf = true → i < bs.length → (m.writeN a bs).read (a + i) = nth bs i 0
  | b :: r, m, a, 0, hm, _ => by
    rw [Mem.writeN, Mem.read_writeN_of_outside r _ _ _ (.inl (by omega))]
    exact Mem.read_write_self a b hm
  | b :: r, m, a, i + 1, hm, hi => by
    rw [Mem.writeN, show a + (i + 1) = a + 1 + i by omega]
    exact read_writeN_inside (Mem.wf_write a b hm) (by simpa using hi)

/-! ### Where a byte of vault memory lies -/

/-- The device with other contents of the byte memory. -/
def withVault (d : Device) (m : Mem) : Device := { d with vault := m }

/-- The device with other key-state slots. -/
def withSlots (d : Device) (x : Slots) : Device := { d with slots := x }

@[simp] theorem homedByte_withVault (d : Device) (m : Mem) (a : Nat) : (withVault d m).homedByte a = d.homedByte a := rfl

theorem withKeyByte_of_none {x : Slots} {o : Nat} (h : x.keyByte o = none) (b : Byte) : x.withKeyByte o b = none := by
  unfold Slots.keyByte at h
  unfold Slots.withKeyByte
  cases hs : x.stateAt (o / 128) with
  | none => rfl
  | some k =>
    obtain ⟨s, a, i, u⟩ := k
    rw [hs] at h
    have hl : ¬ o - 128 * s < ((i ++ u).set (o - 128 * s) b).length := by simpa using List.getElem?_eq_none_iff.1 h
    simp only [if_neg hl]

/-- No field takes a byte that no field holds. -/
theorem setHomed_of_unhomed {d : Device} {a : Nat} (h : d.homedByte a = none) (b : Byte) : d.setHomed a b = none := by
  unfold Device.homedByte at h
  unfold Device.setHomed
  by_cases ha : a < sharedBase
  · rw [if_pos ha] at h ⊢
    dsimp only at h ⊢
    by_cases hf : (d.leaf (a / 0x1800)).state = .free
    · rw [if_pos hf]
    · rw [if_neg hf] at h ⊢
      have hc : ctxFieldAt ctxFields (a % 0x1800) = none := Option.map_eq_none_iff.1 h
      simp only [Leaf.withCtxByte, hc, Option.map_none]
  · rw [if_neg ha] at h ⊢
    obtain ⟨hk, hp⟩ := Option.or_eq_none_iff.1 h
    rw [withKeyByte_of_none hk]
    simp only [Option.map_eq_none_iff.1 hp, Option.map_none]

theorem setVaultByte_of_unhomed {d : Device} {a : Nat} (h : d.homedByte a = none) (b : Byte) :
    d.setVaultByte a b = withVault d (d.vault.write a b) := by
  rw [Device.setVaultByte, setHomed_of_unhomed h, Option.getD_none, withVault]

theorem vaultByte_of_keyByte {d : Device} {o : Nat} {b : Byte} (h : d.slots.keyByte o = some b) : d.vaultByte (sharedBase + o) = b := by
  rw [Device.vaultByte, Device.homedByte, if_neg (by omega), Nat.add_sub_cancel_left, h, Option.some_or, Option.getD_some]

theorem setVaultByte_of_keyed {d : Device} {o : Nat} {b : Byte} {y : Slots} (h : d.slots.withKeyByte o b = some y) :
    d.setVaultByte (sharedBase + o) b = withSlots d y := by
  rw [Device.setVaultByte, Device.setHomed, if_neg (by omega), Nat.add_sub_cancel_left, h]
  rfl

/-! ### A byte of a key state -/

/-- The key state that a slot belongs to begins at it or below, and a new record of it is found from the same slot (R246, R247). -/
theorem stateAt_set {x : Slots} {n s a : Nat} {i u : Bytes} (h : x.stateAt n = some (s, a, i, u)) (i' u' : Bytes) :
    s ≤ n ∧ ({ x with slots := Map.set x.slots s (.first a i' u') } : Slots).stateAt n = some (s, a, i', u') := by
  unfold Slots.stateAt at h
  split at h
  · cases h
    exact ⟨Nat.le_refl _, by simp [Slots.stateAt]⟩
  · next hc =>
    split at h
    · next hf =>
      cases h
      have hne : n / 4 * 4 ≠ n := fun e => by rw [e, hc] at hf; cases hf
      exact ⟨by omega, by simp [Slots.stateAt, Map.get?_set_of_ne _ _ hne, hc]⟩
    · cases h
  · cases h

/-- A byte of a key state is written, and the other bytes of its slot are as they were. -/
theorem withKeyByte_of_some {x : Slots} {o : Nat} (h : (x.keyByte o).isSome = true) (b : Byte) :
    ∃ y, x.withKeyByte o b = some y ∧ y.keyByte o = some b ∧ ∀ o', o' / 128 = o / 128 → o' ≠ o → y.keyByte o' = x.keyByte o' := by
  cases hs : x.stateAt (o / 128) with
  | none => simp [Slots.keyByte, hs] at h
  | some k =>
    obtain ⟨s, a, i, u⟩ := k
    have hk : o - 128 * s < ((i ++ u).set (o - 128 * s) b).length := by simpa [Slots.keyByte, hs] using h
    obtain ⟨hle, hst⟩ := stateAt_set hs (((i ++ u).set (o - 128 * s) b).take i.length) (((i ++ u).set (o - 128 * s) b).drop i.length)
    refine ⟨_, by simp only [Slots.withKeyByte, hs, if_pos hk]; rfl, ?_, fun o' ho hne => ?_⟩
    · simp only [Slots.keyByte, hst, List.take_append_drop]
      exact List.getElem?_set_self (by simpa using hk)
    · simp only [Slots.keyByte, ho, hst, hs, List.take_append_drop]
      exact List.getElem?_set_ne (by omega)

/-! ### A byte string in vault memory -/

/-- The bytes of a string written to vault memory in order from an address on. -/
def putBytes (d : Device) (a : Nat) : Bytes → Device
  | [] => d
  | b :: r => putBytes (d.setVaultByte a b) (a + 1) r

theorem foldl_setVaultByte (a : Nat) : ∀ (bs : Bytes) (d : Device) (k : Nat),
    (bs.zipIdx k).foldl (fun d e => d.setVaultByte (a + e.2) e.1) d = putBytes d (a + k) bs
  | [], _, _ => rfl
  | b :: r, d, k => by rw [List.zipIdx_cons, List.foldl_cons, foldl_setVaultByte a r, putBytes, Nat.add_assoc]

/-- A word of the window is written byte by byte (R30). -/
theorem vaultWrite_of_right {d : Device} (h : d.right 1 = true) (off v : Nat) :
    d.vaultWrite off v = putBytes d (d.vaultAddr off) (leBytes v 4) := by
  rw [Device.vaultWrite, if_neg (by simp [h]), foldl_setVaultByte, Nat.add_zero]

theorem putBytes_unhomed : ∀ {bs : Bytes} {d : Device} {a : Nat}, (∀ i < bs.length, d.homedByte (a + i) = none) →
    putBytes d a bs = withVault d (d.vault.writeN a bs)
  | [], _, _, _ => rfl
  | b :: r, d, a, h => by
    have h0 : d.homedByte a = none := h 0 (Nat.zero_lt_succ _)
    rw [putBytes, setVaultByte_of_unhomed h0, putBytes_unhomed]
    · rfl
    · intro i hi
      rw [homedByte_withVault, show a + 1 + i = a + (i + 1) by omega]
      exact h (i + 1) (Nat.succ_lt_succ hi)

/-- Bytes written to a slot of a key state stand there, and the bytes before them in that slot are as they were. -/
theorem putBytes_keyed : ∀ {bs : Bytes} {d : Device} {o n : Nat}, (∀ i < bs.length, (o + i) / 128 = n ∧ (d.slots.keyByte (o + i)).isSome = true) →
    ∃ y, putBytes d (sharedBase + o) bs = withSlots d y ∧ (∀ i < bs.length, y.keyByte (o + i) = some (nth bs i 0)) ∧
      ∀ o' < o, o' / 128 = n → y.keyByte o' = d.slots.keyByte o'
  | [], d, _, _, _ => ⟨d.slots, rfl, nofun, fun _ _ _ => rfl⟩
  | b :: r, d, o, n, h => by
    obtain ⟨hn, hsome⟩ := h 0 (Nat.zero_lt_succ _)
    obtain ⟨x, hx, hxo, hxne⟩ := withKeyByte_of_some hsome b
    simp only [Nat.add_zero] at hn hx hxo hxne
    obtain ⟨y, hy, hin, hbefore⟩ := putBytes_keyed (bs := r) (d := withSlots d x) (o := o + 1) (n := n) fun i hi => by
      obtain ⟨hin, his⟩ := h (i + 1) (Nat.succ_lt_succ hi)
      rw [show o + (i + 1) = o + 1 + i by omega] at hin his
      exact ⟨hin, by rw [show (withSlots d x).slots = x from rfl, hxne _ (hin.trans hn.symm) (by omega)]; exact his⟩
    refine ⟨y, by rw [putBytes, setVaultByte_of_keyed hx, Nat.add_assoc, hy]; rfl, fun i hi => ?_, fun o' ho hon => ?_⟩
    · cases i with
      | zero => exact (hbefore o (Nat.lt_succ_self o) hn).trans hxo
      | succ i =>
        rw [show o + (i + 1) = o + 1 + i by omega]
        exact hin i (Nat.lt_of_succ_lt_succ hi)
    · exact (hbefore o' (by omega) hon).trans (hxne o' (hon.trans hn.symm) (by omega))

/-! ### What a write may change -/

theorem changesOnly_of_setHomed {d e : Device} {a : Nat} {b : Byte} (h : d.setHomed a b = some e) :
    changesOnly [.vault, .leaves, .slots, .turns] d e := by
  unfold Device.setHomed at h
  split at h
  · dsimp only at h
    split at h
    · cases h
    · obtain ⟨x, -, rfl⟩ := Option.map_eq_some_iff.1 h
      exact (changesOnly_setLeaf _ _ _).mono (by decide)
  · split at h
    · cases h
      exact (changesOnly_slots _ _).mono (by decide)
    · obtain ⟨p, -, rfl⟩ := Option.map_eq_some_iff.1 h
      exact (changesOnly_onTurn _ _ _).mono (by decide)

theorem changesOnly_setVaultByte (d : Device) (a : Nat) (b : Byte) : changesOnly [.vault, .leaves, .slots, .turns] d (d.setVaultByte a b) := by
  unfold Device.setVaultByte
  cases h : d.setHomed a b with
  | none => exact (changesOnly_vault _ _).mono (by decide)
  | some e => exact changesOnly_of_setHomed h

theorem changesOnly_putBytes : ∀ (bs : Bytes) (d : Device) (a : Nat), changesOnly [.vault, .leaves, .slots, .turns] d (putBytes d a bs)
  | [], _, _ => changesOnly.refl _ _
  | b :: r, d, a => (changesOnly_setVaultByte d a b).trans (changesOnly_putBytes r _ (a + 1))

end Sys2Proof.Safety
end

section
/-! The clauses of DebugReadsNeedTheirRights: the vault window (R30), the micro-trace (R404, R407) and the raw noise buffer (R297, R300), each with
and without its right (R333). -/

namespace Sys2Proof.Safety

open Sys2Proof.Machine

/-! ### The vault window -/

theorem pairLo_of_inVault {off : Nat} (h : inVault off = true) : pairLo off = false := by
  obtain ⟨hlo, _⟩ : 0x800000 ≤ off ∧ off < 0x1000000 := by simpa [inVault] using h
  unfold pairLo
  dsimp only
  rw [if_neg (by omega)]
  split <;> try omega
  rfl

theorem regRead_of_inVault {s : State} (h : hostOpen s) {off : Nat} (hv : inVault off = true) : s.dev.regRead off = s.dev.vaultRead off := by
  simp [Device.regRead, blockServed_of_hostOpen h, hv]

theorem exec_vaultWindowWrite {s : State} (h : hostOpen s) {off : Nat} (hv : inVault off = true) (ho : off % 4 = 0) (v : Word) :
    exec (.vaultWindowWrite { off := off } v) s = run s true (s.dev.vaultWrite off v.toNat) :=
  congrArg (run s true) (hostWrite_vault h ho hv v.toNat)

theorem length_leBytes (v n : Nat) : (leBytes v n).length = n := by
  induction n generalizing v with
  | zero => rfl
  | succ n ih => rw [leBytes, List.length_cons, ih]

/-- A window address is that of an aligned word of vault memory (R31). -/
theorem vaultAddr_aligned (d : Device) {off : Nat} (ho : off % 4 = 0) : d.vaultAddr off % 4 = 0 := by
  unfold Device.vaultAddr; omega

theorem exec_vaultRead (off : Nat) (s : State) (h : hostOpen s) (hv : inVault off = true) (ho : off % 4 = 0) (hn : noShadow s off)
    (hr : s.dev.right 0 = true) : exec (.vaultWindowRead { off := off }) s = .next { s with dev := s.dev.emit (.readData
      (leNat ((List.range 4).map fun i => s.dev.vaultByte (s.dev.vaultAddr off + i)))) } := by
  have hread : s.dev.regRead off = (leNat ((List.range 4).map fun i => s.dev.vaultByte (s.dev.vaultAddr off + i)), s.dev) := by
    simp [regRead_of_inVault h hv, Device.vaultRead, hr]
  have hd : s.dev.hostRead off {} = Device.replies (leNat ((List.range 4).map fun i => s.dev.vaultByte (s.dev.vaultAddr off + i)), s.dev) := by
    rw [hostRead_word h ho, pairRead_plain (pairLo_of_inVault hv) (by simpa [hread] using hn), hread]
  exact (congrArg (run s true) hd).trans (run_keepsPerm rfl)

theorem exec_vaultRead_denied (off : Nat) (s : State) (h : hostOpen s) (hv : inVault off = true) (ho : off % 4 = 0) (hn : noShadow s off)
    (hr : s.dev.right 0 = false) : ∃ t, exec (.vaultWindowRead { off := off }) s = .next t ∧ t.dev.out.getLast? = some (.readData 0) ∧
      deniedIn s t ∧ keepsRest [.hs, .fc, .ul, .out] s t := by
  have hread : s.dev.regRead off = (0, s.dev.denied) := by simp [regRead_of_inVault h hv, Device.vaultRead, hr]
  have hp : s.dev.denied.pairs = s.dev.pairs := changesOnly_denied s.dev .pairs (by decide)
  have hd : s.dev.hostRead off {} = Device.replies (0, s.dev.denied) := by
    rw [hostRead_word h ho, pairRead_plain (pairLo_of_inVault hv) (by simpa [hread, hp] using hn), hread]
  obtain ⟨t, e, rest⟩ := run_denied_read s
  exact ⟨t, (congrArg (run s true) hd).trans e, rest⟩

theorem exec_vaultWrite_memory (off : Nat) (v : Word) (s : State) (h : hostOpen s) (hv : inVault off = true) (ho : off % 4 = 0)
    (hr : s.dev.right 1 = true) (hw : s.dev.vault.wf = true) (hu : ∀ i < 4, s.dev.homedByte (s.dev.vaultAddr off + i) = none) :
    ∃ t, exec (.vaultWindowWrite { off := off } v) s = .next t ∧
      (∀ i < 4, t.dev.vaultByte (s.dev.vaultAddr off + i) = nth (leBytes v.toNat 4) i 0) ∧
      (∀ a, a < s.dev.vaultAddr off ∨ s.dev.vaultAddr off + 4 ≤ a → t.dev.vaultByte a = s.dev.vaultByte a) ∧ keepsRest [.vault] s t := by
  obtain ⟨e, k⟩ := run_of_changesOnly (s := s) rfl (by decide)
    (changesOnly_vault s.dev (s.dev.vault.writeN (s.dev.vaultAddr off) (leBytes v.toNat 4)))
  refine ⟨_, ?_, fun i hi => ?_, fun a ha => ?_, k⟩
  · rw [exec_vaultWindowWrite h hv ho, vaultWrite_of_right hr, putBytes_unhomed (by simpa [length_leBytes] using hu)]
    exact e
  · exact (congrArg (Option.getD · _) (hu i hi)).trans (read_writeN_inside hw (by simpa [length_leBytes] using hi))
  · exact congrArg (s.dev.homedByte a).getD (Mem.read_writeN_of_outside _ _ _ _ (by simpa [length_leBytes] using ha))

theorem exec_vaultWrite_keyed (off : Nat) (v : Word) (s : State) (h : hostOpen s) (hv : inVault off = true) (ho : off % 4 = 0)
    (hr : s.dev.right 1 = true) (hb : sharedBase ≤ s.dev.vaultAddr off)
    (hk : ∀ i < 4, (s.dev.slots.keyByte (s.dev.vaultAddr off + i - sharedBase)).isSome = true) :
    ∃ t, exec (.vaultWindowWrite { off := off } v) s = .next t ∧
      (∀ i < 4, t.dev.vaultByte (s.dev.vaultAddr off + i) = nth (leBytes v.toNat 4) i 0) ∧ keepsRest [.slots] s t := by
  obtain ⟨o, hoff⟩ := Nat.exists_eq_add_of_le hb
  have hal : o % 4 = 0 := by
    have := vaultAddr_aligned s.dev ho
    simp only [sharedBase] at hoff
    omega
  obtain ⟨y, hy, hin, -⟩ := putBytes_keyed (bs := leBytes v.toNat 4) (d := s.dev) (o := o) (n := o / 128) fun i hi => by
    rw [length_leBytes] at hi
    have his := hk i hi
    rw [hoff, Nat.add_assoc, Nat.add_sub_cancel_left] at his
    exact ⟨by omega, his⟩
  obtain ⟨e, k⟩ := run_of_changesOnly (s := s) rfl (by decide) (changesOnly_slots s.dev y)
  refine ⟨_, ?_, fun i hi => ?_, k⟩
  · rw [exec_vaultWindowWrite h hv ho, vaultWrite_of_right hr, hoff, hy]
    exact e
  · rw [hoff, Nat.add_assoc]
    exact vaultByte_of_keyByte (d := withSlots s.dev y) (hin i (by simpa [length_leBytes] using hi))

theorem exec_vaultWrite_frame (off : Nat) (v : Word) (s : State) (h : hostOpen s) (hv : inVault off = true) (ho : off % 4 = 0)
    (hr : s.dev.right 1 = true) : ∃ t, exec (.vaultWindowWrite { off := off } v) s = .next t ∧ keepsRest [.vault, .leaves, .slots, .turns] s t := by
  obtain ⟨e, k⟩ := run_of_changesOnly (s := s) rfl (by decide) (changesOnly_putBytes (leBytes v.toNat 4) s.dev (s.dev.vaultAddr off))
  exact ⟨_, by rw [exec_vaultWindowWrite h hv ho, vaultWrite_of_right hr, e], k⟩

theorem exec_vaultWrite_denied (off : Nat) (v : Word) (s : State) (h : hostOpen s) (hv : inVault off = true) (ho : off % 4 = 0)
    (hr : s.dev.right 1 = false) : ∃ t, exec (.vaultWindowWrite { off := off } v) s = .next t ∧ t.dev.vault = s.dev.vault ∧ deniedIn s t ∧
      keepsRest [.hs, .fc, .ul, .out] s t := by
  have hd : s.dev.vaultWrite off v.toNat = s.dev.denied := by simp [Device.vaultWrite, hr]
  obtain ⟨t, e, denied, keeps⟩ := run_denied_write s
  exact ⟨t, by rw [exec_vaultWindowWrite h hv ho, hd, e], keeps.2 .vault (by decide), denied, keeps⟩

/-! ### The micro-trace -/

theorem exec_microtraceStart {s : State} (h : hostOpen s) (v : Word) : exec (.microtraceStart v) s = run s true (s.dev.traceCtl v.toNat) := by
  have hd : s.dev.hostWrite 0xC0060 {} v.toNat = s.dev.traceCtl v.toNat := by
    rw [hostWrite_word h (by decide) (by decide), held_of_page (by decide)]
    rfl
  exact congrArg (run s true) hd

theorem exec_traceOn (v : Word) (s : State) (h : hostOpen s) (hr : s.dev.right 5 = true) (hb : bitOf v.toNat 31 = true)
    (hq : field v.toNat 0 8 < 0x32) : ∃ t, exec (.microtraceStart v) s = .next t ∧ t.dev.mc.traceEn = true ∧ t.dev.mc.trace = [] ∧
      t.dev.mc.tracePos = 0 ∧ t.dev.mc.traceSeq = field v.toNat 0 8 ∧ keepsRest [.mc] s t := by
  have hd : s.dev.traceCtl v.toNat =
      { s.dev with mc := { s.dev.mc with traceSeq := field v.toNat 0 8, traceEn := true, trace := [], tracePos := 0 } } := by
    simp [Device.traceCtl, hr, hb, Nat.not_le.2 hq]
  obtain ⟨e, k⟩ := run_of_changesOnly (s := s) rfl (by decide) (changesOnly_mc s.dev _)
  exact ⟨_, (exec_microtraceStart h v).trans ((congrArg (run s true) hd).trans e), rfl, rfl, rfl, rfl, k⟩

theorem exec_traceOff (v : Word) (s : State) (h : hostOpen s) (hr : s.dev.right 5 = true)
    (hb : bitOf v.toNat 31 = false ∨ 0x32 ≤ field v.toNat 0 8) : ∃ t, exec (.microtraceStart v) s = .next t ∧ t.dev.mc.traceEn = false ∧
      t.dev.mc.trace = s.dev.mc.trace ∧ keepsRest [.mc] s t := by
  have hd : s.dev.traceCtl v.toNat = { s.dev with mc := { s.dev.mc with traceSeq := field v.toNat 0 8, traceEn := false } } := by
    simp [Device.traceCtl, hr, hb]
  obtain ⟨e, k⟩ := run_of_changesOnly (s := s) rfl (by decide) (changesOnly_mc s.dev _)
  exact ⟨_, (exec_microtraceStart h v).trans ((congrArg (run s true) hd).trans e), rfl, rfl, k⟩

theorem exec_trace_denied (v : Word) (s : State) (h : hostOpen s) (hr : s.dev.right 5 = false) :
    ∃ t, exec (.microtraceStart v) s = .next t ∧ deniedIn s t ∧ keepsRest [.hs, .fc, .ul, .out] s t := by
  have hd : s.dev.traceCtl v.toNat = s.dev.denied := by simp [Device.traceCtl, hr]
  obtain ⟨t, e, rest⟩ := run_denied_write s
  exact ⟨t, by rw [exec_microtraceStart h, hd, e], rest⟩

theorem exec_traceRead (s : State) (h : hostOpen s) (hn : noShadow s 0xC0064) : ∃ t v, exec .microtraceRead s = .next t ∧
    t.dev.out = s.dev.out ++ [.readData v] ∧
    v = (nth s.dev.mc.trace s.dev.mc.tracePos (0, 0)).1 * 65536 + (nth s.dev.mc.trace s.dev.mc.tracePos (0, 0)).2 ∧
    (s.dev.mc.trace.length ≤ s.dev.mc.tracePos → v = 0) ∧ t.dev.mc = { s.dev.mc with tracePos := (s.dev.mc.tracePos + 1) % 4096 } ∧
    keepsRest [.mc, .out] s t := by
  have hread : s.dev.regRead 0xC0064 = s.dev.traceCore := by
    simp [Device.regRead, blockServed_of_hostOpen h, held_of_page, inVault]
  have hd : s.dev.hostRead 0xC0064 {} = Device.replies s.dev.traceCore := by
    rw [hostRead_word h (by decide), pairRead_plain (by decide) (by rw [hread]; exact hn), hread]
  obtain ⟨e, k⟩ := run_of_changesOnly (s := s) rfl (by decide)
    (changesOnly_replies (ps := [.mc, .out]) (r := s.dev.traceCore) ((changesOnly_mc _ _).mono (by decide)) (by decide))
  exact ⟨_, _, (congrArg (run s true) hd).trans e, rfl, rfl, fun hp => by simp [Device.traceCore, nth, hp], rfl, k⟩

/-! ### The raw noise buffer -/

theorem exec_rawDataRead {s : State} (h : hostOpen s) (hb : .entropy ∉ s.dev.fc.resets) :
    exec .nsRawDataRead s = run s true (Device.replies s.dev.rawCore) := by
  obtain ⟨hs, hsh, hrom, hscr⟩ := h
  have hd : s.dev.rawRead = Device.replies s.dev.rawCore := by simp [Device.rawRead, hs, hsh, hrom, hscr, hb, Device.replies]
  exact congrArg (run s true) hd

theorem exec_rawData (s : State) (h : hostOpen s) (hb : .entropy ∉ s.dev.fc.resets) (ha : s.dev.rawAllowed = true) :
    ∃ t, exec .nsRawDataRead s = .next t ∧ t.dev.out = s.dev.out ++ [.readData s.dev.ns.rawData] ∧
      t.dev.ns = { s.dev.ns with rawAddr := (s.dev.ns.rawAddr + 1) % 2 ^ 18 } ∧ keepsRest [.ns, .out] s t := by
  have hc : s.dev.rawCore = (s.dev.ns.rawData, s.dev.onNs fun n => { n with rawAddr := (n.rawAddr + 1) % 2 ^ 18 }) := by
    simp [Device.rawCore, ha]
  obtain ⟨e, k⟩ := run_of_changesOnly (s := s) rfl (by decide)
    (changesOnly_replies (ps := [.ns, .out]) (r := (s.dev.ns.rawData, s.dev.onNs _)) ((changesOnly_onNs _ _).mono (by decide)) (by decide))
  exact ⟨_, by rw [exec_rawDataRead h hb, hc, e], rfl, rfl, k⟩

theorem exec_rawData_denied (s : State) (h : hostOpen s) (hb : .entropy ∉ s.dev.fc.resets) (ha : s.dev.rawAllowed = false) :
    ∃ t, exec .nsRawDataRead s = .next t ∧ t.dev.out.getLast? = some (.readData 0) ∧ deniedIn s t ∧ keepsRest [.hs, .fc, .ul, .out] s t := by
  have hc : s.dev.rawCore = (0, s.dev.denied) := by simp [Device.rawCore, ha]
  obtain ⟨t, e, rest⟩ := run_denied_read s
  exact ⟨t, by rw [exec_rawDataRead h hb, hc, e], rest⟩

/-- Settles O23, clause by clause: the vault window, the micro-trace and the raw noise buffer, with and without their rights. -/
theorem debugReadsNeedTheirRights : Obligations.DebugReadsNeedTheirRights :=
  ⟨exec_vaultRead, exec_vaultRead_denied, exec_vaultWrite_memory, exec_vaultWrite_keyed, exec_vaultWrite_frame, exec_vaultWrite_denied,
    exec_traceOn, exec_traceOff, exec_trace_denied, exec_traceRead, exec_rawData, exec_rawData_denied⟩

end Sys2Proof.Safety
end

section
/-! Leaf window writes (R18, R32, R34, R35, R40, R58, R69, R92): doorbells and LF_STATUS. -/

namespace Sys2Proof.Safety

open Sys2Proof.Machine

/-! ### What a leaf's registers hold after an event of it -/

/-- Leaves are the same where the part `leaves` is. -/
theorem leaf_of_changesOnly {ps : List Part} {d e : Device} (h : changesOnly ps d e) (hp : Part.leaves ∉ ps) (l : Nat) : e.leaf l = d.leaf l :=
  congrArg (fun x : Map Leaf => Map.getD x l {}) (h .leaves hp)

@[simp] theorem leaf_leafStatus (d : Device) (l bits : Nat) :
    (d.leafStatus l bits).leaf l = { d.leaf l with status := (d.leaf l).status ||| bits } :=
  (leaf_of_changesOnly (changesOnly_when (changesOnly_leafMsi _ _ _ _)) (by decide) l).trans (Device.leaf_onLeaf _ _ _)

@[simp] theorem leaf_leafCause (d : Device) (l bits : Nat) :
    (d.leafCause l bits).leaf l = { d.leaf l with causes := (d.leaf l).causes ||| bits } :=
  (leaf_of_changesOnly (changesOnly_when (changesOnly_hingeMsi _ _)) (by decide) l).trans (Device.leaf_onLeaf _ _ _)

/-! ### Acting on a doorbell (R69) -/

theorem changesOnly_joinFetch (d : Device) (l q : Nat) : changesOnly [.sc] d (d.joinFetch l q) :=
  changesOnly.ite _ (changesOnly.refl _ _) (changesOnly_sc _ _)

theorem changesOnly_wakeLeaf (d : Device) (l : Nat) : changesOnly [.sc] d (d.wakeLeaf l) :=
  changesOnly.ite _ (changesOnly.refl _ _) (changesOnly_sc _ _)

/-- The device with the pointers of a queue set (R69). -/
def setPointers (d : Device) (l q tail head : Nat) : Device := d.onLeaf l fun x => x.onQueue q fun k => { k with sqTail := tail, cqHead := head }

theorem leaf_setPointers (d : Device) (l q tail head : Nat) :
    (setPointers d l q tail head).leaf l = (d.leaf l).onQueue q fun k => { k with sqTail := tail, cqHead := head } := Device.leaf_onLeaf _ _ _

/-- A doorbell of a running queue with both pointers inside their rings sets them; the rest of its work is the scheduler's lists (R69, R172). -/
theorem actDoorbell_of_inRange {d : Device} {l q v : Nat} (he : ((d.leaf l).queue q).en = true) (hs : ((d.leaf l).queue q).stopped = false)
    (ht : field v 0 16 < 2 ^ ((d.leaf l).queue q).sqLog) (hh : field v 16 16 < 2 ^ ((d.leaf l).queue q).cqLog) :
    changesOnly [.sc] (setPointers d l q (field v 0 16) (field v 16 16)) (d.actDoorbell l q v) := by
  unfold Device.actDoorbell
  dsimp only
  rw [if_neg (by simp [he, ht, hh]), if_neg (by simp [hs])]
  exact changesOnly.ite _ (changesOnly_joinFetch _ _ _) (changesOnly.ite _ (changesOnly.refl _ _) (changesOnly_wakeLeaf _ _))

/-- A doorbell of a disabled queue or with a pointer past its ring stops the queue (R69). -/
theorem actDoorbell_of_outOfRange {d : Device} {l q v : Nat} (h : ((d.leaf l).queue q).en = false ∨
    2 ^ ((d.leaf l).queue q).sqLog ≤ field v 0 16 ∨ 2 ^ ((d.leaf l).queue q).cqLog ≤ field v 16 16) : d.actDoorbell l q v = d.stopQueue l q := by
  unfold Device.actDoorbell
  dsimp only
  rw [if_pos (by simpa [or_assoc] using h)]

theorem changesOnly_stopQueue (d : Device) (l q : Nat) : changesOnly [.leaves, .ul, .out] d (d.stopQueue l q) :=
  (((changesOnly_onLeaf d l _).mono (by decide)).trans (changesOnly_leafStatus _ l 0x2)).trans (changesOnly_leafCause _ l 0x40)

/-- A stopped queue shows in the leaf's Q_ERR and in its cause (R69). -/
theorem leaf_stopQueue (d : Device) (l q : Nat) : (d.stopQueue l q).leaf l =
    { (d.leaf l).onQueue q fun k => { k with stopped := true } with
      status := (d.leaf l).status ||| 0x2, causes := (d.leaf l).causes ||| 0x40 } := by
  simp [Device.stopQueue, Leaf.onQueue]

/-! ### The rows -/

theorem leafWriteOk_doorbell {q size : Nat} (hq : q < 64) (hs : size = 4 ∨ size = 8) : leafWriteOk (8 * q) size = true := by
  have hlt : 8 * q < 0x200 := by omega
  obtain rfl | rfl := hs
  · simp [leafWriteOk, hlt, show 8 * q % 4 = 0 by omega]
  · simp [leafWriteOk, hlt]

/-- DOORBELL_WRITE of queue `q` acts with the low 32 bits (R32, R69). -/
theorem exec_doorbellWrite {m l q size : Nat} {s : State} (h : windowOpen s m l) (hq : q < 64) (hs : size = 4 ∨ size = 8) (v : DWord) :
    exec (.doorbellWrite m l (8 * q) size v) s = run s (m < 2) (s.dev.doorbell l q (v.toNat % 2 ^ 32)) := by
  have hd : s.dev.leafWrite m l (8 * q) size v.toNat = s.dev.doorbell l q (v.toNat % 2 ^ 32) := by
    rw [Device.leafWrite, leafAccess_of_windowOpen h, leafWriteOk_doorbell hq hs, if_pos rfl, if_pos (by omega), if_neg (by omega),
      Nat.mul_div_cancel_left q (by decide)]
  exact congrArg (run s (m < 2)) hd

theorem doorbell_of_active {d : Device} {l : Nat} (ha : (d.leaf l).state = .active) (hr : (d.leaf l).resetting = false) (q v : Nat) :
    d.doorbell l q v = d.actDoorbell l q v := by simp [Device.doorbell, ha, hr]

/-- SQ_TAIL of a doorbell value (R69). -/
theorem field_tail (v : Nat) : field (v % 2 ^ 32) 0 16 = v % 2 ^ 16 := by
  simp only [field, Nat.shiftRight_eq_div_pow]; omega

/-- CQ_HEAD of a doorbell value (R69). -/
theorem field_head (v : Nat) : field (v % 2 ^ 32) 16 16 = v / 2 ^ 16 % 2 ^ 16 := by
  simp only [field, Nat.shiftRight_eq_div_pow]; omega

theorem exec_doorbell_inRange (m l q size : Nat) (v : DWord) (s : State) (h : windowOpen s m l) (hq : q < 64) (hs : size = 4 ∨ size = 8)
    (ha : (s.dev.leaf l).state = .active) (hr : (s.dev.leaf l).resetting = false) (he : ((s.dev.leaf l).queue q).en = true)
    (hst : ((s.dev.leaf l).queue q).stopped = false) (ht : v.toNat % 2 ^ 16 < 2 ^ ((s.dev.leaf l).queue q).sqLog)
    (hh : v.toNat / 2 ^ 16 % 2 ^ 16 < 2 ^ ((s.dev.leaf l).queue q).cqLog) : ∃ t, exec (.doorbellWrite m l (8 * q) size v) s = .next t ∧
      (t.dev.leaf l).queue q = { (s.dev.leaf l).queue q with sqTail := v.toNat % 2 ^ 16, cqHead := v.toNat / 2 ^ 16 % 2 ^ 16 } ∧
      (t.dev.leaf l).state = .active ∧ keepsRest [.leaves, .sc] s t := by
  have act := actDoorbell_of_inRange (v := v.toNat % 2 ^ 32) he hst (by rwa [field_tail]) (by rwa [field_head])
  rw [field_tail, field_head] at act
  have hl := (leaf_of_changesOnly act (by decide) l).trans (leaf_setPointers _ _ _ _ _)
  obtain ⟨e, k⟩ := run_of_changesOnly (s := s) (decide_eq_true h.1) (by decide) (changesOnly.then (changesOnly_onLeaf s.dev l _) act)
  refine ⟨_, ?_, ?_, ?_, k⟩
  · rw [exec_doorbellWrite h hq hs, doorbell_of_active ha hr, e]
  · rw [hl, Leaf.queue_onQueue]
  · rw [hl]; exact ha

theorem exec_doorbell_outOfRange (m l q size : Nat) (v : DWord) (s : State) (h : windowOpen s m l) (hq : q < 64) (hs : size = 4 ∨ size = 8)
    (ha : (s.dev.leaf l).state = .active) (hr : (s.dev.leaf l).resetting = false)
    (hbad : ((s.dev.leaf l).queue q).en = false ∨ 2 ^ ((s.dev.leaf l).queue q).sqLog ≤ v.toNat % 2 ^ 16 ∨
      2 ^ ((s.dev.leaf l).queue q).cqLog ≤ v.toNat / 2 ^ 16 % 2 ^ 16) : ∃ t, exec (.doorbellWrite m l (8 * q) size v) s = .next t ∧
      (t.dev.leaf l).queue q = { (s.dev.leaf l).queue q with stopped := true } ∧ (t.dev.leaf l).status = (s.dev.leaf l).status ||| 0x2 ∧
      (t.dev.leaf l).causes = (s.dev.leaf l).causes ||| 0x40 ∧ keepsRest [.leaves, .ul, .out] s t := by
  obtain ⟨e, k⟩ := run_of_changesOnly (s := s) (decide_eq_true h.1) (by decide) (changesOnly_stopQueue s.dev l q)
  refine ⟨_, ?_, ?_, ?_, ?_, k⟩
  · rw [exec_doorbellWrite h hq hs, doorbell_of_active ha hr, actDoorbell_of_outOfRange (by rwa [field_tail, field_head]), e]
  · rw [leaf_stopQueue]; exact Leaf.queue_onQueue (s.dev.leaf l) q fun k => { k with stopped := true }
  · rw [leaf_stopQueue]
  · rw [leaf_stopQueue]

theorem exec_doorbell_quiesced (m l q size : Nat) (v : DWord) (s : State) (h : windowOpen s m l) (hq : q < 64) (hs : size = 4 ∨ size = 8)
    (ha : (s.dev.leaf l).state = .quiescing ∨ (s.dev.leaf l).state = .quiesced) (hr : (s.dev.leaf l).resetting = false) :
    ∃ t, exec (.doorbellWrite m l (8 * q) size v) s = .next t ∧ Map.get? (t.dev.leaf l).latched q = some (v.toNat % 2 ^ 32) ∧
      (t.dev.leaf l).queues = (s.dev.leaf l).queues ∧ keepsRest [.leaves] s t := by
  have hd : s.dev.doorbell l q (v.toNat % 2 ^ 32) =
      s.dev.onLeaf l fun x => { x with latched := Map.set x.latched q (v.toNat % 2 ^ 32) } := by
    obtain ha | ha := ha <;> simp [Device.doorbell, ha, hr]
  obtain ⟨e, k⟩ := run_of_changesOnly (s := s) (decide_eq_true h.1) (by decide)
    (changesOnly_onLeaf s.dev l fun x => { x with latched := Map.set x.latched q (v.toNat % 2 ^ 32) })
  refine ⟨_, ?_, ?_, ?_, k⟩
  · rw [exec_doorbellWrite h hq hs, hd, e]
  · rw [Device.leaf_onLeaf]; exact Map.get?_set_self _ _ _
  · rw [Device.leaf_onLeaf]

theorem exec_leafWrite_stray (m l off size : Nat) (v : DWord) (s : State) (hm : m < 2) (hs : s.dev.serves m = true)
    (hl : s.dev.leafHit m l = false) : exec (.doorbellWrite m l off size v) s = .next { s with dev := s.dev.raiseSrc 1233 } := by
  obtain ⟨e, _⟩ := run_of_changesOnly (s := s) (decide_eq_true hm) (by decide) (changesOnly_raiseSrc s.dev 1233)
  exact (congrArg (run s (m < 2)) (leafAccess_of_stray hs hl _ _)).trans e

theorem exec_leafWrite_bad (m l off size : Nat) (v : DWord) (s : State) (h : windowOpen s m l) (hb : leafWriteOk off size = false) :
    ∃ t, exec (.doorbellWrite m l off size v) s = .next t ∧ (t.dev.leaf l).status = (s.dev.leaf l).status ||| 1 ∧
      keepsRest [.leaves, .ul, .out] s t := by
  have hd : s.dev.leafWrite m l off size v.toNat = s.dev.leafStatus l 1 := by
    rw [Device.leafWrite, leafAccess_of_windowOpen h, hb]
    rfl
  obtain ⟨e, k⟩ := run_of_changesOnly (s := s) (decide_eq_true h.1) (by decide) (changesOnly_leafStatus s.dev l 1)
  exact ⟨_, (congrArg (run s (m < 2)) hd).trans e, congrArg Leaf.status (leaf_leafStatus _ _ _), k⟩

theorem exec_lfStatusClear (m l : Nat) (v : Word) (s : State) (h : windowOpen s m l) : ∃ t, exec (.lfStatusClear m l v) s = .next t ∧
    (t.dev.leaf l).status = clearBits (s.dev.leaf l).status (v.toNat &&& 0x17) ∧ keepsRest [.leaves] s t := by
  obtain ⟨e, k⟩ := run_of_changesOnly (s := s) (decide_eq_true h.1) (by decide)
    (changesOnly_onLeaf s.dev l fun x => { x with status := clearBits x.status (v.toNat &&& 0x17) })
  exact ⟨_, (congrArg (run s (m < 2)) (leafAccess_of_windowOpen h false true _)).trans e, congrArg Leaf.status (Device.leaf_onLeaf _ _ _), k⟩

/-- Settles O25, clause by clause: doorbells inside and outside their rings and of a quiesced leaf, stray and bad accesses, and LF_STATUS. -/
theorem leafWindowWrites : Obligations.LeafWindowWrites :=
  ⟨exec_doorbell_inRange, exec_doorbell_outOfRange, exec_doorbell_quiesced, exec_leafWrite_stray, exec_leafWrite_bad, exec_lfStatusClear⟩

end Sys2Proof.Safety
end

section
/-! Decoding of encoded Zaxus words, and the cell fields of a word (R99, R100, R126). -/

namespace Sys2Proof.Safety

open Sys2Proof.Machine

/-! ### The fields of an encoded word (R99) -/

theorem op_lt (k : ZKind) : k.op < 256 := by cases k <;> decide

/-- The fields of a word lie side by side (R99). -/
theorem encode_toNat {z : ZInstr} (hv : z.var < 256) (hd : z.dst < 256) (ha : z.a < 256) (hb : z.b < 256) (hi : z.imm < 2 ^ 24) :
    z.encode.toNat = z.kind.op * 2 ^ 56 + z.var * 2 ^ 48 + z.dst * 2 ^ 40 + z.a * 2 ^ 32 + z.b * 2 ^ 24 + z.imm := by
  have ho := op_lt z.kind
  simp only [ZInstr.encode, at_, BitVec.toNat_ofNat, Nat.shiftLeft_eq]
  omega

/-- What decode says of an encoded word of a defined pair: its cell fields alone decide (R98, R99). -/
theorem decodeWord_encode {z : ZInstr} (hv : z.var < 256) (hd : z.dst < 256) (ha : z.a < 256) (hb : z.b < 256) (hi : z.imm < 2 ^ 24)
    (hc : classify z.kind.op z.var z.imm = .ok z.kind) :
    decodeWord z.encode = if z.cellsOk then .ok z else .error St.badCell := by
  have ho := op_lt z.kind
  have n := encode_toNat hv hd ha hb hi
  have fields : field z.encode.toNat 56 8 = z.kind.op ∧ field z.encode.toNat 48 8 = z.var ∧ field z.encode.toNat 40 8 = z.dst ∧
      field z.encode.toNat 32 8 = z.a ∧ field z.encode.toNat 24 8 = z.b ∧ field z.encode.toNat 0 24 = z.imm := by
    simp only [field, n, Nat.shiftRight_eq_div_pow]
    omega
  obtain ⟨fo, fv, fd, fa, fb, fi⟩ := fields
  simp only [decodeWord, fo, fv, fd, fa, fb, fi, hc]

/-! ### The cell fields (R100, R126, R159) -/

/-- A signature of a defined set takes a cell at least (R159). -/
theorem slhRun_pos {set : Nat} (h : set < 12) : 0 < slhRun set := by
  revert set; decide

/-- The set of a defined SLH-DSA word is one of the twelve (R158). -/
theorem slh_set_lt {z : ZInstr} (hk : z.kind = .slhSign ∨ z.kind = .slhVerify) (hc : classify z.kind.op z.var z.imm = .ok z.kind) :
    field z.var 0 4 < 12 := by
  refine Decidable.byContradiction fun hn => ?_
  rcases hk with hk | hk <;> simp [hk, ZKind.op, classify, okIf, varIn, hn] at hc

/-- DST is among the cells that a word writes or reads through it. -/
theorem dst_mem_dstCells {z : ZInstr} (hc : classify z.kind.op z.var z.imm = .ok z.kind) : z.dst ∈ z.dstCells := by
  by_cases hk : z.kind = .slhSign ∨ z.kind = .slhVerify
  · have run : z.dstCells = (List.range (slhRun (field z.var 0 4))).map (z.dst + ·) := by
      rcases hk with hk | hk <;> simp [ZInstr.dstCells, hk]
    rw [run]
    exact List.mem_map.mpr ⟨0, List.mem_range.mpr (slhRun_pos (slh_set_lt hk hc)), rfl⟩
  · have one : z.dstCells = [z.dst] := by
      rw [not_or] at hk
      unfold ZInstr.dstCells
      split
      · exact absurd ‹_› hk.1
      · exact absurd ‹_› hk.2
      · rfl
    simp [one]

/-- The instructions that R126 excepts. -/
abbrev mayRepeatCells (k : ZKind) : Prop := [ZKind.xor, .blkEnc, .blkDec, .ghash].contains k = true

theorem mayRepeatCells_iff {k : ZKind} : mayRepeatCells k ↔ k = .xor ∨ k = .blkEnc ∨ k = .blkDec ∨ k = .ghash := by simp [mayRepeatCells]

theorem dstCells_of_mayRepeatCells {z : ZInstr} (h : mayRepeatCells z.kind) : z.dstCells = [z.dst] := by
  rcases mayRepeatCells_iff.mp h with hk | hk | hk | hk <;> simp [ZInstr.dstCells, hk]

/-- A field that fits its role names a cell or holds 0xFF (R100). -/
theorem cell_or_unused_of_fits {r : Role} {f : Nat} (h : r.fits f = true) : f < 32 ∨ f = 0xFF := by
  cases r <;> simp [Role.fits] at h <;> omega

/-- A written cell stands in another field of the word (R126). -/
def repeatsWritten (z : ZInstr) : Prop :=
  (z.roles.1.writes = true ∧ ((z.roles.2.1 ≠ .none ∧ z.dst = z.a) ∨ (z.roles.2.2 ≠ .none ∧ z.dst = z.b))) ∨
  (z.roles.2.1.writes = true ∧ ((z.roles.1 ≠ .none ∧ z.dst = z.a) ∨ (z.roles.2.2 ≠ .none ∧ z.a = z.b)))

theorem cellsOk_of_repeatsWritten {z : ZInstr} (hc : classify z.kind.op z.var z.imm = .ok z.kind) (he : ¬ mayRepeatCells z.kind)
    (h : repeatsWritten z) : z.cellsOk = false := by
  have hd := dst_mem_dstCells hc
  rw [← Bool.not_eq_true]
  intro ok
  simp only [ZInstr.cellsOk, Bool.not_eq_true _ ▸ he, Bool.false_or, Bool.and_eq_true, Bool.or_eq_true, Bool.not_eq_true', beq_iff_eq,
    bne_iff_ne, List.contains_eq_mem, decide_eq_false_iff_not] at ok
  obtain ⟨_, dstAlone, srcaAlone⟩ := ok
  rcases h with ⟨w, ⟨r, e⟩ | ⟨r, e⟩⟩ | ⟨w, ⟨r, e⟩ | ⟨r, e⟩⟩
  · exact (dstAlone.resolve_left (by simp [w])).1.elim r fun out => out (e ▸ hd)
  · exact (dstAlone.resolve_left (by simp [w])).2.elim r fun out => out (e ▸ hd)
  · exact (srcaAlone.resolve_left (by simp [w])).1.elim r fun out => out (e ▸ hd)
  · exact (srcaAlone.resolve_left (by simp [w])).2.elim r fun ne => ne e

theorem cellsOk_of_mayRepeatCells {z : ZInstr} (he : mayRepeatCells z.kind) (hd : z.roles.1.fits z.dst = true)
    (ha : z.roles.2.1.fits z.a = true) (hb : z.roles.2.2.fits z.b = true) : z.cellsOk = true := by
  simp [ZInstr.cellsOk, hd, ha, hb, dstCells_of_mayRepeatCells he, cell_or_unused_of_fits hd, mayRepeatCells_iff.mp he]

end Sys2Proof.Safety
end

section
/-! The refusal of a written cell in two fields (R126). -/

namespace Sys2Proof.Safety

open Sys2Proof.Machine

/-- Settles O10: of a word of a defined pair decode judges the cell fields alone, and of these R126 refuses a written cell that stands in
another field but for the four instructions that it excepts. -/
theorem writtenCellInTwoFieldsIsRefused : Obligations.WrittenCellInTwoFieldsIsRefused := by
  constructor
  · intro k var dst a b imm hv hd ha hb hi hc he repeated
    rw [decodeWord_encode hv hd ha hb hi hc, cellsOk_of_repeatsWritten hc (by simpa using he) repeated]
    rfl
  · intro z he hv hi hc fd fa fb
    have hd := cell_or_unused_of_fits fd
    have ha := cell_or_unused_of_fits fa
    have hb := cell_or_unused_of_fits fb
    rw [decodeWord_encode hv (by omega) (by omega) (by omega) hi hc, cellsOk_of_mayRepeatCells he fd fa fb]
    rfl

end Sys2Proof.Safety
end

section
/-! SUPPORT. The word at the PC of a turn (R123), the end of a turn outside END (R106, R117), and what is left as it was by both. -/

namespace Sys2Proof.Safety

open Sys2Proof.Machine

/-! ### The word at the PC -/

/-- The word of a row is that of a turn that runs, at its PC (R123). -/
theorem atWord_eq_some {d : Device} {slot : Nat} {k : ZKind} {x : Turn} {z : ZInstr} (h : d.atWord slot k = some (x, z)) :
    Map.get? d.turns slot = some x ∧ x.phase = .exec ∧ z.kind = k := by
  unfold Device.atWord at h
  split at h
  · exact nomatch h
  · rename_i t ht
    split at h
    · exact nomatch h
    · rename_i hp
      split at h
      · split at h
        · rename_i hk
          obtain ⟨rfl, rfl⟩ := Prod.mk.inj (Option.some.inj h)
          exact ⟨ht, Decidable.of_not_not hp, hk⟩
        · exact nomatch h
      · exact nomatch h

theorem at_of_atWord {d : Device} {slot : Nat} {k : ZKind} {w : Turn × ZInstr} (h : d.atWord slot k = some w) : d.at slot k = true := by
  rw [Device.at, h]; rfl

theorem at_of_atWord_none {d : Device} {slot : Nat} {k : ZKind} (h : d.atWord slot k = none) : d.at slot k = false := by
  rw [Device.at, h]; rfl

theorem zissue_of_atWord {d : Device} {slot : Nat} {k : ZKind} {x : Turn} {z : ZInstr} (h : d.atWord slot k = some (x, z)) :
    d.zissue slot k = (d.start slot x z).joinLate slot := by
  rw [Device.zissue, Device.issue, h]

/-- A turn that is not ready, or has not just left a delay list, joins no dispatch set late (R185). -/
theorem joinLate_of_idle {d : Device} {slot : Nat} {x : Turn} (hx : Map.get? d.turns slot = some x) (h : x.woken = false ∨ x.phase ≠ .ready) :
    d.joinLate slot = d := by
  have idle : (x.woken && x.phase == .ready) = false := by rcases h with h | h <;> simp [h]
  simp [Device.joinLate, hx, idle]

/-- A state whose turns differ from those of `s` by a change of one turn. -/
theorem onlyTurn_of_modify {s t : State} {slot : Nat} {x : Turn} (f : Turn → Turn) (hx : Map.get? s.dev.turns slot = some x)
    (ht : t.dev.turns = Map.modify s.dev.turns slot f) : onlyTurn s t slot (f x) := by
  constructor
  · rw [ht, Map.get?_modify_self, hx]; rfl
  · intro n hn
    rw [ht, Map.get?_modify, if_neg hn]

/-! ### What the end of a turn leaves as it was -/

theorem turns_of_changesOnly {ps : List Part} {d e : Device} (h : changesOnly ps d e) (hp : Part.turns ∉ ps) : e.turns = d.turns := h .turns hp

/-- Only a turn that waits for its commit or for its edge has a keyway change to spend (R308). -/
theorem spendChange_of_exec {d : Device} {slot : Nat} {x : Turn} (h : x.phase = .exec) : d.spendChange slot x = d := by
  simp [Device.spendChange, h]

theorem changesOnly_freeSpill (d : Device) (slot : Nat) : changesOnly [.slots] d (d.freeSpill slot) := changesOnly_slots _ _

theorem changesOnly_dlogStart (d : Device) (l : Nat) : changesOnly [.dma0, .out] d (d.dlogStart l) := by
  unfold Device.dlogStart
  split
  · exact changesOnly.refl _ _
  · exact changesOnly_readReq _ 0 _ _ _ _

/-- What logging a write may change (R83, R84). -/
theorem changesOnly_logWrite (d : Device) (l a n : Nat) (slot : Option Nat) :
    changesOnly [.leaves, .dma0, .ul, .out] d (d.logWrite l a n slot).1 := by
  have onLeaf (e : Device) (f : Leaf → Leaf) := (changesOnly_onLeaf e l f).mono (qs := [.leaves, .dma0, .ul, .out]) (by decide)
  have overflow (c : Prop) [Decidable c] : changesOnly [.leaves, .dma0, .ul, .out] d
      (if c then d else (d.onLeaf l fun x => { x with dlog := { x.dlog with ovf := true } }).leafCause l 0x100) :=
    changesOnly.ite c (changesOnly.refl _ _) ((onLeaf d _).trans ((changesOnly_leafCause _ l _).mono (by decide)))
  unfold Device.logWrite
  dsimp only
  split
  · exact changesOnly.refl _ _
  · split
    · exact ((overflow _).trans (onLeaf _ _)).trans ((changesOnly_dlogStart _ l).mono (by decide))
    · dsimp only
      exact (overflow _).trans (onLeaf _ _)

/-- Logging a write charges the leaf nothing. -/
theorem meters_logWrite (d : Device) (l a n : Nat) (slot : Option Nat) :
    ((d.logWrite l a n slot).1.leaf l).meters = (d.leaf l).meters := by
  have overflow (c : Prop) [Decidable c] :
      ((if c then d else (d.onLeaf l fun x => { x with dlog := { x.dlog with ovf := true } }).leafCause l 0x100).leaf l).meters
        = (d.leaf l).meters := by split <;> simp
  unfold Device.logWrite
  dsimp only
  split
  · rfl
  · split
    · rw [leaf_of_changesOnly (changesOnly_dlogStart _ l) (by decide), Device.leaf_onLeaf, overflow]
    · rw [Device.leaf_onLeaf, overflow]

@[simp] theorem writeReq_turns (d : Device) (m : Nat) (w : DmaWrite) : (d.writeReq m w).turns = d.turns := by simp [Device.writeReq]

@[simp] theorem writeReq_leaves (d : Device) (m : Nat) (w : DmaWrite) : (d.writeReq m w).leaves = d.leaves := by simp [Device.writeReq]

/-! ### The end of a turn -/

/-- A change of a turn that concerns its record alone. -/
def marksRecord (f : Turn → Turn) : Prop :=
  ∀ t, ∃ r q n, f t = { t with record := r, recordQueued := q, pendingW := n }

/-- A device in which something has been logged or zeroised for a turn that ends: no turn has changed, and the leaf is charged nothing. -/
structure LoggedFor (d e : Device) (l : Nat) : Prop where
  frame : changesOnly [.leaves, .slots, .dma0, .ul, .out] d e
  meters : (e.leaf l).meters = (d.leaf l).meters

theorem loggedFor_freeSpill (d : Device) (slot l : Nat) : LoggedFor d (d.freeSpill slot) l :=
  ⟨(changesOnly_freeSpill d slot).mono (by decide), rfl⟩

theorem LoggedFor.onLeaf {d e : Device} {l : Nat} (h : LoggedFor d e l) {f : Leaf → Leaf} (hf : ∀ v, (f v).meters = v.meters) :
    LoggedFor d (e.onLeaf l f) l :=
  ⟨h.frame.trans ((changesOnly_onLeaf e l f).mono (by decide)), by rw [Device.leaf_onLeaf, hf, h.meters]⟩

theorem LoggedFor.logWrite {d e : Device} {l : Nat} (h : LoggedFor d e l) (a n : Nat) (o : Option Nat) :
    LoggedFor d (e.logWrite l a n o).1 l :=
  ⟨h.frame.trans ((changesOnly_logWrite e l a n o).mono (by decide)), (meters_logWrite e l a n o).trans h.meters⟩

/-- What becomes of an ended turn that is to write a record: its record waits, is queued, or waits for the log of its page (R50, R113, R120). -/
theorem recordStep_cases {d : Device} {slot : Nat} {x : Turn} (hx : Map.get? d.turns slot = some x) (hw : x.wantsRecord = true) :
    d.recordStep slot = d ∨ ∃ e f, LoggedFor d e x.leaf ∧ marksRecord f ∧
      (d.recordStep slot = e.onTurn slot f ∨ ∃ m w, d.recordStep slot = (e.onTurn slot f).writeReq m w) := by
  simp only [Device.recordStep, hx]
  split
  · exact .inl rfl
  · right
    split
    · rename_i hn
      simp [hw] at hn
    · split
      · exact ⟨_, _, loggedFor_freeSpill d slot _, fun t => ⟨t.record, true, t.pendingW, rfl⟩, .inr ⟨_, _, rfl⟩⟩
      · have logged (f : Leaf → Leaf) (hf : ∀ v, (f v).meters = v.meters) (a : Nat) :=
          ((loggedFor_freeSpill d slot x.leaf).onLeaf hf).logWrite a 32 (some slot)
        generalize hp : Device.logWrite _ _ _ _ _ = p
        have hl : LoggedFor d p.1 x.leaf := hp ▸ logged _ (by intro; rfl) _
        split
        · exact ⟨_, _, hl, fun t => ⟨_, true, t.pendingW, rfl⟩, .inr ⟨_, _, rfl⟩⟩
        · exact ⟨_, _, hl, fun t => ⟨_, t.recordQueued, _, rfl⟩, .inl rfl⟩

/-- The ended turn keeps its end, whatever its record waits for. -/
theorem turn_recordStep {d : Device} {slot : Nat} {x : Turn} (hx : Map.get? d.turns slot = some x) (hw : x.wantsRecord = true) :
    ∃ r q n, Map.get? (d.recordStep slot).turns slot = some { x with record := r, recordQueued := q, pendingW := n } := by
  obtain same | ⟨e, f, logged, marks, step⟩ := recordStep_cases hx hw
  · exact ⟨x.record, x.recordQueued, x.pendingW, by rw [same, hx]⟩
  · obtain ⟨r, q, n, hf⟩ := marks x
    have turns : (d.recordStep slot).turns = (e.onTurn slot f).turns := by
      obtain step | ⟨m, w, step⟩ := step <;> simp [step]
    exact ⟨r, q, n, by rw [turns, Device.turn_onTurn, turns_of_changesOnly logged.frame (by decide), hx, Option.map_some, hf]⟩

theorem meters_recordStep {d : Device} {slot : Nat} {x : Turn} (hx : Map.get? d.turns slot = some x) (hw : x.wantsRecord = true) :
    ((d.recordStep slot).leaf x.leaf).meters = (d.leaf x.leaf).meters := by
  obtain same | ⟨e, f, logged, _, step⟩ := recordStep_cases hx hw
  · rw [same]
  · have leaves : (d.recordStep slot).leaves = e.leaves := by
      obtain step | ⟨m, w, step⟩ := step <;> simp [step]
    rw [← logged.meters, Device.leaf, leaves]; rfl

theorem changesOnly_recordStep {d : Device} {slot : Nat} {x : Turn} (hx : Map.get? d.turns slot = some x) (hw : x.wantsRecord = true) :
    changesOnly endParts d (d.recordStep slot) := by
  obtain same | ⟨e, f, logged, _, step⟩ := recordStep_cases hx hw
  · rw [same]; exact changesOnly.refl _ _
  · have marked : changesOnly endParts d (e.onTurn slot f) :=
      (logged.frame.mono (by decide)).trans ((changesOnly_onTurn e slot f).mono (by decide))
    obtain step | ⟨m, w, step⟩ := step
    · rw [step]; exact marked
    · rw [step]; exact marked.trans ((changesOnly_writeReq _ m w).mono (by unfold dmaPart; split <;> decide))

/-- The device in which a turn has just been closed, its reads dropped and its store released (R106, R117). -/
def closedTurn (d : Device) (slot : Nat) (st : Status) (pc : Nat) : Device :=
  (((d.dropReads slot).releaseStore slot).onTurn slot fun t => t.close st pc).freeSpill slot

theorem changesOnly_closedTurn (d : Device) (slot : Nat) (st : Status) (pc : Nat) :
    changesOnly [.dma0, .dma1, .dirty, .turns, .slots] d (closedTurn d slot st pc) :=
  (((changesOnly_dropReads d slot).then (changesOnly_releaseStore _ slot)).then (changesOnly_onTurn _ slot _)).then (changesOnly_freeSpill _ slot)

theorem turn_closedTurn {d : Device} {slot : Nat} {x : Turn} (hx : Map.get? d.turns slot = some x) (st : Status) (pc : Nat) :
    Map.get? (closedTurn d slot st pc).turns slot = some (x.close st pc) := by
  have turns : ((d.dropReads slot).releaseStore slot).turns = d.turns :=
    turns_of_changesOnly ((changesOnly_dropReads d slot).then (changesOnly_releaseStore _ slot)) (by decide)
  have onTurn := Device.turn_onTurn ((d.dropReads slot).releaseStore slot) slot fun t => t.close st pc
  rw [turns, hx] at onTurn
  exact onTurn

/-- A turn at a word has no keyway change to spend when it ends (R308). -/
theorem endTurn_of_exec {d : Device} {slot : Nat} {x : Turn} (hx : Map.get? d.turns slot = some x) (hp : x.phase = .exec) (st : Status) (pc : Nat) :
    d.endTurn slot st pc = (closedTurn d slot st pc).recordStep slot := by
  rw [Device.endTurn, hx]
  dsimp only
  rw [spendChange_of_exec hp]
  rfl

/-- A turn that ends at a word and is to write a record: its end, in its frame, uncharged (R106, R109, R117). -/
theorem endTurn_at_word {d : Device} {slot : Nat} {x : Turn} (hx : Map.get? d.turns slot = some x) (hp : x.phase = .exec)
    (hw : x.wantsRecord = true) (st : Status) (pc : Nat) :
    (∃ u, Map.get? (d.endTurn slot st pc).turns slot = some u ∧ u.ending = some (st, pc) ∧ u.cells = [] ∧ u.op = none ∧ u.stores = [] ∧
      u.phase = .closing) ∧
    ((d.endTurn slot st pc).leaf x.leaf).meters = (d.leaf x.leaf).meters ∧ changesOnly endParts d (d.endTurn slot st pc) := by
  have hc := turn_closedTurn hx st pc
  have frame := changesOnly_closedTurn d slot st pc
  rw [endTurn_of_exec hx hp]
  refine ⟨?_, ?_, ?_⟩
  · obtain ⟨r, q, n, hu⟩ := turn_recordStep hc hw
    exact ⟨_, hu, rfl, rfl, rfl, rfl, rfl⟩
  · exact (meters_recordStep hc hw).trans (congrArg Leaf.meters (leaf_of_changesOnly frame (by decide) x.leaf))
  · exact (frame.mono (by decide)).trans (changesOnly_recordStep hc hw)

end Sys2Proof.Safety
end

section
/-! The engine instructions (R125, R130, R132, R175): their checks, their draws and their ready list. -/

namespace Sys2Proof.Safety

open Sys2Proof.Machine

/-! ### The rows -/

/-- Every engine row issues its instruction where it is the word at the PC (R123). -/
theorem exec_engineRow {e : ZKind × (Nat → Instr)} (he : e ∈ zaxusEngineRows) (slot : Nat) (s : State) :
    exec (e.2 slot) s = run s (s.dev.at slot e.1) (s.dev.zissue slot e.1) := by
  suffices all : ∀ e ∈ zaxusEngineRows, exec (e.2 slot) s = run s (s.dev.at slot e.1) (s.dev.zissue slot e.1) from all e he
  unfold zaxusEngineRows
  repeat refine List.forall_mem_cons.mpr ⟨rfl, ?_⟩
  exact nofun

/-- Every plain row is guarded by its instruction at the PC (R123). -/
theorem exec_plainRow {e : ZKind × (Nat → Instr)} (he : e ∈ zaxusPlainRows) (slot : Nat) (s : State) :
    ∃ c d, exec (e.2 slot) s = run s c d ∧ (s.dev.at slot e.1 = false → c = false) := by
  suffices all : ∀ e ∈ zaxusPlainRows, ∃ c d, exec (e.2 slot) s = run s c d ∧ (s.dev.at slot e.1 = false → c = false) from all e he
  unfold zaxusPlainRows
  repeat refine List.forall_mem_cons.mpr ⟨⟨_, _, rfl, fun out => by simp only [out, Bool.false_and]⟩, ?_⟩
  exact nofun

/-- Every Zaxus row needs its instruction at the PC of a turn that runs (R123). -/
theorem exec_zaxusRow_of_atWord_none {e : ZKind × (Nat → Instr)} (he : e ∈ zaxusPlainRows ++ zaxusEngineRows) {slot : Nat} {s : State}
    (h : s.dev.atWord slot e.1 = none) : exec (e.2 slot) s = .fault .cannotOccur := by
  have out := at_of_atWord_none h
  have guarded : ∃ c d, exec (e.2 slot) s = run s c d ∧ (s.dev.at slot e.1 = false → c = false) := by
    rcases List.mem_append.mp he with he | he
    · exact exec_plainRow he slot s
    · exact ⟨_, _, exec_engineRow he slot s, id⟩
  obtain ⟨c, d, row, needs⟩ := guarded
  rw [row, needs out]
  exact run_false _ _

/-! ### The cases of R125, R130 and R132 -/

section
variable {e : ZKind × (Nat → Instr)} (he : e ∈ zaxusEngineRows) {slot : Nat} {x : Turn} {z : ZInstr} {s : State}
  (h : s.dev.atWord slot e.1 = some (x, z))
include he h

/-- What an engine row answers, from what the start of its instruction makes of the device and of its turn. -/
theorem exec_engineRow_of_start {d : Device} {u : Turn} {ps : List Part} (hd : s.dev.start slot x z = d) (hu : Map.get? d.turns slot = some u)
    (idle : u.woken = false ∨ u.phase ≠ .ready) (hp : Part.perm ∉ ps) (frame : changesOnly ps s.dev d) :
    exec (e.2 slot) s = .next { s with dev := d } ∧ keepsRest ps s { s with dev := d } := by
  rw [exec_engineRow he slot s, zissue_of_atWord h, hd, joinLate_of_idle hu idle]
  exact run_of_changesOnly (at_of_atWord h) hp frame

/-- What an engine row answers where the start of its instruction changes its turn alone among the turns. -/
theorem exec_engineRow_of_onTurn {d : Device} {f : Turn → Turn} {ps : List Part} (hd : s.dev.start slot x z = d.onTurn slot f)
    (turns : d.turns = s.dev.turns) (idle : (f x).woken = false ∨ (f x).phase ≠ .ready) (hp : Part.perm ∉ ps)
    (frame : changesOnly ps s.dev (d.onTurn slot f)) :
    exec (e.2 slot) s = .next { s with dev := d.onTurn slot f } ∧ onlyTurn s { s with dev := d.onTurn slot f } slot (f x) ∧
      keepsRest ps s { s with dev := d.onTurn slot f } := by
  obtain ⟨hx, _, _⟩ := atWord_eq_some h
  have only : onlyTurn s { s with dev := d.onTurn slot f } slot (f x) :=
    onlyTurn_of_modify f hx (congrArg (Map.modify · slot f) turns)
  obtain ⟨answers, rest⟩ := exec_engineRow_of_start he h hd only.1 idle hp frame
  exact ⟨answers, only, rest⟩

/-- The first failed check ends the turn with its status, and charges nothing (R125, R130). -/
theorem exec_engineRow_refused {st : Status} (hc : s.dev.preCheck x z = some st) (hw : x.wantsRecord = true) :
    ∃ t, exec (e.2 slot) s = .next t ∧ turnEnded t slot st x.pc ∧
      (t.dev.leaf x.leaf).meters = (s.dev.leaf x.leaf).meters ∧ keepsRest endParts s t := by
  obtain ⟨hx, hp, _⟩ := atWord_eq_some h
  have start : s.dev.start slot x z = s.dev.endTurn slot st x.pc := by rw [Device.start, hc]
  obtain ⟨⟨u, hu, ending, cells, op, stores, phase⟩, meters, frame⟩ := endTurn_at_word hx hp hw st x.pc
  obtain ⟨answers, rest⟩ := exec_engineRow_of_start he h start hu (.inr (by simp [phase])) (by decide) frame
  exact ⟨_, answers, ⟨u, hu, ending, cells, op, stores⟩, meters, rest⟩

/-- An instruction that draws nothing joins the ready list of its engine class (R175). -/
theorem exec_engineRow_ready (hc : s.dev.preCheck x z = none) (hn : x.strokes z ≠ 0) (hd : z.drawLen = 0) (hw : x.woken = false) :
    ∃ t, exec (e.2 slot) s = .next t ∧ onlyTurn s t slot { x with op := some (x.newOp z []), phase := .ready } ∧ keepsRest [.turns] s t := by
  have start : s.dev.start slot x z = s.dev.onTurn slot fun t => { t with op := some (t.newOp z []), phase := .ready } := by
    simp only [Device.start, hc, Device.drawThen, hd, Device.makeReady, hn, if_true, if_false]
  exact ⟨_, exec_engineRow_of_onTurn he h start rfl (.inl hw) (by decide) (changesOnly_onTurn _ _ _)⟩

/-- An instruction whose draw is served takes its lines and joins the ready list (R132, R289). -/
theorem exec_engineRow_served (hc : s.dev.preCheck x z = none) (hn : x.strokes z ≠ 0) (hd : z.drawLen ≠ 0)
    (hs : s.dev.servesTurn x z.drawLen = true) (hw : x.woken = false) :
    ∃ t, exec (e.2 slot) s = .next t ∧ onlyTurn s t slot { x with op := some (x.newOp z (s.dev.ns.lineBytes z.drawLen)), phase := .ready } ∧
      linesTaken s t z.drawLen ∧ keepsRest [.turns, .ns] s t := by
  have start : s.dev.start slot x z = (s.dev.takeLines z.drawLen).onTurn slot
      fun t => { t with op := some (t.newOp z (s.dev.ns.lineBytes z.drawLen)), phase := .ready } := by
    simp only [Device.start, hc, Device.drawThen, hd, hs, Device.makeReady, hn, if_true, if_false]
  obtain ⟨answers, only, rest⟩ := exec_engineRow_of_onTurn he h start rfl (.inl hw) (by decide)
    (((changesOnly_takeLines _ _).then (changesOnly_onTurn _ _ _)).mono (qs := [.turns, .ns]) (by decide))
  exact ⟨_, answers, only, rfl, rest⟩

/-- An instruction whose draw is not served waits for entropy (R132, R296). -/
theorem exec_engineRow_waits (hc : s.dev.preCheck x z = none) (hd : z.drawLen ≠ 0) (hs : s.dev.servesTurn x z.drawLen = false) :
    ∃ t, exec (e.2 slot) s = .next t ∧ onlyTurn s t slot { x with phase := .waitEntropy, entropyWait := s.dev.sc.beat, woken := false } ∧
      keepsRest [.turns] s t := by
  have start : s.dev.start slot x z = s.dev.onTurn slot
      fun t => { t with phase := .waitEntropy, entropyWait := s.dev.sc.beat, woken := false } := by
    simp only [Device.start, hc, Device.drawThen, hd, hs, if_false, Bool.false_eq_true]
  exact ⟨_, exec_engineRow_of_onTurn he h start rfl (.inl rfl) (by decide) (changesOnly_onTurn _ _ _)⟩

end

/-- Settles O42, clause by clause: the failed check, the draw served, the draw not served, and the word that is not the row's. -/
theorem engineWordsJoinTheirReadyList : Obligations.EngineWordsJoinTheirReadyList :=
  ⟨fun _ he _ _ _ _ h =>
    ⟨fun _ => exec_engineRow_refused he h, exec_engineRow_ready he h, exec_engineRow_served he h, exec_engineRow_waits he h⟩,
   fun _ he _ _ h => exec_zaxusRow_of_atWord_none he h⟩

end Sys2Proof.Safety
end

section
/-! A table of context slots that lists a slot twice (R276, R280). -/

namespace Sys2Proof.Safety

open Sys2Proof.Machine

/-- CTX.RESTORE of vault context slot 0, a plain cell, into cell 1. -/
def restoreSlotZero : ZInstr := ⟨.ctxRestoreVault, 0, 1, 0xFF, 0xFF, 0xFF0000⟩

/-- A turn of leaf 0 at that word. -/
def restoringTurn : Turn :=
  { leaf := 0, queue := 0, sqSlot := 0, fetchNo := 0, hdr := readHeader [], prog := [restoreSlotZero], phase := .exec,
    cells := [(1, { size := 1 })] }

/-- A device whose leaf 0 lists its context slot 0 twice, with an uncorrectable error injected into the next read of a context slot. -/
def doubledContext : State :=
  { dev := { turns := [(0, restoringTurn)], leaves := [(0, { ctx := [(0, 0xFF, []), (0, 0xFF, [])] })], bk := { armed := some 2 } } }

/-- The table still lists slot 0 once after it has been emptied. -/
theorem listed_after_doubledContext (t : State) (h : exec (.zxCtxRestoreVault 0) doubledContext = .next t) :
    (Map.get? (t.dev.leaf 0).ctx 0).isSome = true := by
  have listed : (match exec (.zxCtxRestoreVault 0) doubledContext with
      | .next t => (Map.get? (t.dev.leaf 0).ctx 0).isSome
      | _ => true) = true := by decide
  rw [h] at listed
  exact listed

/-- Refutes O41, in its tenth clause: the statement asks no canonical form of the tables, and to empty a context slot takes out its first entry
alone (`Map.erase`), so where a table lists the slot twice the faulty slot is not empty after the read that met the error (R276). -/
theorem not_stateWordsKeepTheirRecords : ¬ Obligations.StateWordsKeepTheirRecords := by
  rintro ⟨_, _, _, _, _, _, _, _, _, faultyRead, _⟩
  obtain ⟨t, answers, _, emptied, _⟩ := faultyRead 0 restoringTurn restoreSlotZero doubledContext (by decide) (by decide) rfl rfl
  have listed := listed_after_doubledContext t answers
  have gone : Map.get? (t.dev.leaf 0).ctx 0 = none := emptied
  rw [gone] at listed
  exact nomatch listed

end Sys2Proof.Safety
end

section
/-! A wrapped context of a cell that is not full (R103, R276, R277). -/

namespace Sys2Proof.Safety

open Sys2Proof.Machine

/-- What AES-GCM opens does not depend on the associated data, which only its tag covers. -/
theorem eq_of_gcmOpen {key nonce aad c tag p : Bytes} (h : gcmOpen key nonce aad c tag = some p) : p = (gcmCore key nonce [] c true).1 := by
  unfold gcmOpen at h
  dsimp only at h
  split at h
  · exact (Option.some.inj h).symm
  · exact nomatch h

/-- The decrypted context of a wrapped one in SRCA, by its layout in R277. -/
def decryptedContext (d : Device) (t : Turn) (z : ZInstr) : Bytes :=
  (gcmCore ((d.leaf t.leaf).kw.key.take 32) ((t.bytes z.a).take 12) [] (slice (t.bytes z.a) 16 ((t.bytes z.a).length - 32)) true).1

/-- A CTX.RESTORE of a wrapped context that returns DONE writes the decrypted context (R277). -/
theorem outs_of_ctxRestoreWrapped {d : Device} {t : Turn} {z : ZInstr} {rnd : Bytes} (hk : z.kind = .ctxRestoreWrapped)
    (done : (d.dataResult t z rnd).status = St.done) :
    (d.dataResult t z rnd).outs = [(z.dst, decryptedContext d t z, u8 (t.bytes z.a) 12 != 0xFF)] := by
  simp only [Device.dataResult, hk] at done ⊢
  split at done
  · rename_i opened
    rw [decryptedContext, ← eq_of_gcmOpen opened]
    split at done
    · exact absurd (show St.contextIntegrity = St.done from done) (by decide)
    · split at done
      · rename_i whole code
        rw [if_neg whole, if_pos code]
      · exact absurd (show St.contextMismatch = St.done from done) (by decide)
  · exact absurd (show St.contextIntegrity = St.done from done) (by decide)

/-- A turn of leaf 0 with two cells: cell 1 of one byte, which holds nothing, and cell 2 with some bytes. -/
def contextTurn (bs : Bytes) : Turn :=
  { leaf := 0, queue := 0, sqSlot := 0, fetchNo := 0, hdr := readHeader [], cells := [(1, { size := 1 }), (2, { size := 33, data := bs })] }

/-- A device whose leaf 0 has a keyway of 32 zero bytes. -/
def zeroKeyed : Device := { leaves := [(0, { kw := { key := zeros 32 } })] }

/-- CTX.SAVE WRAPPED of the empty cell 1 into cell 2. -/
def saveEmpty : ZInstr := ⟨.ctxSaveWrapped, 1, 2, 1, 0xFF, 0⟩

/-- CTX.RESTORE WRAPPED of a plain cell from cell 2 into cell 1. -/
def restorePlain : ZInstr := ⟨.ctxRestoreWrapped, 1, 1, 2, 0xFF, 0xFF0000⟩

/-- The wrapped context that the save of the empty cell writes, under a nonce of zeros. -/
def savedEmpty : Bytes := ((zeroKeyed.dataResult (contextTurn []) saveEmpty (zeros 12)).outs.headD (0, [], false)).2.1

/-- Decrypted, it is the one byte that the cell has room for, and not the no bytes that the cell held. -/
theorem decryptedContext_savedEmpty : decryptedContext zeroKeyed (contextTurn savedEmpty) restorePlain = [0] := by
  decide +kernel

/-- Refutes O60, in its second clause: CTX.SAVE WRAPPED seals as many bytes as its source has room for (`fit n`, n the size of the cell), so a cell
of one byte that holds nothing yet is restored with one byte. -/
theorem not_outcomesOfEngineWords : ¬ Obligations.OutcomesOfEngineWords := by
  rintro ⟨_, wrappedContext, _⟩
  have restored : zeroKeyed.dataResult (contextTurn savedEmpty) restorePlain [] = { outs := [(1, [], false)] } :=
    wrappedContext zeroKeyed zeroKeyed (contextTurn []) (contextTurn savedEmpty) saveEmpty restorePlain (zeros 12) [] rfl rfl rfl rfl rfl
      (by decide) (by decide) (by decide) rfl
  have outs := outs_of_ctxRestoreWrapped rfl (congrArg Result.status restored)
  rw [restored, decryptedContext_savedEmpty] at outs
  have nothing : ([] : Bytes) = [0] := congrArg (fun l : List (Nat × Bytes × Bool) => (l.headD (0, [], false)).2.1) outs
  exact nomatch nothing

end Sys2Proof.Safety
end

section
/-! SUPPORT. What the operations that run at a beat edge and at a freeze point leave of the scheduler as it was (R167, R169, R179, R180, R415): none
moves the beat counters, the tick, the stage or the plan, none touches a supply, and none takes back a source that was raised. Each lemma adds one
operation to those that have run since a device `d`. -/

namespace Sys2Proof.Safety

open Sys2Proof.Machine

/-! ### The clock of the scheduler -/

/-- What tells the time in the scheduler, and what is fixed with it at the freeze point. -/
def schedClock (c : Sched) : Nat × Nat × Tick × Nat × List Plan := (c.beat, c.beatB, c.tick, c.stage, c.plan)

/-- The beat goes on: the clock and the supplies are as they were, and every source that was raised still is. -/
structure KeepsClock (d e : Device) : Prop where
  clock : schedClock e.sc = schedClock d.sc
  power : e.power = d.power
  incoming : d.fc.incoming ⊆ e.fc.incoming

namespace KeepsClock

theorem refl (d : Device) : KeepsClock d d := ⟨rfl, rfl, List.Subset.refl _⟩

theorem ite {d e f : Device} {c : Prop} [Decidable c] (h : KeepsClock d e) (g : KeepsClock d f) : KeepsClock d (if c then e else f) := by
  split <;> assumption

theorem foldl {α : Type} {d e : Device} {f : Device → α → Device} {l : List α} (h : KeepsClock d e)
    (step : ∀ x a, KeepsClock d x → KeepsClock d (f x a)) : KeepsClock d (l.foldl f e) := by
  induction l generalizing e with
  | nil => exact h
  | cons a r ih => exact ih (step e a h)

/-! ### Shared operations, where most leave all three as they were by definition -/

section
variable {d e : Device} (h : KeepsClock d e)
include h

theorem beat : e.sc.beat = d.sc.beat := congrArg (·.1) h.clock
theorem beatB : e.sc.beatB = d.sc.beatB := congrArg (·.2.1) h.clock
theorem tick : e.sc.tick = d.sc.tick := congrArg (·.2.2.1) h.clock
theorem stage : e.sc.stage = d.sc.stage := congrArg (·.2.2.2.1) h.clock
theorem plan : e.sc.plan = d.sc.plan := congrArg (·.2.2.2.2) h.clock

theorem trans {f : Device} (g : KeepsClock e f) : KeepsClock d f :=
  ⟨g.clock.trans h.clock, g.power.trans h.power, List.Subset.trans h.incoming g.incoming⟩

/-- A change in a frame that leaves out the scheduler, the supplies and the collector. -/
theorem frame {ps : List Part} {f : Device} (g : changesOnly ps e f) (apart : ∀ p ∈ [Part.sc, .power, .fc], p ∉ ps := by decide) :
    KeepsClock d f := by
  have fc : f.fc = e.fc := g .fc (apart _ (by simp))
  exact ⟨(congrArg schedClock (g .sc (apart _ (by simp)))).trans h.clock, (g .power (apart _ (by simp))).trans h.power, fc ▸ h.incoming⟩

/-- A change of the scheduler beside its clock. -/
theorem sched {c : Sched} (same : schedClock c = schedClock e.sc) : KeepsClock d { e with sc := c } := ⟨same.trans h.clock, h.power, h.incoming⟩

theorem withPerm (p : Perm) : KeepsClock d { e with perm := p } := ⟨h.clock, h.power, h.incoming⟩

theorem raiseSrc {n : Nat} : KeepsClock d (e.raiseSrc n) := ⟨h.clock, h.power, List.subset_append_of_subset_left _ h.incoming⟩

theorem raiseIn {n slot : Nat} : KeepsClock d (e.raiseIn n slot) := ⟨h.clock, h.power, List.subset_append_of_subset_left _ h.incoming⟩

theorem onTurn {slot : Nat} {f : Turn → Turn} : KeepsClock d (e.onTurn slot f) := ⟨h.clock, h.power, h.incoming⟩

theorem onLeaf {l : Nat} {f : Leaf → Leaf} : KeepsClock d (e.onLeaf l f) := ⟨h.clock, h.power, h.incoming⟩

theorem setLeaf {l : Nat} {v : Leaf} : KeepsClock d (e.setLeaf l v) := ⟨h.clock, h.power, h.incoming⟩

theorem onTu {n : Nat} {f : Engine → Engine} : KeepsClock d (e.onTu n f) := ⟨h.clock, h.power, h.incoming⟩

theorem onBo {n : Nat} {f : Engine → Engine} : KeepsClock d (e.onBo n f) := ⟨h.clock, h.power, h.incoming⟩

theorem onDma {m : Nat} {f : Dma → Dma} : KeepsClock d (e.onDma m f) :=
  h.frame (changesOnly_onDma e m f) (by unfold dmaPart; split <;> decide)

theorem writeReq {m : Nat} {w : DmaWrite} : KeepsClock d (e.writeReq m w) := h.onDma

theorem readReq {m : Nat} {p : Option Nat} {a n : Nat} {w : ReadWhy} : KeepsClock d (e.readReq m p a n w) :=
  h.frame (changesOnly_readReq e m p a n w) (by unfold dmaPart; split <;> decide)

theorem onUnit {j : JobId} {f : CmdUnit → CmdUnit} : KeepsClock d (e.onUnit j f) := h.frame (changesOnly_onUnit e j f) (by cases j <;> decide)

theorem onJob {j : JobId} {f : Job → Job} : KeepsClock d (e.onJob j f) := h.frame (changesOnly_onJob e j f) (by cases j <;> decide)

theorem finish {j : JobId} {s : Status} : KeepsClock d (e.finish j s) := h.frame (changesOnly_finish e j s) (by cases j <;> decide)

theorem dropUnit {j : JobId} : KeepsClock d (e.dropUnit j) := h.frame (changesOnly_dropUnit e j) (by cases j <;> decide)

theorem jobWork {j : JobId} {p : List Seg} : KeepsClock d (e.jobWork j p) := h.frame (changesOnly_jobWork e j p) (by cases j <;> decide)

theorem joinFetch {l q : Nat} : KeepsClock d (e.joinFetch l q) := .ite h (h.sched rfl)

theorem wakeLeaf {l : Nat} : KeepsClock d (e.wakeLeaf l) := .ite h (h.sched rfl)

/-! ### The end of a turn (R106, R113, R117, R120) -/

theorem recordStep {slot : Nat} : KeepsClock d (e.recordStep slot) := by
  have freed := h.frame (changesOnly_freeSpill e slot)
  unfold Device.recordStep
  split
  · exact h
  · rename_i t _
    split
    · exact h
    · split
      · exact ⟨freed.clock, freed.power, freed.incoming⟩
      · dsimp only
        split
        · exact freed.onTurn.writeReq
        · have logged (f : Leaf → Leaf) (a : Nat) : KeepsClock d (((e.freeSpill slot).onLeaf t.leaf f).logWrite t.leaf a 32 (some slot)).1 :=
            freed.onLeaf.frame (changesOnly_logWrite _ _ a 32 _)
          exact .ite (logged _ _).onTurn.writeReq (logged _ _).onTurn

theorem spendChange {slot : Nat} {t : Turn} : KeepsClock d (e.spendChange slot t) := .ite h.onLeaf h

theorem endTurn {slot : Nat} {s : Status} {pc : Nat} : KeepsClock d (e.endTurn slot s pc) := by
  have closed {x : Device} (g : KeepsClock d x) : KeepsClock d ((closedTurn x slot s pc).recordStep slot) :=
    (g.frame (changesOnly_closedTurn x slot s pc)).recordStep
  unfold Device.endTurn
  split
  · exact closed h.spendChange
  · exact closed h

theorem endHere {slot : Nat} {s : Status} : KeepsClock d (e.endHere slot s) := by
  unfold Device.endHere
  split
  · exact h.endTurn
  · exact h

theorem endDue {slot : Nat} {s : Status} : KeepsClock d (e.endDue slot s) := h.onTurn

theorem returns {slot : Nat} {s : Status} : KeepsClock d (e.returns slot s) := by
  unfold Device.returns
  split
  · exact h
  · split
    · exact h.onTurn
    · exact h.onTurn
    · exact h.endTurn

/-! ### Homes and readiness (R105, R175, R177) -/

theorem assignHome {slot : Nat} : KeepsClock d (e.assignHome slot) := by
  unfold Device.assignHome
  split
  · exact h
  · refine .ite h (.ite h.endTurn (.ite h ?_))
    split
    · exact h
    · exact h.onTurn

theorem tryReady {slot beat : Nat} : KeepsClock d (e.tryReady slot beat) := by
  unfold Device.tryReady
  split
  · exact h
  · refine .ite (assignHome ?_) h
    exact ⟨h.clock, h.power, h.incoming⟩

/-! ### The freeze point (R179, R185, R413) -/

theorem wakeDelayed : KeepsClock d e.wakeDelayed := by
  refine h.foldl fun x slot h => ?_
  split
  · exact h
  · split
    · exact .ite h.onTurn h
    · exact h.tryReady.onTurn
    · split
      · exact .ite h.onTurn h
      · exact h
    · exact .ite h.onTurn h
    · exact h

theorem wakeCold : KeepsClock d e.wakeCold := h.foldl fun _ _ h => .ite h.wakeLeaf h

theorem markReady : KeepsClock d e.markReady := h.foldl fun _ _ h => .ite h.onTurn h

theorem cleanFrames : KeepsClock d e.cleanFrames := ⟨h.clock, h.power, h.incoming⟩

end

end KeepsClock

end Sys2Proof.Safety
end

section
/-! FREEZE_POINT (R179, R414, R415): the applied stage is taken, and the plan of the next edge is fixed, empty from stage 3 on. -/

namespace Sys2Proof.Safety

open Sys2Proof.Machine

/-- The device in which a freeze point has found the turns that are ready. -/
def readied (d : Device) : Device := d.takeStage.cleanFrames.wakeDelayed.wakeCold.markReady

theorem keepsClock_readied (d : Device) : KeepsClock d.takeStage (readied d) := (KeepsClock.refl _).cleanFrames.wakeDelayed.wakeCold.markReady

/-- A device frozen with a plan. -/
def frozenWith (d : Device) (plan : List Plan) : Device := { d with sc := { d.sc with tick := .frozen, plan := plan, kept := d.keptEngines } }

/-- A plan is fixed, and the turns that stage 1 sheds end (R413). -/
theorem keepsClock_fixPlan (d : Device) (jobs : FreezeAcc) :
    KeepsClock (frozenWith d ((frozenWith d []).planTurns jobs).plans) ((frozenWith d []).fixPlan jobs) :=
  (KeepsClock.refl _).foldl fun _ _ h => h.endHere

theorem freeze_keepsClock (d : Device) : ∃ plan, (3 ≤ d.power.applied → plan = []) ∧ KeepsClock (frozenWith (readied d) plan) d.freeze := by
  have stage : (frozenWith (readied d) []).sc.stage = d.power.applied := (keepsClock_readied d).stage
  by_cases stopped : 3 ≤ d.power.applied
  · have nothing : d.freeze = frozenWith (readied d) [] := if_pos (stage ▸ stopped)
    exact ⟨[], fun _ => rfl, nothing ▸ .refl _⟩
  · have fixed : d.freeze = (frozenWith (readied d) []).fixPlan _ := if_neg (stage ▸ stopped)
    exact ⟨_, fun h => absurd h stopped, fixed ▸ keepsClock_fixPlan _ _⟩

theorem exec_freezePoint (s : State) (h : s.dev.sc.tick = .begun) : ∃ t, exec .freezePoint s = .next t ∧ t.pending = s.pending ∧
    t.dev.sc.tick = .frozen ∧ t.dev.sc.beat = s.dev.sc.beat ∧ t.dev.sc.stage = s.dev.power.applied ∧
    (3 ≤ s.dev.power.applied → t.dev.sc.plan = []) ∧ t.dev.perm = s.dev.perm ∧ t.dev.power = s.dev.power := by
  obtain ⟨plan, empty, fixed⟩ := freeze_keepsClock s.dev
  replace fixed := fixed.withPerm s.dev.perm
  have ready := keepsClock_readied s.dev
  have may : (s.dev.sc.tick == .begun) = true := by simp [h]
  exact ⟨_, congrArg (run s · s.dev.freeze) may, rfl, fixed.tick, fixed.beat.trans ready.beat, fixed.stage.trans ready.stage,
    fun stopped => fixed.plan.trans (empty stopped), rfl, fixed.power.trans ready.power⟩

theorem exec_freezePoint_cannotOccur (s : State) (h : s.dev.sc.tick ≠ .begun) : exec .freezePoint s = .fault .cannotOccur := by
  have out : (s.dev.sc.tick == .begun) = false := by simpa using h
  exact congrArg (run s · s.dev.freeze) out

end Sys2Proof.Safety
end

section
/-! SUPPORT. The operations of a beat edge (R65, R73, R78, R118, R180 to R189, R307), added one by one to those that have run since a device `d`. -/

namespace Sys2Proof.Safety

open Sys2Proof.Machine

namespace KeepsClock

section
variable {d e : Device} (h : KeepsClock d e)
include h

/-! ### Ends and keyway changes at the edge (R49, R73, R117, R118, R307) -/

theorem cancelWrites {slot : Nat} : KeepsClock d (e.cancelWrites slot) := h.onDma.onDma.onTurn

theorem resetTurn {slot : Nat} {t : Turn} {beat : Nat} : KeepsClock d (e.resetTurn slot t beat) :=
  .ite h.onTurn (.ite h.cancelWrites.onTurn.recordStep h.cancelWrites.onTurn.endTurn)

theorem endTurnDue {slot : Nat} {t : Turn} {s : Status} {beat : Nat} : KeepsClock d (e.endTurnDue slot t s beat) :=
  .ite h.onTurn (.ite h h.endTurn)

theorem applyDue {beat : Nat} : KeepsClock d (e.applyDue beat) := by
  refine h.foldl fun x slot h => ?_
  have reset : KeepsClock d (match Map.get? x.turns slot with
      | some t => if t.resetDue then x.resetTurn slot t beat else x
      | none => x) := by
    split
    · exact .ite h.resetTurn h
    · exact h
  dsimp only
  split
  · split
    · exact reset.endTurnDue
    · exact reset
  · exact reset

theorem applyKeyway {l : Nat} : KeepsClock d (e.applyKeyway l) := by
  have changed (f : Leaf → Leaf) (n : Nat) : KeepsClock d { e.onLeaf l f with kw := { (e.onLeaf l f).kw with cuts := n } } :=
    ⟨h.clock, h.power, h.incoming⟩
  unfold Device.applyKeyway
  split
  · refine .ite h ?_
    dsimp only
    split
    · exact .ite (changed _ _).returns (changed _ _)
    · exact changed _ _
  · exact h

theorem takeEdgeStage : KeepsClock d e.takeEdgeStage := ⟨h.clock, h.power, h.incoming⟩

theorem zeroised : KeepsClock d e.zeroised := ⟨h.clock, h.power, h.incoming⟩

/-! ### Instructions that run at the edge (R125, R127, R186, R254, R276) -/

theorem newStamp {s : Nat} : KeepsClock d (e.newStamp s) := ⟨h.clock, h.power, h.incoming⟩

theorem emptySlot {s : Nat} : KeepsClock d (e.emptySlot s) :=
  foldl ⟨h.clock, h.power, h.incoming⟩ fun _ _ h => h.newStamp

theorem writeKeyState {s alg : Nat} {i o : Bytes} : KeepsClock d (e.writeKeyState s alg i o) :=
  foldl ⟨h.clock, h.power, h.incoming⟩ fun _ _ h => h.newStamp

theorem writeContext {t : Turn} {s code : Nat} {bs : Bytes} : KeepsClock d (e.writeContext t s code bs) := by
  unfold Device.writeContext
  dsimp only
  split
  · exact .ite h h.onLeaf
  · exact h.onLeaf

theorem slotFault {t : Turn} {z : ZInstr} {f : Device} (hf : e.slotFault t z = some f) : KeepsClock d f := by
  have context (l s : Nat) : KeepsClock d (e.contextUe l s) :=
    have raised := (h.onLeaf (l := l) (f := fun x => { x with ctx := Map.erase x.ctx s })).raiseSrc (n := 1058)
    ⟨raised.clock, raised.power, raised.incoming⟩
  have keySlot (s : Nat) : KeepsClock d (e.keySlotUe s) :=
    have raised := (h.emptySlot (s := s)).raiseSrc (n := 1104)
    ⟨raised.clock, raised.power, raised.incoming⟩
  unfold Device.slotFault at hf
  split at hf
  · split at hf
    · exact Option.some.inj hf ▸ context _ _
    · exact nomatch hf
  · split at hf
    · split at hf
      · exact Option.some.inj hf ▸ keySlot _
      · exact nomatch hf
    · exact nomatch hf

theorem failWork {p : Job → Bool} : KeepsClock d (e.failWork p) := h.frame (changesOnly_failWork e p)

theorem storeEnds {i : EngineId} {spot : StoreSpot} : KeepsClock d (e.storeEnds i spot) := by
  unfold Device.storeEnds
  split
  · exact h.foldl fun _ _ h => h.endDue
  · exact h.endDue
  · exact h.failWork
  · exact h
  · exact h

theorem storeUe {i : EngineId} {spot : StoreSpot} : KeepsClock d (e.storeUe i spot) := by
  unfold Device.storeUe
  cases i with
  | tumbler n => exact storeEnds h.onTu.onTu.raiseSrc
  | bolt n => exact storeEnds h.onBo.onBo.raiseSrc
  | _ => exact h.storeEnds

theorem storeCe {i : EngineId} {outer : Bool} : KeepsClock d (e.storeCe i outer) := by
  cases i with
  | tumbler n => exact .ite h.onTu.onTu.raiseSrc h.onTu.onTu.raiseSrc
  | bolt n => exact h.onBo.onBo.raiseSrc
  | _ => exact h

theorem injectStore {i : EngineId} {spot : StoreSpot} : KeepsClock d (e.injectStore i spot) := by
  cases i with
  | tumbler n =>
    unfold Device.injectStore
    dsimp only
    split
    · exact h.onTu.storeCe
    · exact h.onTu.storeCe
    · exact h.onTu.storeUe
    · exact h
  | bolt n =>
    unfold Device.injectStore
    dsimp only
    split
    · exact h.onBo.storeCe
    · exact h.onBo.storeUe
    · exact h
  | _ => exact h

theorem cellWrite {slot : Nat} : KeepsClock d (e.cellWrite slot) := by
  unfold Device.cellWrite
  split
  · split
    · exact h.injectStore
    · exact h
  · exact h

theorem applyEff {slot : Nat} {t : Turn} {f : Eff} : KeepsClock d (e.applyEff slot t f) := by
  cases f with
  | keyState s alg i o => exact .ite h.writeKeyState h
  | ctxVault s code bs => exact h.writeContext
  | keyway c => exact h.onLeaf.frame (changesOnly_commit _ _ _)
  | deferPub a bs => exact h.onTurn
  | modulus c n => exact h.onTurn
  | invariant n => exact h.onBo.onBo.raiseIn
  | refusal n => exact h.onBo

theorem release {slot : Nat} {r : Result} : KeepsClock d (e.release slot r) := by
  unfold Device.release
  split
  · exact h
  · have applied (f : Turn → Turn) (t : Turn) : KeepsClock d (r.effs.foldl (fun x f => x.applyEff slot t f) (e.onTurn slot f)) :=
      foldl h.onTurn fun _ _ h => h.applyEff
    have counted (f : Turn → Turn) (t : Turn) (k : KwAdmin) :
        KeepsClock d { r.effs.foldl (fun x f => x.applyEff slot t f) (e.onTurn slot f) with kw := k } :=
      ⟨(applied f t).clock, (applied f t).power, (applied f t).incoming⟩
    exact .ite (onTurn (.ite (counted _ _ _) (.ite (counted _ _ _) (applied _ _))))
      (returns (.ite (counted _ _ _) (.ite (counted _ _ _) (applied _ _))))

theorem runNow {slot : Nat} {t : Turn} {z : ZInstr} {rnd : Bytes} : KeepsClock d (e.runNow slot t z rnd) := by
  unfold Device.runNow
  split
  · exact h.endTurn
  · split
    · exact (h.slotFault ‹_›).endTurn
    · exact release (.ite (.ite h.onTurn h.onTurn) (cellWrite (.ite h.onTurn h.onTurn)))

theorem runServed : KeepsClock d e.runServed := by
  refine h.foldl fun x slot h => ?_
  split
  · exact h
  · split
    · exact .ite h.onTurn.runNow h
    · exact h

theorem assignHomes : KeepsClock d e.assignHomes := h.foldl fun _ _ h => h.assignHome

/-! ### Pre-emption and trap frames (R181 to R183, R249) -/

theorem setIdle {i : EngineId} {m : MicroState} : KeepsClock d (e.setIdle i m) := by cases i <;> exact ⟨h.clock, h.power, h.incoming⟩

theorem trap {slot : Nat} {p : Phase} : KeepsClock d (e.trap slot p) := by
  unfold Device.trap
  split
  · exact h
  · split
    · exact h
    · refine .ite h.onTurn ?_
      dsimp only
      split
      · exact ⟨h.clock, h.power, h.incoming⟩
      · exact h.onTurn.setIdle
      · exact h.onTurn

theorem preempt {planned : List Nat} {v : Nat × EngineId} : KeepsClock d (e.preempt planned v) := by
  have counted : KeepsClock d { e with sc := { e.sc with preempts := wrapAdd 48 e.sc.preempts 1 } } := h.sched rfl
  unfold Device.preempt
  split
  · exact h
  · exact .ite h (.ite counted.trap counted.onTurn)

/-! ### The strokes of an operation (R108, R125, R171, R180, R205, R235, R238, R404) -/

theorem withMasks {α : Type} {i : Option EngineId} {f : Draws α} : KeepsClock d (e.withMasks i f).2 := by
  unfold Device.withMasks
  dsimp only
  split
  · exact h.onTu
  · exact h.onBo
  · exact ⟨h.clock, h.power, h.incoming⟩

theorem openOp {t : Turn} {o : Op} {unit : Option EngineId} : KeepsClock d (e.openOp t o unit).2 := by
  unfold Device.openOp
  dsimp only
  split
  · exact h.withMasks
  · split
    · exact h.withMasks
    · exact h.withMasks
    · exact h
    · exact h
    · exact h
    · exact h
    · exact h

theorem readSlice {slot : Nat} {t : Turn} {z : ZInstr} {j : Nat} : KeepsClock d (e.readSlice slot t z j) := h.foldl fun _ _ h => h.readReq

theorem countAttempt {t : Turn} : KeepsClock d (e.countAttempt t) := by
  unfold Device.countAttempt
  split
  · exact h.onTu
  · exact h

theorem startOp {slot : Nat} {t : Turn} {o : Op} {es : List EngineId} : KeepsClock d (e.startOp slot t o es) := by
  unfold Device.startOp
  split
  · exact h.endTurn
  · split
    · exact (h.slotFault ‹_›).endTurn
    · exact .ite (countAttempt (.ite (readSlice h.openOp.onTurn) h.openOp.onTurn)) (.ite (readSlice h.openOp.onTurn) h.openOp.onTurn)

theorem claimSpill {slot : Nat} {o : Op} {f : Device} (hf : e.claimSpill slot o = some f) : KeepsClock d f := by
  unfold Device.claimSpill at hf
  dsimp only at hf
  split at hf
  · exact nomatch hf
  · exact Option.some.inj hf ▸ ⟨h.clock, h.power, h.incoming⟩

theorem capture {q : Nat} {pcs : List Nat} : KeepsClock d (e.capture q pcs) := by
  have traced (m : Micro) : KeepsClock d { e with mc := m } := ⟨h.clock, h.power, h.incoming⟩
  exact .ite h (.ite (traced _) ((traced _).frame (changesOnly_mcEvt _ _)))

theorem seqStroke {q : Nat} {m : MicroState} : KeepsClock d (e.seqStroke q m).2 := by
  have drawn (n : Nat) : KeepsClock d { e with fresh := n } := ⟨h.clock, h.power, h.incoming⟩
  exact (drawn _).capture

theorem seqEvt {q : Nat} : KeepsClock d (e.seqEvt q) := .ite h.onTu (.ite h.onBo h)

theorem seqOp {slot : Nat} {o : Op} {es : List EngineId} : KeepsClock d (e.seqOp slot o es).2 := by
  unfold Device.seqOp
  split
  · exact h
  · dsimp only
    split
    · exact h.seqStroke.seqEvt.raiseIn.endDue
    · exact h.seqStroke

theorem shareStroke {t : Turn} {o : Op} {real : Bool} : KeepsClock d (e.shareStroke t o real).2 := by
  unfold Device.shareStroke
  split
  · exact h
  · dsimp only
    split
    · exact h.withMasks.withMasks
    · exact h.withMasks

theorem charge {slot : Nat} {t : Turn} {c n : Nat} : KeepsClock d (e.charge slot t c n) := ⟨h.clock, h.power, h.incoming⟩

theorem beginStroke {mode : Nat} {i : EngineId} : KeepsClock d (e.beginStroke mode i) := by
  cases i <;> exact ⟨h.clock, h.power, h.incoming⟩

/-- A padding stroke counts in SC_PADS (R189). -/
theorem countPads {c : Prop} [Decidable c] {n : Nat} : KeepsClock d (if c then { e with sc := { e.sc with pads := n } } else e) :=
  .ite (h.sched rfl) h

theorem countCode {t : Turn} {o : Op} {pads : Bool} : KeepsClock d (e.countCode t o pads) := by
  refine .ite h ?_
  split
  · exact .ite h.countAttempt h
  · split
    · exact h.onTu
    · exact h
  · exact h

theorem dispatchOp {slot : Nat} {es : List EngineId} : KeepsClock d (e.dispatchOp slot es) := by
  unfold Device.dispatchOp
  split
  · exact h
  · split
    · exact h
    · rename_i held _
      have freed : KeepsClock d (match held.bank with
          | some i => e.setIdle i {}
          | none => e) := by
        split
        · exact h.setIdle
        · exact h
      refine .ite h.raiseIn.endDue.onTurn (.ite h.endTurn ?_)
      dsimp only
      exact countCode (countPads (foldl freed.seqOp.shareStroke.onTurn.charge fun _ _ h => h.beginStroke))

theorem dispatchTurn {slot : Nat} {es : List EngineId} : KeepsClock d (e.dispatchTurn slot es) := by
  unfold Device.dispatchTurn
  split
  · exact h
  · split
    · exact h
    · rename_i t _ _ o _
      have started : KeepsClock d (if o.started then e else e.startOp slot t o (e.stillOk o es)) := .ite h h.startOp
      refine .ite h (.ite (.ite h.trap h) (.ite h.endTurn ?_))
      dsimp only
      split
      · exact started
      · refine .ite ?_ started.dispatchOp
        split
        · exact (started.claimSpill ‹_›).dispatchOp
        · exact started.trap

theorem continueOps {planned : List Nat} : KeepsClock d (e.continueOps planned) := by
  refine h.foldl fun x slot h => ?_
  split
  · exact h
  · split
    · exact h
    · exact .ite h (.ite h.trap h.dispatchTurn)

/-! ### Hinge work (R65) -/

theorem dispatchJob {j : JobId} {i : EngineId} : KeepsClock d (e.dispatchJob j i) := by
  unfold Device.dispatchJob
  split
  · exact h
  · split
    · exact h
    · refine .ite h ?_
      cases seqOf i with
      | none => exact countPads h.onJob.beginStroke
      | some q =>
        have driven (m : MicroState) (f : Job → Job) (fault : Option Nat) : KeepsClock d (match fault with
            | some s => ((e.seqStroke q m).2.onJob j f).raiseSrc s
            | none => (e.seqStroke q m).2.onJob j f) := by
          split
          · exact h.seqStroke.onJob.raiseSrc
          · exact h.seqStroke.onJob
        exact countPads (driven _ _ _).beginStroke

theorem continueJobs {planned : List JobId} : KeepsClock d (e.continueJobs planned) := by
  refine h.foldl fun x j h => .ite h ?_
  split
  · exact .ite h.dispatchJob h
  · exact h

theorem dispatch : KeepsClock d e.dispatch := by
  have continued (turns : List Nat) (jobs : List JobId) (plan : List Plan) : KeepsClock d
      (((plan.foldl (fun x p => p.victims.foldl (fun x v => x.preempt turns v) x) e).continueOps turns).continueJobs jobs) :=
    continueJobs (continueOps (h.foldl fun _ _ h => h.foldl fun _ _ h => h.preempt))
  refine foldl (continued _ _ _) fun x p h => ?_
  split
  · exact h.dispatchTurn
  · exact h.dispatchJob
  · exact h

theorem blankStrokes : KeepsClock d e.blankStrokes :=
  .sched (foldl h fun _ _ h => h.onTu.beginStroke) rfl

/-! ### The hot table (R78) -/

theorem makeHot {l : Nat} : KeepsClock d (e.makeHot l) := foldl h.onLeaf fun _ _ h => h.joinFetch

theorem enterNow {l : Nat} {v : Option Nat} : KeepsClock d (e.enterNow l v) := by
  unfold Device.enterNow
  split
  · exact h.makeHot
  · split
    · exact h.onLeaf.makeHot
    · exact h.sched rfl

theorem enterSoon {l : Nat} : KeepsClock d (e.enterSoon l) := by
  refine .ite (h.sched rfl) ?_
  split
  · exact h.sched rfl
  · exact h.sched rfl

theorem enterHot : KeepsClock d e.enterHot := foldl (foldl (h.sched rfl) fun _ _ h => h.enterNow) fun _ _ h => h.enterSoon

/-! ### What waits on the edge (R65, R76, R289, R298, R395, R403) -/

theorem workPoll : KeepsClock d e.workPoll := by
  refine h.foldl fun x j h => ?_
  split
  · exact .ite h h.dropUnit.finish
  · exact h

theorem holdDeadline : KeepsClock d e.holdDeadline := by
  unfold Device.holdDeadline
  split
  · exact .ite ⟨h.clock, h.power, h.incoming⟩ h
  · exact h

theorem maskVectors {l : Nat} : KeepsClock d (e.maskVectors l) := h.foldl fun _ _ h => ⟨h.clock, h.power, h.incoming⟩

theorem clearRange {l : Nat} : KeepsClock d (e.clearRange l) := by
  unfold Device.clearRange
  exact onLeaf (h.foldl fun _ _ h => h.emptySlot)

theorem freeLeaf {l : Nat} : KeepsClock d (e.freeLeaf l) := by
  have masked : KeepsClock d (((e.clearRange l).setLeaf l { meters := (e.leaf l).meters, causes := (e.leaf l).causes }).maskVectors l) :=
    h.clearRange.setLeaf.maskVectors
  exact ⟨masked.clock, masked.power, masked.incoming⟩

theorem hingeEnd {s : Status} : KeepsClock d (e.hingeEnd s) := h.finish

theorem destroyStep {l : Nat} : KeepsClock d (e.destroyStep l) := .ite (h.freeLeaf.frame (changesOnly_leafCause _ _ _)).hingeEnd h

theorem exportWork : KeepsClock d e.exportWork :=
  .ite h.hingeEnd (.ite (jobWork (onJob (h.frame (changesOnly_takeLines e 88)))) h.onJob)

theorem openWith {l : Nat} : KeepsClock d (e.openWith l) := by
  have taken : KeepsClock d ((e.takeLines 16).hingeOn l) := (h.frame (changesOnly_takeLines e 16)).onUnit
  unfold Device.openWith
  exact hingeEnd (taken.setLeaf.maskVectors.frame (changesOnly_hg _ _))

theorem hingePoll : KeepsClock d e.hingePoll := by
  unfold Device.hingePoll
  split
  · refine .ite h ?_
    split
    · exact h.destroyStep
    · exact .ite h.hingeEnd (.ite h.openWith h)
    · exact h.exportWork
    · exact h
  · exact h

theorem markEnded {op : Nat} {s : Status} : KeepsClock d (e.markEnded op s) := h.frame (changesOnly_onMi e _)

theorem imageRead {x : Job} : KeepsClock d (e.imageRead x) := by
  have ended : KeepsClock d (e.onUnit .interlock fun u => { u with job := none }) := h.onUnit
  unfold Device.imageRead
  refine .ite h (.ite ended.markEnded ?_)
  split
  · exact ended.raiseSrc.markEnded
  · exact markEnded (ended.frame (changesOnly_mc _ _))

theorem imageHasRead : KeepsClock d (e.jobHasRead .interlock) := by
  unfold Device.jobHasRead
  split
  · exact h
  · exact .ite h h.imageRead

end

end KeepsClock

end Sys2Proof.Safety
end

section
/-! BEAT_EDGE (R167, R169, R180): BEAT goes to the higher of its two counters and the beat begins, with the plan of its freeze point spent. -/

namespace Sys2Proof.Safety

open Sys2Proof.Machine

/-! ### The two counters (R167, R169) -/

/-- A device whose beat has just begun, both counters at `n`, with the event bits `evt`. -/
def begunAt (d : Device) (n evt : Nat) : Device := { d with sc := { d.sc with beat := n, beatB := n, tick := .begun, evt := evt } }

/-- Counters that agree step together (R167). -/
theorem tickBeat_of_agree {d : Device} (h : d.sc.beat = d.sc.beatB) : d.tickBeat none = begunAt d ((d.sc.beat + 1) % 2 ^ 48) d.sc.evt := by
  simp only [Device.tickBeat, ← h, Nat.max_self, bne_self_eq_false, Device.when_false, begunAt]

/-- A second counter at another value raises source 1252, and the higher value stands (R169). -/
theorem tickBeat_of_differ {d : Device} {b : BitVec 48} (h : b.toNat ≠ (d.sc.beat + 1) % 2 ^ 48) :
    d.tickBeat (some b) = (begunAt d (max ((d.sc.beat + 1) % 2 ^ 48) b.toNat) (d.sc.evt ||| 4)).raiseSrc 1252 := by
  have differ : ((d.sc.beat + 1) % 2 ^ 48 != b.toNat) = true := bne_iff_ne.mpr h.symm
  simp only [Device.tickBeat, differ, Device.when_true, begunAt]

/-! ### The edge -/

/-- A device whose plan is spent. -/
def planSpent (d : Device) : Device := { d with sc := { d.sc with plan := [] } }

/-- The plan and the kept engines of the freeze point go with its edge. -/
theorem KeepsClock.spendPlan {d e : Device} (h : KeepsClock d e) (turns : Map Turn) :
    KeepsClock (planSpent d) { e with sc := { e.sc with plan := [], kept := [] }, turns := turns } :=
  ⟨by simp only [schedClock, planSpent, h.beat, h.beatB, h.tick, h.stage], h.power, h.incoming⟩

/-- What an edge shows whose counters have come to `n`. -/
theorem KeepsClock.begun {d e : Device} {n evt : Nat} (h : KeepsClock (planSpent (begunAt d n evt)) e) :
    e.sc.beat = n ∧ e.sc.beatB = n ∧ e.sc.tick = .begun ∧ e.sc.plan = [] ∧ e.power = d.power :=
  ⟨h.beat, h.beatB, h.tick, h.plan, h.power⟩

theorem beatEdge_keepsClock (d : Device) (b : Option (BitVec 48)) : KeepsClock (planSpent (d.tickBeat b)) (d.beatEdge b) := by
  have ended := (KeepsClock.refl (d.tickBeat b)).takeEdgeStage.zeroised.applyDue (beat := d.sc.beat)
  have changed (leaves : List Nat) : KeepsClock (d.tickBeat b)
      (leaves.foldl (fun x l => x.applyKeyway l) ((d.tickBeat b).takeEdgeStage.zeroised.applyDue d.sc.beat)) :=
    ended.foldl fun _ _ h => h.applyKeyway
  exact (changed _).runServed.assignHomes.dispatch.blankStrokes.enterHot.spendPlan _

/-- What waits on the edge, hinge work, a drain, an image write, leaves the beat that has begun alone (R65, R395, R403). -/
theorem edgeRow_keepsClock (d : Device) (b : Option (BitVec 48)) : KeepsClock (planSpent (d.workPoll.tickBeat b)) (d.edgeRow b) :=
  (beatEdge_keepsClock d.workPoll b).holdDeadline.hingePoll.imageHasRead

/-! ### The row -/

/-- BEAT_EDGE answers once the strokes of the beat have ended and the engine PLL has locked. -/
theorem exec_beatEdge {s : State} (h : s.dev.sc.tick = .ended) (locked : s.dev.power.engPll = true) (b : Option (BitVec 48)) :
    exec (.beatEdge b) s = .next { s with dev := { s.dev.edgeRow b with perm := s.dev.perm } } := by
  have may : (s.dev.sc.tick == .ended && s.dev.power.engPll) = true := by simp [h, locked]
  exact congrArg (run s · (s.dev.edgeRow b)) may

theorem exec_beatEdge_agree (s : State) (h : s.dev.sc.tick = .ended) (locked : s.dev.power.engPll = true)
    (agree : s.dev.sc.beat = s.dev.sc.beatB) : ∃ t, exec (.beatEdge none) s = .next t ∧ t.pending = s.pending ∧
      t.dev.sc.beat = (s.dev.sc.beat + 1) % 2 ^ 48 ∧ t.dev.sc.beatB = (s.dev.sc.beat + 1) % 2 ^ 48 ∧ t.dev.sc.tick = .begun ∧
      t.dev.sc.plan = [] ∧ t.dev.perm = s.dev.perm ∧ t.dev.power = s.dev.power := by
  have polled := (KeepsClock.refl s.dev).workPoll
  have row := (edgeRow_keepsClock s.dev none).withPerm s.dev.perm
  rw [tickBeat_of_agree (polled.beat.trans (agree.trans polled.beatB.symm)), polled.beat] at row
  obtain ⟨beat, beatB, tick, plan, power⟩ := row.begun
  exact ⟨_, exec_beatEdge h locked none, rfl, beat, beatB, tick, plan, rfl, power.trans polled.power⟩

theorem exec_beatEdge_differ (b : BitVec 48) (s : State) (h : s.dev.sc.tick = .ended) (locked : s.dev.power.engPll = true)
    (differ : b.toNat ≠ (s.dev.sc.beat + 1) % 2 ^ 48) : ∃ t, exec (.beatEdge (some b)) s = .next t ∧ t.pending = s.pending ∧
      t.dev.sc.beat = max ((s.dev.sc.beat + 1) % 2 ^ 48) b.toNat ∧ t.dev.sc.tick = .begun ∧ { source := 1252 } ∈ t.dev.fc.incoming := by
  have polled := (KeepsClock.refl s.dev).workPoll
  have row := (edgeRow_keepsClock s.dev (some b)).withPerm s.dev.perm
  rw [tickBeat_of_differ (by rwa [polled.beat]), polled.beat] at row
  obtain ⟨beat, _, tick, _, _⟩ := ((KeepsClock.refl (planSpent (begunAt _ _ _))).raiseSrc.trans row).begun
  exact ⟨_, exec_beatEdge h locked (some b), rfl, beat, tick, row.incoming (List.mem_append_right _ (List.mem_singleton_self _))⟩

theorem exec_beatEdge_cannotOccur (b : Option (BitVec 48)) (s : State) (h : s.dev.sc.tick ≠ .ended) :
    exec (.beatEdge b) s = .fault .cannotOccur := by
  have out : (s.dev.sc.tick == .ended && s.dev.power.engPll) = false := by simp [h]
  exact congrArg (run s · (s.dev.edgeRow b)) out

/-- Settles O43, clause by clause: the edge with counters that agree and that differ, the freeze point, and the two rows out of their turn. -/
theorem beatsAdvanceAndFreeze : Obligations.BeatsAdvanceAndFreeze :=
  ⟨exec_beatEdge_agree, exec_beatEdge_differ, exec_freezePoint, exec_beatEdge_cannotOccur, exec_freezePoint_cannotOccur⟩

end Sys2Proof.Safety
end

section
/-! Error injection (R219, R255, R270, R280, R333): a write of the CTL register of a block that can inject, with and without FAULT_INJECT. -/

namespace Sys2Proof.Safety

open Sys2Proof.Machine

/-! ### The CTL registers -/

/-- What a write of the CTL register of an injection target sets in its block. -/
def setCtl : InjectTarget → Device → Nat → Device
  | .tumbler n, d, v => d.onTu n fun x => x.ctl v
  | .bolt n, d, v => d.onBo n fun x => x.ctl v
  | .bank, d, v => { d with bb := d.bb.ctl v }
  | .blockArray, d, v => { d with bk := d.bk.ctl v }
  | .digest, d, v => { d with dg := d.dg.ctl v }

theorem engineCtl_armed_of_inject {v : Nat} (h : bitOf v 8 = true) (x : Engine) : (x.ctl v).armed = some (field v 4 2) := if_pos h

theorem engineCtl_armed_of_no_inject {v : Nat} (h : bitOf v 8 = false) (x : Engine) : (x.ctl v).armed = x.armed := by simp [Engine.ctl, h]

theorem arrayCtl_armed_of_inject {v : Nat} (h : bitOf v 8 = true) (hk : field v 4 2 ≠ 3) (x : Array') :
    (x.ctl v).armed = some (field v 4 2) := by simp [Array'.ctl, h, hk]

theorem arrayCtl_armed_of_no_inject {v : Nat} (h : bitOf v 8 = false) (x : Array') : (x.ctl v).armed = x.armed := by simp [Array'.ctl, h]

theorem changesOnly_setCtl_shared {x : InjectTarget} (hx : x = .bank ∨ x = .blockArray ∨ x = .digest) (d : Device) (v : Nat) :
    changesOnly [.bb, .bk, .dg] d (setCtl x d v) := by
  obtain rfl | rfl | rfl := hx
  · exact (changesOnly_bb_clean d (d.bb.ctl v) rfl).mono (by decide)
  · exact (changesOnly_bk d _).mono (by decide)
  · exact (changesOnly_dg d _).mono (by decide)

theorem changesOnly_setCtl (x : InjectTarget) (d : Device) (v : Nat) : changesOnly [.tu, .bo, .bb, .bk, .dg] d (setCtl x d v) := by
  cases x with
  | tumbler n => exact (changesOnly_onTu_clean d n (·.ctl v) fun _ => rfl).mono (by simp)
  | bolt n => exact (changesOnly_onBo_clean d n (·.ctl v) fun _ => rfl).mono (by simp)
  | bank => exact (changesOnly_setCtl_shared (.inl rfl) d v).mono (by decide)
  | blockArray => exact (changesOnly_setCtl_shared (.inr (.inl rfl)) d v).mono (by decide)
  | digest => exact (changesOnly_setCtl_shared (.inr (.inr rfl)) d v).mono (by decide)

theorem tumbler_onTu_of_ne {n k : Nat} (h : k ≠ n) (d : Device) (f : Engine → Engine) : (d.onTu n f).tumbler k = d.tumbler k := by
  simp [Device.tumbler, Device.onTu, nth, modifyAt, h.symm]

theorem bolt_onBo_of_ne {n k : Nat} (h : k ≠ n) (d : Device) (f : Engine → Engine) : (d.onBo n f).bolt k = d.bolt k := by
  simp [Device.bolt, Device.onBo, nth, modifyAt, h.symm]

/-! ### What is armed -/

/-- The injections armed in every block that can inject. -/
def armedKinds (d : Device) : List (Option Nat) × List (Option Nat) × Option Nat × Option Nat × Option Nat :=
  (d.tu.map Engine.armed, d.bo.map Engine.armed, d.bb.armed, d.bk.armed, d.dg.armed)

theorem armed_of_kept {l r : List Engine} (h : l.map kept = r.map kept) : l.map Engine.armed = r.map Engine.armed := by
  simpa [Function.comp_def, kept] using congrArg (List.map Engine.armed) h

theorem armedKinds_of_changesOnly {ps : List Part} {d e : Device} (h : changesOnly ps d e)
    (hp : ∀ p ∈ [Part.tu, .bo, .bb, .bk, .dg], p ∉ ps) : armedKinds e = armedKinds d := by
  have tu : e.tu.map kept = d.tu.map kept := h .tu (hp _ (by decide))
  have bo : e.bo.map kept = d.bo.map kept := h .bo (hp _ (by decide))
  have clean : ({ e.bb with dirty := 0 } : Array') = { d.bb with dirty := 0 } := h .bb (hp _ (by decide))
  have bb : e.bb.armed = d.bb.armed := by simpa using congrArg Array'.armed clean
  have bk : e.bk = d.bk := h .bk (hp _ (by decide))
  have dg : e.dg = d.dg := h .dg (hp _ (by decide))
  simp [armedKinds, armed_of_kept tu, armed_of_kept bo, bb, bk, dg]

/-- A write of CTL with INJECT 0 leaves what is armed as it was. -/
theorem armedKinds_setCtl {v : Nat} (h : bitOf v 8 = false) (x : InjectTarget) (d : Device) : armedKinds (setCtl x d v) = armedKinds d := by
  have engine (l : List Engine) (n : Nat) := map_modifyAt Engine.armed (fun x => x.ctl v) (engineCtl_armed_of_no_inject h) l n
  cases x <;> simp [armedKinds, setCtl, Device.onTu, Device.onBo, engine, arrayCtl_armed_of_no_inject h]

theorem nth_armed (l : List Engine) (k : Nat) : (nth l k {}).armed = nth (l.map Engine.armed) k none := by
  cases h : l[k]? <;> simp [nth, h]

theorem armed_of_armedKinds {d e : Device} (h : armedKinds e = armedKinds d) :
    (∀ k, (e.tumbler k).armed = (d.tumbler k).armed) ∧ (∀ k, (e.bolt k).armed = (d.bolt k).armed) ∧
      e.bb.armed = d.bb.armed ∧ e.bk.armed = d.bk.armed ∧ e.dg.armed = d.dg.armed := by
  simp only [armedKinds, Prod.mk.injEq] at h
  obtain ⟨tu, bo, shared⟩ := h
  refine ⟨fun k => ?_, fun k => ?_, shared⟩
  · simp only [Device.tumbler, nth_armed, tu]
  · simp only [Device.bolt, nth_armed, bo]

/-! ### The write -/

/-- A tumbler whose BLOCK reset is released takes a write of its CTL register (R354). -/
theorem not_held_tumbler {d : Device} {n : Nat} (h : n < 32) (hr : .tumbler n ∉ d.fc.resets) : d.held (injectOffset (.tumbler n)) = false := by
  simp only [Device.held, List.any_eq_false, injectOffset]
  intro r hm
  cases r with
  | tumbler k =>
    have : k ≠ n := fun e => hr (e ▸ hm)
    simp only [beq_iff_eq]; omega
  | _ => simp <;> omega

theorem injectOffset_word {x : InjectTarget} (h : x.wf = true) : injectOffset x % 4 = 0 ∧ injectOffset x / 65536 < 0x80 := by
  cases x with
  | tumbler n | bolt n => have : n < _ := of_decide_eq_true h; simp only [injectOffset]; omega
  | _ => decide

theorem blockWrite_injectOffset {x : InjectTarget} (h : x.wf = true) (d : Device) (v : Nat) :
    d.blockWrite (injectOffset x) v = d.ctlWrite v (setCtl x) := by
  cases x with
  | tumbler n =>
    have hn : n < 32 := of_decide_eq_true h
    have page : (0x100004 + n * 0x10000) / 65536 = 0x10 + n := by omega
    have word : (0x100004 + n * 0x10000) % 65536 = 4 := by omega
    simp only [Device.blockWrite, injectOffset, page, word]
    rw [if_pos (by omega), Nat.add_sub_cancel_left]
    rfl
  | bolt n =>
    have hn : n < 16 := of_decide_eq_true h
    have page : (0x300004 + n * 0x10000) / 65536 = 0x30 + n := by omega
    have word : (0x300004 + n * 0x10000) % 65536 = 4 := by omega
    simp only [Device.blockWrite, injectOffset, page, word]
    rw [if_neg (by omega), if_pos (by omega), Nat.add_sub_cancel_left]
    rfl
  | bank | blockArray | digest => rfl

/-- ERROR_INJECT is a write of the CTL register of its target. -/
theorem exec_errorInject {s : State} (h : hostOpen s) {x : InjectTarget} (hx : x.wf = true) (hh : s.dev.held (injectOffset x) = false) (v : Word) :
    exec (.errorInject x v) s = run s true (s.dev.ctlWrite v.toNat (setCtl x)) := by
  obtain ⟨aligned, page⟩ := injectOffset_word hx
  have write := hostWrite_word h aligned page v.toNat
  rw [hh, if_neg Bool.false_ne_true, blockWrite_injectOffset hx] at write
  exact congrArg (run s true) write

theorem ctlWrite_of_right {d : Device} (h : d.right 6 = true) (v : Nat) (f : Device → Nat → Device) : d.ctlWrite v f = f d v := by
  simp [Device.ctlWrite, Device.injectDenied, h]

theorem ctlWrite_denied {d : Device} (h : d.right 6 = false) {v : Nat} (hv : bitOf v 8 = true) (f : Device → Nat → Device) :
    d.ctlWrite v f = f d.denied (v - 256) := by
  simp [Device.ctlWrite, Device.injectDenied, h, hv]

/-- The value that is left of a write whose INJECT is dropped asks for no injection. -/
theorem bitOf_drop_inject {v : Nat} (h : bitOf v 8 = true) : bitOf (v - 256) 8 = false := by
  simp only [bitOf, Nat.testBit_eq_decide_div_mod_eq, decide_eq_true_eq, decide_eq_false_iff_not] at h ⊢
  omega

/-- Under FAULT_INJECT the write reaches its register whole (R219, R333). -/
theorem exec_errorInject_of_right {s : State} (h : hostOpen s) {x : InjectTarget} (hx : x.wf = true) (hh : s.dev.held (injectOffset x) = false)
    (hr : s.dev.right 6 = true) {v : Word} {ps : List Part} (hp : Part.perm ∉ ps) (k : changesOnly ps s.dev (setCtl x s.dev v.toNat)) :
    exec (.errorInject x v) s = .next { s with dev := setCtl x s.dev v.toNat } ∧
      keepsRest ps s { s with dev := setCtl x s.dev v.toNat } := by
  rw [exec_errorInject h hx hh, ctlWrite_of_right hr]
  exact run_of_changesOnly rfl hp k

/-! ### The clauses of ErrorInjectionNeedsItsRight -/

theorem exec_errorInject_tumbler (n : Nat) (v : Word) (s : State) (h : hostOpen s) (hn : n < 32) (hl : n < s.dev.tu.length)
    (hb : .tumbler n ∉ s.dev.fc.resets) (hr : s.dev.right 6 = true) (hv : bitOf v.toNat 8 = true) :
    ∃ t, exec (.errorInject (.tumbler n) v) s = .next t ∧ (t.dev.tumbler n).armed = some (field v.toNat 4 2) ∧
      (t.dev.tumbler n).scrubEn = bitOf v.toNat 0 ∧ (∀ k, k ≠ n → t.dev.tumbler k = s.dev.tumbler k) ∧ keepsRest [.tu] s t := by
  obtain ⟨e, k⟩ := exec_errorInject_of_right h (x := .tumbler n) (v := v) (decide_eq_true hn) (not_held_tumbler hn hb) hr (by decide)
    (changesOnly_onTu_clean _ _ _ fun _ => rfl)
  have set : (setCtl (.tumbler n) s.dev v.toNat).tumbler n = (s.dev.tumbler n).ctl v.toNat := tumbler_onTu hl _
  refine ⟨_, e, ?_, ?_, fun _ hk => tumbler_onTu_of_ne hk _ _, k⟩
  · rw [set, engineCtl_armed_of_inject hv]
  · rw [set]; rfl

theorem exec_errorInject_bolt (n : Nat) (v : Word) (s : State) (h : hostOpen s) (hn : n < 16) (hl : n < s.dev.bo.length)
    (hh : s.dev.held (injectOffset (.bolt n)) = false) (hr : s.dev.right 6 = true) (hv : bitOf v.toNat 8 = true) :
    ∃ t, exec (.errorInject (.bolt n) v) s = .next t ∧ (t.dev.bolt n).armed = some (field v.toNat 4 2) ∧
      (∀ k, k ≠ n → t.dev.bolt k = s.dev.bolt k) ∧ keepsRest [.bo] s t := by
  obtain ⟨e, k⟩ := exec_errorInject_of_right h (x := .bolt n) (v := v) (decide_eq_true hn) hh hr (by decide)
    (changesOnly_onBo_clean _ _ _ fun _ => rfl)
  have set : (setCtl (.bolt n) s.dev v.toNat).bolt n = (s.dev.bolt n).ctl v.toNat := bolt_onBo hl _
  exact ⟨_, e, by rw [set, engineCtl_armed_of_inject hv], fun _ hk => bolt_onBo_of_ne hk _ _, k⟩

theorem exec_errorInject_shared (x : InjectTarget) (v : Word) (s : State) (h : hostOpen s) (hr : s.dev.right 6 = true)
    (hv : bitOf v.toNat 8 = true) (hk : field v.toNat 4 2 ≠ 3) (hh : s.dev.held (injectOffset x) = false)
    (hx : x = .bank ∨ x = .blockArray ∨ x = .digest) : ∃ t, exec (.errorInject x v) s = .next t ∧
      (x = .bank → t.dev.bb.armed = some (field v.toNat 4 2)) ∧ (x = .blockArray → t.dev.bk.armed = some (field v.toNat 4 2)) ∧
      (x = .digest → t.dev.dg.armed = some (field v.toNat 4 2)) ∧ keepsRest [.bb, .bk, .dg] s t := by
  have wf : x.wf = true := by obtain rfl | rfl | rfl := hx <;> rfl
  obtain ⟨e, k⟩ := exec_errorInject_of_right h wf hh hr (v := v) (by decide) (changesOnly_setCtl_shared hx _ _)
  have armed := arrayCtl_armed_of_inject hv hk
  refine ⟨_, e, ?_, ?_, ?_, k⟩ <;> rintro rfl <;> exact armed _

theorem exec_errorInject_denied (x : InjectTarget) (v : Word) (s : State) (h : hostOpen s) (ht : ∀ n, x = .tumbler n → n < 32)
    (hb : ∀ n, x = .bolt n → n < 16) (hh : s.dev.held (injectOffset x) = false) (hr : s.dev.right 6 = false) (hv : bitOf v.toNat 8 = true) :
    ∃ t, exec (.errorInject x v) s = .next t ∧ deniedIn s t ∧
      (∀ k, (t.dev.tumbler k).armed = (s.dev.tumbler k).armed) ∧ (∀ k, (t.dev.bolt k).armed = (s.dev.bolt k).armed) ∧
      t.dev.bb.armed = s.dev.bb.armed ∧ t.dev.bk.armed = s.dev.bk.armed ∧ t.dev.dg.armed = s.dev.dg.armed ∧
      keepsRest [.tu, .bo, .bb, .bk, .dg, .hs, .fc, .ul, .out] s t := by
  have wf : x.wf = true := by
    cases x with
    | tumbler n => exact decide_eq_true (ht n rfl)
    | bolt n => exact decide_eq_true (hb n rfl)
    | _ => rfl
  have write := changesOnly_setCtl x s.dev.denied (v.toNat - 256)
  obtain ⟨e, k⟩ := run_of_changesOnly (s := s) rfl (by decide)
    (((changesOnly_denied s.dev).mono (qs := [.tu, .bo, .bb, .bk, .dg, .hs, .fc, .ul, .out]) (by decide)).trans (write.mono (by decide)))
  have armed := (armedKinds_setCtl (bitOf_drop_inject hv) x s.dev.denied).trans (armedKinds_of_changesOnly (changesOnly_denied s.dev) (by decide))
  obtain ⟨tu, bo, bb, bk, dg⟩ := armed_of_armedKinds armed
  refine ⟨_, ?_, ⟨(write .hs (by decide)).trans (denied_hs _), (write .fc (by decide)).trans (denied_fc _)⟩, tu, bo, bb, bk, dg, k⟩
  rw [exec_errorInject h wf hh, ctlWrite_denied hr hv]
  exact e

/-- Settles O24, clause by clause: an injection armed in a tumbler, in a bolt and in a shared block, and one dropped without its right. -/
theorem errorInjectionNeedsItsRight : Obligations.ErrorInjectionNeedsItsRight :=
  ⟨exec_errorInject_tumbler, exec_errorInject_bolt, exec_errorInject_shared, exec_errorInject_denied⟩

end Sys2Proof.Safety
end

section
/-! SUPPORT. The shapes that errors of home stores and events of mask generators share (R200, R201, R209, R219, R258, R270): a count or a flag of one
engine, bits of its event register, and a source. -/

namespace Sys2Proof.Safety

open Sys2Proof.Machine

/-- A tumbler changes, sets bits of its TU_EVT and raises a source (R219). -/
def tuReport (d : Device) (n : Nat) (f : Engine → Engine) (bits source : Nat) : Device := ((d.onTu n f).tuEvt n bits).raiseSrc source

/-- A bolt changes, sets bits of its BO_EVT and raises a source (R270). -/
def boReport (d : Device) (n : Nat) (f : Engine → Engine) (bits source : Nat) : Device := ((d.onBo n f).boEvt n bits).raiseSrc source

theorem tu_length_onTu (d : Device) (n : Nat) (f : Engine → Engine) : (d.onTu n f).tu.length = d.tu.length := List.length_modify ..

theorem bo_length_onBo (d : Device) (n : Nat) (f : Engine → Engine) : (d.onBo n f).bo.length = d.bo.length := List.length_modify ..

theorem tu_length_tuReport (d : Device) (n : Nat) (f : Engine → Engine) (bits source : Nat) :
    (tuReport d n f bits source).tu.length = d.tu.length := (tu_length_onTu _ n _).trans (tu_length_onTu d n f)

theorem bo_length_boReport (d : Device) (n : Nat) (f : Engine → Engine) (bits source : Nat) :
    (boReport d n f bits source).bo.length = d.bo.length := (bo_length_onBo _ n _).trans (bo_length_onBo d n f)

theorem tumbler_tuReport {d : Device} {n : Nat} (h : n < d.tu.length) (f : Engine → Engine) (bits source : Nat) :
    (tuReport d n f bits source).tumbler n = { f (d.tumbler n) with evt := (f (d.tumbler n)).evt ||| bits } :=
  (tumbler_onTu ((tu_length_onTu d n f).symm ▸ h) _).trans (by rw [tumbler_onTu h])

theorem bolt_boReport {d : Device} {n : Nat} (h : n < d.bo.length) (f : Engine → Engine) (bits source : Nat) :
    (boReport d n f bits source).bolt n = { f (d.bolt n) with evt := (f (d.bolt n)).evt ||| bits } :=
  (bolt_onBo ((bo_length_onBo d n f).symm ▸ h) _).trans (by rw [bolt_onBo h])

theorem changesOnly_tuReport (d : Device) (n : Nat) {f : Engine → Engine} (h : ∀ x, unclean (f x) = unclean x) (bits source : Nat) :
    changesOnly [.tu, .fc] d (tuReport d n f bits source) :=
  (((changesOnly_onTu_clean d n f h).then (changesOnly_tuEvt _ n bits)).then (changesOnly_raiseSrc _ source)).mono (by decide)

theorem changesOnly_boReport (d : Device) (n : Nat) {f : Engine → Engine} (h : ∀ x, unclean (f x) = unclean x) (bits source : Nat) :
    changesOnly [.bo, .fc] d (boReport d n f bits source) :=
  (((changesOnly_onBo_clean d n f h).then (changesOnly_boEvt _ n bits)).then (changesOnly_raiseSrc _ source)).mono (by decide)

end Sys2Proof.Safety
end

section
/-! Mask and blinding generators (R209, R252, R260, R289): reseed and starvation. -/

namespace Sys2Proof.Safety

open Sys2Proof.Machine

/-- The home engine of the generator stands in its table. -/
abbrev genListed (d : Device) (g : GenId) : Prop := (∀ n, g = .tumbler n → n < d.tu.length) ∧ (∀ n, g = .bolt n → n < d.bo.length)

theorem maskGen_onGen {d : Device} {g : GenId} (h : genListed d g) (f : MaskGen → MaskGen) : (d.onGen g f).maskGen g = f (d.maskGen g) := by
  obtain ⟨ht, hb⟩ := h
  cases g with
  | tumbler n => exact congrArg Engine.mask (tumbler_onTu (ht n rfl) _)
  | bolt n => exact congrArg Engine.mask (bolt_onBo (hb n rfl) _)
  | bank => rfl

theorem changesOnly_onGen (d : Device) (g : GenId) (f : MaskGen → MaskGen) : changesOnly [.tu, .bo, .bb] d (d.onGen g f) := by
  cases g with
  | tumbler n => exact (changesOnly_onTu_clean d n (fun e => { e with mask := f e.mask }) fun _ => rfl).mono (by simp)
  | bolt n => exact (changesOnly_onBo_clean d n (fun e => { e with mask := f e.mask }) fun _ => rfl).mono (by simp)
  | bank => exact (changesOnly_bb_clean d { d.bb with mask := f d.bb.mask } rfl).mono (by simp)

/-! ### Reseed (R209, R289) -/

theorem hingePoll_of_idle {d : Device} (h : d.hg.cmd.job = none) : d.hingePoll = d := by simp [Device.hingePoll, h]

/-- Where no turn waits for random bytes, none is served (R289). -/
theorem serveDraws_of_none_waits {d : Device} (h : ∀ e ∈ d.turns, e.2.phase ≠ .waitEntropy) : d.serveDraws = d := by
  have none_waits : d.turns.filter (fun e => e.2.phase == .waitEntropy && e.2.op.isNone) = [] := by
    simpa [List.filter_eq_nil_iff] using fun slot x hx hw => absurd hw (h (slot, x) hx)
  rw [Device.serveDraws, none_waits]
  rfl

/-- The device with a generator reseeded from the oldest internal line (R209, R289). -/
def reseeded (d : Device) (g : GenId) : Device :=
  (d.takeLines seedBytes).onGen g fun m => m.reseed d.sc.beat (d.ns.lineBytes seedBytes)

theorem changesOnly_reseeded (d : Device) (g : GenId) : changesOnly [.ns, .tu, .bo, .bb] d (reseeded d g) :=
  (changesOnly_takeLines d seedBytes).then (changesOnly_onGen _ g _)

theorem maskGen_takeLines (d : Device) (n : Nat) (g : GenId) : (d.takeLines n).maskGen g = d.maskGen g := by cases g <;> rfl

theorem maskGen_reseeded {d : Device} {g : GenId} (h : genListed d g) :
    (reseeded d g).maskGen g = (d.maskGen g).reseed d.sc.beat (d.ns.lineBytes seedBytes) := by
  rw [reseeded, maskGen_onGen (d := d.takeLines seedBytes) h, maskGen_takeLines]

theorem ns_reseeded (d : Device) (g : GenId) : (reseeded d g).ns = (d.takeLines seedBytes).ns := changesOnly_onGen _ g _ .ns (by decide)

/-- MASK_RESEED where nothing waits behind it. -/
theorem exec_maskReseed {g : GenId} {s : State} (hg : genExists g = true) (hd : s.dev.canDraw 32 = true) (hj : s.dev.hg.cmd.job = none)
    (hw : ∀ e ∈ s.dev.turns, e.2.phase ≠ .waitEntropy)
    (due : (s.dev.maskGen g).seeded = false ∨ (s.dev.maskGen g).starved = true ∨ met s.dev.sc.beat (s.dev.maskGen g).due = true) :
    exec (.maskReseed g) s = .next { s with dev := reseeded s.dev g } ∧
      linesTaken s { s with dev := reseeded s.dev g } 32 ∧ keepsRest [.ns, .tu, .bo, .bb] s { s with dev := reseeded s.dev g } := by
  have frame := changesOnly_reseeded s.dev g
  have polled : (reseeded s.dev g).hingePoll = reseeded s.dev g := hingePoll_of_idle (by rwa [frame .hg (by decide)])
  have served : (reseeded s.dev g).serveDraws = reseeded s.dev g := serveDraws_of_none_waits (by rwa [frame .turns (by decide)])
  have may : (genExists g && s.dev.canDraw seedBytes && (!(s.dev.maskGen g).seeded || (s.dev.maskGen g).starved ||
      met s.dev.sc.beat (s.dev.maskGen g).due)) = true := by simpa [hg, seedBytes, hd, or_assoc] using due
  obtain ⟨e, k⟩ := run_of_changesOnly may (by decide) frame
  refine ⟨?_, ns_reseeded s.dev g, k⟩
  change run s _ (reseeded s.dev g).hingePoll.serveDraws = _
  rw [polled, served]
  exact e

theorem exec_maskReseed_due (g : GenId) (s : State) (hg : genExists g = true) (ht : ∀ n, g = .tumbler n → n < s.dev.tu.length)
    (hb : ∀ n, g = .bolt n → n < s.dev.bo.length) (hd : s.dev.canDraw 32 = true) (hs : (s.dev.maskGen g).seeded = true)
    (hj : s.dev.hg.cmd.job = none) (hw : ∀ e ∈ s.dev.turns, e.2.phase ≠ .waitEntropy)
    (due : (s.dev.maskGen g).starved = true ∨ met s.dev.sc.beat (s.dev.maskGen g).due = true) : ∃ t, exec (.maskReseed g) s = .next t ∧
      t.dev.maskGen g = { seeded := true, seed := s.dev.ns.lineBytes 32, ctr := 0, starved := false, due := (s.dev.sc.beat + 4096) % 2 ^ 48,
                          reseeds := min ((s.dev.maskGen g).reseeds + 1) 65535 } ∧
      linesTaken s t 32 ∧ keepsRest [.ns, .tu, .bo, .bb] s t := by
  obtain ⟨e, taken, k⟩ := exec_maskReseed hg hd hj hw (.inr due)
  refine ⟨_, e, ?_, taken, k⟩
  rw [maskGen_reseeded ⟨ht, hb⟩, MaskGen.reseed, hs]
  rfl

/-- The first seed of a generator (R209). -/
theorem exec_maskReseed_first (g : GenId) (s : State) (hg : genExists g = true) (ht : ∀ n, g = .tumbler n → n < s.dev.tu.length)
    (hb : ∀ n, g = .bolt n → n < s.dev.bo.length) (hd : s.dev.canDraw 32 = true) (hs : (s.dev.maskGen g).seeded = false)
    (hj : s.dev.hg.cmd.job = none) (hw : ∀ e ∈ s.dev.turns, e.2.phase ≠ .waitEntropy) : ∃ t, exec (.maskReseed g) s = .next t ∧
      (t.dev.maskGen g).seeded = true ∧ (t.dev.maskGen g).seed = s.dev.ns.lineBytes 32 ∧
      (t.dev.maskGen g).due = (s.dev.sc.beat + 4096) % 2 ^ 48 ∧ linesTaken s t 32 ∧ keepsRest [.ns, .tu, .bo, .bb] s t := by
  obtain ⟨e, taken, k⟩ := exec_maskReseed hg hd hj hw (.inl hs)
  refine ⟨_, e, ?_, ?_, ?_, taken, k⟩ <;> rw [maskGen_reseeded ⟨ht, hb⟩] <;> rfl

/-! ### Starvation (R209, R252, R260) -/

/-- The source that the starvation of a generator raises. -/
def starveSource : GenId → Nat
  | .tumbler n => 24 * n + 6
  | .bolt n => 768 + 12 * n + 9
  | .bank => 1001

theorem starve_fc (d : Device) (g : GenId) :
    (d.starve g).fc = { d.fc with incoming := d.fc.incoming ++ [{ source := starveSource g }] } := by cases g <;> rfl

theorem changesOnly_starve (d : Device) (g : GenId) : changesOnly [.tu, .bo, .bb, .fc] d (d.starve g) := by
  cases g with
  | tumbler n =>
    exact (changesOnly_tuReport d n (f := fun e => { e with mask := { e.mask with starved := true } }) (fun _ => rfl) 8 _).mono (by simp)
  | bolt n =>
    exact (changesOnly_boReport d n (f := fun e => { e with mask := { e.mask with starved := true } }) (fun _ => rfl) 8 _).mono (by simp)
  | bank =>
    exact (changesOnly.then (changesOnly_bb_clean d { d.bb with mask := { d.bb.mask with starved := true }, evt := d.bb.evt ||| 4 } rfl)
      (changesOnly_raiseSrc _ 1001)).mono (by simp)

theorem starve_starved {d : Device} {g : GenId} (h : genListed d g) : ((d.starve g).maskGen g).starved = true := by
  obtain ⟨ht, hb⟩ := h
  cases g with
  | tumbler n => exact congrArg (·.mask.starved) (tumbler_tuReport (ht n rfl) _ 8 _)
  | bolt n => exact congrArg (·.mask.starved) (bolt_boReport (hb n rfl) _ 8 _)
  | bank => rfl

theorem exec_maskStarved (g : GenId) (s : State) (hg : genExists g = true) (ht : ∀ n, g = .tumbler n → n < s.dev.tu.length)
    (hb : ∀ n, g = .bolt n → n < s.dev.bo.length) (hs : (s.dev.maskGen g).seeded = true) (hn : (s.dev.maskGen g).starved = false)
    (ho : 65536 ≤ (s.dev.maskGen g).overdue s.dev.sc.beat) : ∃ t, exec (.maskStarved g) s = .next t ∧ (t.dev.maskGen g).starved = true ∧
      raisedIn s t (starveSource g) ∧ keepsRest [.tu, .bo, .bb, .fc] s t := by
  have may : (genExists g && (s.dev.maskGen g).seeded && !(s.dev.maskGen g).starved &&
      65536 ≤ (s.dev.maskGen g).overdue s.dev.sc.beat) = true := by simp [hg, hs, hn, ho]
  obtain ⟨e, k⟩ := run_of_changesOnly may (by decide) (changesOnly_starve s.dev g)
  exact ⟨_, e, starve_starved ⟨ht, hb⟩, starve_fc s.dev g, k⟩

end Sys2Proof.Safety
end

section
/-! The scrubbers of the home stores and of vault memory (R199 to R202, R218, R258, R351). -/

namespace Sys2Proof.Safety

open Sys2Proof.Machine

/-! ### The next stripe or row (R202) -/

@[simp] theorem scrubOn_unclean (e : Engine) (bolt : Bool) : unclean (e.scrubOn bolt) = unclean e := by unfold Engine.scrubOn; split <;> rfl

/-- The scrubber's own step leaves what the check of the stripe or row has counted. -/
@[simp] theorem scrubOn_counts (e : Engine) (bolt : Bool) :
    (e.scrubOn bolt).ce = e.ce ∧ (e.scrubOn bolt).ue = e.ue ∧ (e.scrubOn bolt).evt = e.evt := by
  unfold Engine.scrubOn; split <;> exact ⟨rfl, rfl, rfl⟩

/-- STORE_SCRUB_STEP of a tumbler's store, by what the check of the stripe comes to. -/
theorem exec_scrub_tumbler {n : Nat} {r : EccResult} {spot : StoreSpot} {s : State} {d : Device} {ps : List Part}
    (hs : s.dev.scrubs (s.dev.tumbler n) = true) (hspot : s.dev.spotOn (.tumbler n) spot = true)
    (hd : s.dev.scrubStore (.tumbler n) r spot = d) (k : changesOnly ps s.dev d) (hp : Part.perm ∉ ps) (ht : Part.tu ∈ ps) :
    exec (.storeScrubStep (.tumbler n) r spot) s = .next { s with dev := d.onTu n fun e => e.scrubOn false } ∧
      keepsRest ps s { s with dev := d.onTu n fun e => e.scrubOn false } := by
  subst hd
  exact run_of_changesOnly (by simp [hs, hspot]) hp
    (k.trans ((changesOnly_onTu_clean _ n (·.scrubOn false) fun _ => scrubOn_unclean _ _).mono (by simpa using ht)))

/-- STORE_SCRUB_STEP of a bolt's store, by what the check of the row comes to. -/
theorem exec_scrub_bolt {n : Nat} {r : EccResult} {spot : StoreSpot} {s : State} {d : Device} {ps : List Part}
    (hs : s.dev.scrubs (s.dev.bolt n) = true) (hr : r ≠ .outerCorrected) (hspot : s.dev.spotOn (.bolt n) spot = true)
    (hd : s.dev.scrubStore (.bolt n) r spot = d) (k : changesOnly ps s.dev d) (hp : Part.perm ∉ ps) (hb : Part.bo ∈ ps) :
    exec (.storeScrubStep (.bolt n) r spot) s = .next { s with dev := d.onBo n fun e => e.scrubOn true } ∧
      keepsRest ps s { s with dev := d.onBo n fun e => e.scrubOn true } := by
  subst hd
  exact run_of_changesOnly (by simp [hs, hr, hspot]) hp
    (k.trans ((changesOnly_onBo_clean _ n (·.scrubOn true) fun _ => scrubOn_unclean _ _).mono (by simpa using hb)))

/-! ### Home stores -/

theorem exec_scrub_clean (n : Nat) (spot : StoreSpot) (s : State) (hn : n < s.dev.tu.length) (hs : s.dev.scrubs (s.dev.tumbler n) = true)
    (hspot : s.dev.spotOn (.tumbler n) spot = true) : ∃ t, exec (.storeScrubStep (.tumbler n) .clean spot) s = .next t ∧
      t.dev.tumbler n = (if (s.dev.tumbler n).scrubPos = 4681
        then { s.dev.tumbler n with scrubPos := 0, scrubPasses := ((s.dev.tumbler n).scrubPasses + 1) % 2 ^ 32 }
        else { s.dev.tumbler n with scrubPos := (s.dev.tumbler n).scrubPos + 1 }) ∧ keepsRest [.tu] s t := by
  obtain ⟨e, k⟩ := exec_scrub_tumbler (r := .clean) hs hspot rfl (changesOnly.refl [.tu] _) (by decide) (by decide)
  have last (p : Nat) : p + 1 = scrubSteps false ↔ p = 4681 := Nat.succ_inj
  refine ⟨_, e, (tumbler_onTu hn _).trans ?_, k⟩
  simp only [Engine.scrubOn, last, wrapAdd]

/-- One more in a count of corrected errors (R200, R258). -/
def withCe (x : Engine) : Engine := { x with ce := satAdd 16 x.ce 1 }

/-- One more in a count of uncorrectable errors (R201, R258). -/
def withUe (x : Engine) : Engine := { x with ue := satAdd 16 x.ue 1 }

theorem unclean_withCe (x : Engine) : unclean (withCe x) = unclean x := rfl

theorem unclean_withUe (x : Engine) : unclean (withUe x) = unclean x := rfl

/-- The end of a turn by a status is due, unless the turn has ended (R117, R118). -/
def dueIfOpen (st : Status) (x : Turn) : Turn := if x.ending.isNone then x.setDue st else x

theorem dueIfOpen_of_open {x : Turn} (h : x.ending = none) (st : Status) : dueIfOpen st x = x.setDue st := by simp [dueIfOpen, h]

theorem scrubStore_corrected_tumbler (d : Device) (n : Nat) (spot : StoreSpot) :
    d.scrubStore (.tumbler n) .corrected spot = tuReport d n withCe 1 (24 * n) := rfl

theorem scrubStore_corrected_bolt (d : Device) (n : Nat) (spot : StoreSpot) :
    d.scrubStore (.bolt n) .corrected spot = boReport d n withCe 1 (768 + 12 * n) := rfl

theorem scrubStore_uncorrectable_cells (d : Device) (n slot : Nat) :
    d.scrubStore (.tumbler n) .uncorrectable (.cells [slot]) = (tuReport d n withUe 4 (24 * n + 2)).onTurn slot (dueIfOpen St.memoryFault) := rfl

theorem scrubStore_uncorrectable_unowned (d : Device) (n : Nat) {spot : StoreSpot} (h : spot = .blank ∨ spot = .free) :
    d.scrubStore (.tumbler n) .uncorrectable spot = tuReport d n withUe 4 (24 * n + 4) := by obtain rfl | rfl := h <;> rfl

theorem exec_scrub_corrected_tumbler (n : Nat) (spot : StoreSpot) (s : State) (hn : n < s.dev.tu.length)
    (hs : s.dev.scrubs (s.dev.tumbler n) = true) (hspot : s.dev.spotOn (.tumbler n) spot = true) : ∃ t,
      exec (.storeScrubStep (.tumbler n) .corrected spot) s = .next t ∧ (t.dev.tumbler n).ce = min ((s.dev.tumbler n).ce + 1) 65535 ∧
      (t.dev.tumbler n).evt = (s.dev.tumbler n).evt ||| 1 ∧ raisedIn s t (24 * n) ∧ keepsRest [.tu, .fc] s t := by
  obtain ⟨e, k⟩ := exec_scrub_tumbler hs hspot (scrubStore_corrected_tumbler _ n spot)
    (changesOnly_tuReport _ n unclean_withCe 1 _) (by decide) (by decide)
  refine ⟨_, e, ?_, ?_, rfl, k⟩ <;>
    rw [tumbler_onTu (by rwa [tu_length_tuReport]), tumbler_tuReport hn]
  · exact (scrubOn_counts _ _).1
  · exact (scrubOn_counts _ _).2.2

theorem exec_scrub_corrected_bolt (n : Nat) (spot : StoreSpot) (s : State) (hn : n < s.dev.bo.length) (hs : s.dev.scrubs (s.dev.bolt n) = true)
    (hspot : s.dev.spotOn (.bolt n) spot = true) : ∃ t, exec (.storeScrubStep (.bolt n) .corrected spot) s = .next t ∧
      (t.dev.bolt n).ce = min ((s.dev.bolt n).ce + 1) 65535 ∧ raisedIn s t (768 + 12 * n) ∧ keepsRest [.bo, .fc] s t := by
  obtain ⟨e, k⟩ := exec_scrub_bolt (r := .corrected) hs (by decide) hspot (scrubStore_corrected_bolt _ n spot)
    (changesOnly_boReport _ n unclean_withCe 1 _) (by decide) (by decide)
  refine ⟨_, e, ?_, rfl, k⟩
  rw [bolt_onBo (by rwa [bo_length_boReport]), bolt_boReport hn]
  exact (scrubOn_counts _ _).1

/-- The count of uncorrectable errors after a scrub step whose check found one, ends of turns apart. -/
theorem scrub_ue {d u : Device} {n source : Nat} (hn : n < d.tu.length) (hu : u.tu = (tuReport d n withUe 4 source).tu) :
    ((u.onTu n fun e => e.scrubOn false).tumbler n).ue = min ((d.tumbler n).ue + 1) 65535 := by
  have same : u.tumbler n = (tuReport d n withUe 4 source).tumbler n := congrArg (fun l : List Engine => nth l n {}) hu
  rw [tumbler_onTu (by rwa [hu, tu_length_tuReport]), same, tumbler_tuReport hn]
  exact (scrubOn_counts _ _).2.1

theorem exec_scrub_uncorrectable_cells (n slot : Nat) (x : Turn) (s : State) (hn : n < s.dev.tu.length)
    (hs : s.dev.scrubs (s.dev.tumbler n) = true) (hx : Map.get? s.dev.turns slot = some x) (hb : x.bolt = false) (hh : x.home = some n)
    (he : x.ending = none) : ∃ t, exec (.storeScrubStep (.tumbler n) .uncorrectable (.cells [slot])) s = .next t ∧
      onlyTurn s t slot (x.setDue St.memoryFault) ∧ (t.dev.tumbler n).ue = min ((s.dev.tumbler n).ue + 1) 65535 ∧ raisedIn s t (24 * n + 2) ∧
      keepsRest [.tu, .turns, .fc] s t := by
  have hspot : s.dev.spotOn (.tumbler n) (.cells [slot]) = true := by simp [Device.spotOn, Device.homedOn, hx, hh, hb, homeId]
  obtain ⟨e, k⟩ := exec_scrub_tumbler hs hspot (scrubStore_uncorrectable_cells _ n slot)
    (((changesOnly_tuReport s.dev n unclean_withUe 4 _).then (changesOnly_onTurn _ slot _)).mono (qs := [.tu, .turns, .fc]) (by decide))
    (by decide) (by decide)
  refine ⟨_, e, ?_, scrub_ue (source := 24 * n + 2) hn rfl, rfl, k⟩
  rw [← dueIfOpen_of_open he]
  exact onlyTurn_of_modify (dueIfOpen St.memoryFault) hx rfl

theorem exec_scrub_uncorrectable_unowned (n : Nat) (spot : StoreSpot) (s : State) (hn : n < s.dev.tu.length)
    (hs : s.dev.scrubs (s.dev.tumbler n) = true) (hspot : spot = .blank ∨ spot = .free) : ∃ t,
      exec (.storeScrubStep (.tumbler n) .uncorrectable spot) s = .next t ∧ (t.dev.tumbler n).ue = min ((s.dev.tumbler n).ue + 1) 65535 ∧
      raisedIn s t (24 * n + 4) ∧ keepsRest [.tu, .fc] s t := by
  have on : s.dev.spotOn (.tumbler n) spot = true := by obtain rfl | rfl := hspot <;> rfl
  obtain ⟨e, k⟩ := exec_scrub_tumbler hs on (scrubStore_uncorrectable_unowned _ n hspot)
    (changesOnly_tuReport _ n unclean_withUe 4 _) (by decide) (by decide)
  exact ⟨_, e, scrub_ue hn rfl, rfl, k⟩

/-! ### Vault memory (R351) -/

/-- STORE_SCRUB_STEP of a vault half that finds an uncorrectable word, by what the word comes to. -/
theorem exec_scrub_vault {h : Nat} {place : VaultSpot} {s : State} {d : Device} {ps : List Part} (spot : StoreSpot)
    (hp : s.dev.power.engPll = true) (hplace : s.dev.spotIs place = true) (hd : s.dev.vaultUe h place = d) (k : changesOnly ps s.dev d)
    (hps : Part.perm ∉ ps) :
    exec (.storeScrubStep (.vault h place) .uncorrectable spot) s = .next { s with dev := d } ∧ keepsRest ps s { s with dev := d } := by
  subst hd
  exact run_of_changesOnly (by simp [hp, hplace]) hps k

theorem exec_scrub_vault_free (h a : Nat) (spot : StoreSpot) (s : State) (hp : s.dev.power.engPll = true) (ha : s.dev.vaultHeld a = false) :
    ∃ t, exec (.storeScrubStep (.vault h (.free a)) .uncorrectable spot) s = .next t ∧
      t.dev.vault = s.dev.vault.writeN (a / 8 * 8) (zeros 8) ∧ raisedIn s t (1126 + h) ∧ keepsRest [.vault, .fc] s t := by
  obtain ⟨e, k⟩ := exec_scrub_vault (place := .free a) spot hp (by simp [Device.spotIs, ha]) rfl
    (((changesOnly_raiseSrc s.dev (1126 + h)).then (changesOnly_vault _ (s.dev.vault.writeN (a / 8 * 8) (zeros 8)))).mono
      (qs := [.vault, .fc]) (by decide)) (by decide)
  exact ⟨_, e, rfl, rfl, k⟩

theorem get?_mapVals {α : Type} (f : Nat → α → α) (m : Map α) (k : Nat) : Map.get? (Map.mapVals m f) k = (Map.get? m k).map (f k) := by
  induction m with
  | nil => rfl
  | cons e r ih =>
    by_cases hk : e.1 = k
    · simp [Map.mapVals, Map.get?, hk]
    · simpa [Map.mapVals, Map.get?, hk] using ih

theorem turn_abortTurns {d : Device} {slot : Nat} {x : Turn} {p : Turn → Bool} (hx : Map.get? d.turns slot = some x) (hp : p x = true)
    (he : x.ending = none) (st : Status) : Map.get? (d.abortTurns st p).turns slot = some (x.setDue st) := by
  simp [Device.abortTurns, get?_mapVals, hx, hp, he]

/-- A leaf whose context is lost, with its turns ended and its keyway cleared, but for the cause that says so (R58, R351). -/
def contextDropped (d : Device) (l : Nat) : Device :=
  ((d.abortTurns St.memoryFault fun t => t.leaf == l).dropKeyway l).onLeaf l fun x => { x with state := .quiesced, deadline := none }

theorem contextLost_of_bound {d : Device} {l : Nat} (h : (d.leaf l).state ≠ .free) : d.contextLost l = (contextDropped d l).leafCause l 0x200 :=
  if_neg h

theorem leaf_contextDropped (d : Device) (l : Nat) :
    (contextDropped d l).leaf l = { d.leaf l with kw := { gen := (d.leaf l).kw.gen }, state := .quiesced, deadline := none } := by
  simp only [contextDropped, Device.dropKeyway, Device.leaf_onLeaf]
  rfl

theorem turn_contextDropped {d : Device} {l slot : Nat} {x : Turn} (hx : Map.get? d.turns slot = some x) (hl : x.leaf = l)
    (he : x.ending = none) : Map.get? (contextDropped d l).turns slot = some (x.setDue St.memoryFault) :=
  turn_abortTurns (p := fun t => t.leaf == l) hx (beq_iff_eq.2 hl) he St.memoryFault

theorem changesOnly_contextDropped (d : Device) (l : Nat) : changesOnly [.turns, .leaves] d (contextDropped d l) :=
  (((changesOnly_turns d _).then (changesOnly_onLeaf _ l _)).then (changesOnly_onLeaf _ l _)).mono (by decide)

theorem exec_scrub_vault_context (h l : Nat) (spot : StoreSpot) (s : State) (hp : s.dev.power.engPll = true)
    (hl : (s.dev.leaf l).state ≠ .free) : ∃ t, exec (.storeScrubStep (.vault h (.context l)) .uncorrectable spot) s = .next t ∧
      (t.dev.leaf l).state = .quiesced ∧ (t.dev.leaf l).kw = { gen := (s.dev.leaf l).kw.gen } ∧
      (t.dev.leaf l).causes = (s.dev.leaf l).causes ||| 0x200 ∧
      (∀ slot x, Map.get? s.dev.turns slot = some x → x.leaf = l → x.ending = none →
        Map.get? t.dev.turns slot = some (x.setDue St.memoryFault)) ∧
      raisedIn s t (1122 + h) ∧ keepsRest [.leaves, .turns, .fc, .ul, .out] s t := by
  have raised := changesOnly_raiseSrc s.dev (1122 + h)
  have dropped := changesOnly_contextDropped (s.dev.raiseSrc (1122 + h)) l
  have caused := changesOnly_leafCause (contextDropped (s.dev.raiseSrc (1122 + h)) l) l 0x200
  obtain ⟨e, k⟩ := exec_scrub_vault (place := .context l) spot hp (by simp [Device.spotIs, hl])
    (contextLost_of_bound (d := s.dev.raiseSrc (1122 + h)) hl)
    ((raised.then (dropped.then caused)).mono (qs := [.leaves, .turns, .fc, .ul, .out]) (by decide)) (by decide)
  refine ⟨_, e, ?_, ?_, ?_, fun slot x hx hxl he => ?_, ?_, k⟩
  · simp [leaf_contextDropped]
  · simp only [leaf_leafCause, leaf_contextDropped]; rfl
  · simp only [leaf_leafCause, leaf_contextDropped]; rfl
  · have turns := turns_of_changesOnly caused (by decide)
    exact (congrArg (fun m : Map Turn => Map.get? m slot) turns).trans (turn_contextDropped (d := s.dev.raiseSrc (1122 + h)) hx hxl he)
  · exact (dropped.then caused) .fc (by decide)

/-- Settles O46, clause by clause: a due reseed and a first one, starvation, and scrub steps of tumblers, bolts and vault memory. -/
theorem generatorsReseedAndStoresAreScrubbed : Obligations.GeneratorsReseedAndStoresAreScrubbed :=
  ⟨exec_maskReseed_due, exec_maskReseed_first, exec_maskStarved, exec_scrub_clean, exec_scrub_corrected_tumbler, exec_scrub_uncorrectable_cells,
    exec_scrub_uncorrectable_unowned, exec_scrub_corrected_bolt, exec_scrub_vault_free, exec_scrub_vault_context⟩

end Sys2Proof.Safety
end

section
/-! Commands of the command blocks begin (R47, R61, R62): a host write of a command register that reaches an idle block, the reads and the writes
that a command asks of module 0, and with these the commands of keyway admin (R311 to R315) and of the hasp block (R323, R328 to R334). -/

namespace Sys2Proof.Safety

open Sys2Proof.Machine

/-! ### A command reaches its block (R61) -/

theorem hostDoIn_of_hostOpen {s : State} (h : hostOpen s) (always : Bool) (f : Device → Device) : s.dev.hostDoIn always f = f s.dev := by
  obtain ⟨hs, hsh, hrom, hscr⟩ := h
  simp [Device.hostDoIn, hs, hsh, hrom, hscr]

theorem issueCmd_of_idle {d : Device} {j : JobId} (h : (d.unit j).job = none) (f : Device → Device) : d.issueCmd j f = f d := by
  simp [Device.issueCmd, h]

theorem command_of_mayCommand {s : State} {j : JobId} (h : mayCommand s j) (f : Device → Device) : s.dev.command j f = f s.dev := by
  rw [Device.command, hostDoIn_of_hostOpen h.1, issueCmd_of_idle h.2]

/-- A command answers what its effect gives, in the frame of that effect. -/
theorem run_command {s : State} {j : JobId} {f : Device → Device} {d : Device} {ps : List Part} (h : mayCommand s j) (hf : f s.dev = d)
    (hp : Part.perm ∉ ps) (k : changesOnly ps s.dev d) :
    run s true (s.dev.command j f) = .next { s with dev := d } ∧ keepsRest ps s { s with dev := d } := by
  rw [command_of_mayCommand h, hf]
  exact run_of_changesOnly rfl hp k

theorem perm_ne_unitPart (j : JobId) : Part.perm ≠ unitPart j := by cases j <;> decide

theorem run_command_refused {s : State} {j : JobId} {f : Device → Device} {st : Status} (h : mayCommand s j) (hf : f s.dev = s.dev.finish j st) :
    run s true (s.dev.command j f) = .next (refusedWith s j st) :=
  (run_command h hf (by simpa using perm_ne_unitPart j) (changesOnly_finish s.dev j st)).1

/-! ### Command registers (R61) -/

@[simp] theorem unit_onUnit (d : Device) (j : JobId) (f : CmdUnit → CmdUnit) : (d.onUnit j f).unit j = f (d.unit j) := by cases j <;> rfl

@[simp] theorem unit_onJob (d : Device) (j : JobId) (f : Job → Job) : (d.onJob j f).unit j = { d.unit j with job := (d.unit j).job.map f } := by
  cases j <;> rfl

@[simp] theorem unit_begin (d : Device) (j : JobId) (x : Job) : (d.begin_ j x).unit j = { d.unit j with job := some x } := unit_onUnit _ _ _

theorem endedWith_finish (s : State) (d : Device) (j : JobId) (st : Status) : endedWith { s with dev := d.finish j st } j st := by
  simp [endedWith, Device.finish]

theorem unit_of_changesOnly {ps : List Part} {d e : Device} {j : JobId} (h : changesOnly ps d e) (hp : unitPart j ∉ ps) : e.unit j = d.unit j := by
  cases j with
  | hinge => exact congrArg Hinge.cmd (h .hg hp)
  | keyway => exact congrArg KwAdmin.cmd (h .kw hp)
  | hasp => exact congrArg Hasp.cmd (h .hs hp)
  | interlock => exact congrArg Inter.cmd (h .mi hp)

@[simp] theorem dma_onJob (d : Device) (j : JobId) (f : Job → Job) (m : Nat) : (d.onJob j f).dma m = d.dma m := by cases j <;> rfl

/-! ### The reads that module m's DMA engine has been asked for (R47) -/

/-- What a read asks for, whether it is on the link or not. -/
def askOf (r : DmaRead) : Option Nat × Nat × Nat × ReadWhy := (r.pasid, r.addr, r.len, r.why)

/-- What the reads of module m's DMA engine ask for. -/
def asked (d : Device) (m : Nat) : List (Option Nat × Nat × Nat × ReadWhy) := (d.dma m).reads.map askOf

theorem readAsked_iff (t : State) (m : Nat) (p : Option Nat) (a n : Nat) (w : ReadWhy) : readAsked t m p a n w ↔ (p, a, n, w) ∈ asked t.dev m := by
  simp [readAsked, asked, askOf]

theorem dma_foldl_emit {α : Type} (g : α → Out) (l : List α) (d : Device) (m : Nat) : (l.foldl (fun d r => d.emit (g r)) d).dma m = d.dma m := by
  induction l generalizing d with
  | nil => rfl
  | cons a r ih => exact ih _

@[simp] theorem asked_issueReads (d : Device) (m : Nat) : asked (d.issueReads m) m = asked d m := by
  unfold Device.issueReads
  split
  · rfl
  · simp only [asked, dma_foldl_emit, Device.dma_onDma, List.map_map]
    refine List.map_congr_left fun r _ => ?_
    simp only [Function.comp]
    split <;> rfl

@[simp] theorem asked_readReq (d : Device) (m : Nat) (p : Option Nat) (a n : Nat) (w : ReadWhy) :
    asked (d.readReq m p a n w) m = asked d m ++ [(p, a, n, w)] := by
  rw [Device.readReq, asked_issueReads]
  simp [asked, askOf]

theorem asked_foldl_readReq (m : Nat) (p : Option Nat) (a n : Nat → Nat) (w : Nat → ReadWhy) (l : List Nat) (d : Device) :
    asked (l.foldl (fun d i => d.readReq m p (a i) (n i) (w i)) d) m = asked d m ++ l.map fun i => (p, a i, n i, w i) := by
  induction l generalizing d with
  | nil => simp
  | cons i r ih => simp [ih]

/-- Reads of `n` bytes ask for them 4 KiB at a time (R47). -/
theorem asked_readParts (d : Device) (m : Nat) (p : Option Nat) (a n : Nat) (w : Nat → ReadWhy) : asked (d.readParts m p a n w).1 m =
    asked d m ++ (List.range (ceilDiv n 4096)).map fun i => (p, a + 4096 * i, min 4096 (n - 4096 * i), w (4096 * i)) :=
  asked_foldl_readReq m p _ _ _ _ d

@[simp] theorem readParts_snd (d : Device) (m : Nat) (p : Option Nat) (a n : Nat) (w : Nat → ReadWhy) :
    (d.readParts m p a n w).2 = ceilDiv n 4096 := rfl

@[simp] theorem unit_readParts (d : Device) (j : JobId) (m : Nat) (p : Option Nat) (a n : Nat) (w : Nat → ReadWhy) :
    (d.readParts m p a n w).1.unit j = d.unit j :=
  unit_of_changesOnly (changesOnly_readParts d m p a n w) (by unfold dmaPart; split <;> cases j <;> decide)

/-! ### A command that begins with a read (R47, R61) -/

/-- The state in which a command runs as job `x` and has asked for `n` bytes at `a`. -/
def readBegun (s : State) (j : JobId) (x : Job) (a n : Nat) : State := { s with dev := (s.dev.begin_ j x).jobRead j a n }

theorem run_command_read {s : State} {j : JobId} {f : Device → Device} {x : Job} {a n : Nat} (h : mayCommand s j)
    (hf : f s.dev = (s.dev.begin_ j x).jobRead j a n) :
    run s true (s.dev.command j f) = .next (readBegun s j x a n) ∧ keepsRest [unitPart j, .dma0, .out] s (readBegun s j x a n) :=
  run_command h hf (by simp [perm_ne_unitPart j])
    (((changesOnly_begin s.dev j x).mono (by simp)).trans (changesOnly_jobRead (s.dev.begin_ j x) j a n))

theorem job_readBegun (s : State) (j : JobId) (x : Job) (a n : Nat) :
    ((readBegun s j x a n).dev.unit j).job = some { x with phase := .reading, awaiting := ceilDiv n 4096, parts := [] } := by
  simp [readBegun, Device.jobRead]

/-- The i-th of the reads that a command asks for (R47: at most 4 KiB each). -/
theorem readAsked_readBegun (s : State) (j : JobId) (x : Job) (a n : Nat) {i : Nat} (hi : i < ceilDiv n 4096) :
    readAsked (readBegun s j x a n) 0 none (a % 2 ^ 64 + 4096 * i) (min 4096 (n - 4096 * i)) (.job j (4096 * i)) := by
  have reads : asked (readBegun s j x a n).dev 0 = asked ((s.dev.begin_ j x).readParts 0 none (a % 2 ^ 64) n (.job j)).1 0 := by
    simp only [asked, readBegun, Device.jobRead, dma_onJob]
  rw [readAsked_iff, reads, asked_readParts]
  exact List.mem_append_right _ (List.mem_map.2 ⟨i, List.mem_range.2 hi, rfl⟩)

/-- Reading a certificate or a key changes no right (R330). -/
theorem rights_readBegun (s : State) (x : Job) (a n : Nat) : (readBegun s .hasp x a n).dev.hs.rights = s.dev.hs.rights := by
  have parts : ((s.dev.begin_ .hasp x).readParts 0 none (a % 2 ^ 64) n (.job .hasp)).1.hs = (s.dev.begin_ .hasp x).hs :=
    changesOnly_readParts _ _ _ _ _ _ .hs (by decide)
  exact (congrArg Hasp.rights parts :)

/-! ### A command that begins with a write (R47, R61) -/

@[simp] theorem writes_writeReq (d : Device) (m : Nat) (w : DmaWrite) : ((d.writeReq m w).dma m).writes = (d.dma m).writes ++ [w] := by
  simp [Device.writeReq]

theorem writes_foldl_writeReq {α : Type} (m : Nat) (g : α → DmaWrite) (l : List α) (d : Device) :
    ((l.foldl (fun d p => d.writeReq m (g p)) d).dma m).writes = (d.dma m).writes ++ l.map g := by
  induction l generalizing d with
  | nil => simp
  | cons a r ih => simp [ih]

theorem unit_foldl_writeReq {α : Type} (j : JobId) (m : Nat) (g : α → DmaWrite) (l : List α) (d : Device) :
    (l.foldl (fun d p => d.writeReq m (g p)) d).unit j = d.unit j :=
  unit_of_changesOnly (changesOnly_foldl (fun e p => changesOnly_writeReq e m (g p)) l d) (by unfold dmaPart; split <;> cases j <;> decide)

theorem length_payloads (mps : Nat) (b : Bytes) : (payloads mps b).length = ceilDiv b.length mps := by simp [payloads]

theorem writes_length_jobWrite (d : Device) (j : JobId) (a : Nat) (b : Bytes) :
    ((d.jobWrite j a b).dma 0).writes.length = (d.dma 0).writes.length + ceilDiv b.length (d.payload 0) := by
  simp only [Device.jobWrite, dma_onJob, writes_foldl_writeReq, List.length_append, List.length_map, length_payloads]

theorem job_jobWrite {d : Device} {j : JobId} {x : Job} (h : (d.unit j).job = some x) (a : Nat) (b : Bytes) :
    ((d.jobWrite j a b).unit j).job =
      some { x with phase := .writing, awaiting := (payloads (d.payload 0) b).length, failed := false } := by
  simp [Device.jobWrite, unit_foldl_writeReq, h]

/-! ### The keyway commands by their checks (R311, R313 to R315) -/

theorem idgen_of_odd {d : Device} (h : d.hasp % 2 = 1) : d.idgen = d.finish .keyway St.lifeBusy := if_pos h

theorem idgen_of_state {d : Device} (he : d.hasp % 2 = 0) (h : d.hasp ≠ 2) : d.idgen = d.finish .keyway St.stateForbidden := by
  simp [Device.idgen, he, h]

theorem idgen_of_leaf {d : Device} (h : d.hasp = 2) (hl : d.leaves.any (fun e => e.2.state != .free) = true) :
    d.idgen = d.finish .keyway St.leafState := by
  rw [Device.idgen, if_neg (by omega), if_neg (by omega), if_pos hl]

theorem idgen_of_ready {d : Device} (h : d.hasp = 2) (hl : d.leaves.any (fun e => e.2.state != .free) = false) (hr : d.ns.rootBlocked = false) :
    d.idgen = (d.begin_ .keyway { op := 1, args := d.kw.cmd.args }).onNs fun n => { n with rootWanted := true } := by
  rw [Device.idgen, if_neg (by omega), if_neg (by omega), if_neg (by simp [hl]), if_neg (by simp [hr])]

theorem certInstall_of_wrong_length {d : Device} (h : d.arg .keyway 2 ≠ 9051) : d.certInstall = d.finish .keyway St.badArgument := if_pos h

theorem certInstall_of_length {d : Device} (h : d.arg .keyway 2 = 9051) :
    d.certInstall = (d.begin_ .keyway { op := 2, args := d.kw.cmd.args }).jobRead .keyway (d.arg64 .keyway 0) 9051 := if_neg (not_not_intro h)

theorem certRead_of_none {d : Device} (h : d.kw.cert = []) : d.certRead = d.finish .keyway St.stateForbidden := if_pos (by simp [h])

theorem certRead_of_cert {d : Device} (h : d.kw.cert ≠ []) :
    d.certRead = (d.begin_ .keyway { op := 3, args := d.kw.cmd.args }).jobWrite .keyway (d.arg64 .keyway 0) d.kw.cert := if_neg (by simpa using h)

theorem attest_of_invalid {d : Device} (h : d.kw.valid = false) : d.attest = d.finish .keyway St.stateForbidden := if_pos (by simp [h])

theorem attest_of_valid {d : Device} (h : d.kw.valid = true) :
    d.attest = (d.begin_ .keyway { op := 4, args := d.kw.cmd.args }).jobRead .keyway (d.arg64 .keyway 0) 32 := if_neg (by simp [h])

/-! ### The hasp commands by their checks (R323, R328 to R330, R334) -/

theorem haspCert_of_length {d : Device} (h : d.arg .hasp 2 = 4787) (op : Nat) :
    d.haspCert op = (d.begin_ .hasp { op := op, args := d.hs.cmd.args }).jobRead .hasp (d.arg64 .hasp 0) 4787 := if_neg (not_not_intro h)

theorem haspCert_of_wrong_length {d : Device} (h : d.arg .hasp 2 ≠ 4787) (op : Nat) : d.haspCert op = d.haspRefuse St.badArgument := if_pos h

theorem intkeyInstall_of_integrator {d : Device} (h : d.hasp = 2) (hl : d.arg .hasp 2 = 2688) :
    d.intkeyInstall = (d.begin_ .hasp { op := 4, args := d.hs.cmd.args }).jobRead .hasp (d.arg64 .hasp 0) 2688 := by
  rw [Device.intkeyInstall, if_neg (by omega), if_neg (by omega), if_neg (not_not_intro hl)]

theorem intkeyInstall_of_state {d : Device} (he : d.hasp % 2 = 0) (h : d.hasp ≠ 2) : d.intkeyInstall = d.finish .hasp St.stateForbidden := by
  simp [Device.intkeyInstall, he, h]

theorem haspRefuse_hs (d : Device) (st : Status) :
    (d.haspRefuse st).hs = { d.hs with evt := d.hs.evt ||| 2, cmd := { d.hs.cmd with job := none, status := st.toNat } } := by
  simp [Device.haspRefuse, Device.certRefused, Device.finish, Device.onUnit]

theorem haspRefuse_fc (d : Device) (st : Status) : (d.haspRefuse st).fc = { d.fc with incoming := d.fc.incoming ++ [{ source := 1493 }] } := by
  simp [Device.haspRefuse, Device.certRefused, Device.finish, Device.onUnit, Device.raiseSrc]

theorem changesOnly_haspRefuse (d : Device) (st : Status) : changesOnly [.hs, .fc, .ul, .out] d (d.haspRefuse st) :=
  (((changesOnly_hsEvt d 2).then (changesOnly_raiseSrc _ 1493)).then (changesOnly_finish _ .hasp st)).mono (by decide)

theorem changesOnly_dropRights (d : Device) : changesOnly [.hs] d d.dropRights := (changesOnly_hs d _).trans (changesOnly_finish _ .hasp St.done)

/-! ### What each command answers -/

theorem exec_kwIdgen_begins (s : State) (h : mayCommand s .keyway) (hs : s.dev.hasp = 2)
    (hl : s.dev.leaves.any (fun e => e.2.state != .free) = false) (hr : s.dev.ns.rootBlocked = false) :
    ∃ t, exec .kwIdgen s = .next t ∧ t.dev.kw.cmd.job = some { op := 1, args := s.dev.kw.cmd.args } ∧
      t.dev.ns = { s.dev.ns with rootWanted := true } ∧ keepsRest [.kw, .ns] s t := by
  obtain ⟨e, k⟩ := run_command (ps := [.kw, .ns]) h (idgen_of_ready hs hl hr) (by decide)
    ((changesOnly_begin s.dev .keyway _).then (changesOnly_ns _ _))
  exact ⟨_, e, rfl, rfl, k⟩

theorem exec_kwCertInstall_reads (s : State) (h : mayCommand s .keyway) (hl : s.dev.arg .keyway 2 = 9051) :
    ∃ t j, exec .kwCertInstall s = .next t ∧ t.dev.kw.cmd.job = some j ∧ j.op = 2 ∧ j.phase = .reading ∧ j.awaiting = 3 ∧
      readAsked t 0 none (s.dev.arg64 .keyway 0 % 2 ^ 64) 4096 (.job .keyway 0) ∧ keepsRest [.kw, .dma0, .out] s t := by
  obtain ⟨e, k⟩ := run_command_read h (certInstall_of_length hl)
  exact ⟨_, _, e, job_readBegun s .keyway _ _ _, rfl, rfl, rfl, readAsked_readBegun s .keyway _ _ 9051 (i := 0) (by decide), k⟩

theorem exec_kwCertRead_writes (s : State) (h : mayCommand s .keyway) (hc : s.dev.kw.cert ≠ []) :
    ∃ t j, exec .kwCertRead s = .next t ∧ t.dev.kw.cmd.job = some j ∧ j.op = 3 ∧ j.phase = .writing ∧
      t.dev.dma0.writes.length = s.dev.dma0.writes.length + ceilDiv s.dev.kw.cert.length (s.dev.payload 0) ∧ keepsRest [.kw, .dma0] s t := by
  obtain ⟨e, k⟩ := run_command (ps := [.kw, .dma0]) h (certRead_of_cert hc) (by decide)
    (((changesOnly_begin s.dev .keyway _).mono (by decide)).trans (changesOnly_jobWrite _ .keyway _ _))
  exact ⟨_, _, e, job_jobWrite (j := .keyway) rfl _ _, rfl, rfl, writes_length_jobWrite _ .keyway _ _, k⟩

theorem exec_kwAttest_reads (s : State) (h : mayCommand s .keyway) (hv : s.dev.kw.valid = true) :
    ∃ t j, exec .kwAttest s = .next t ∧ t.dev.kw.cmd.job = some j ∧ j.op = 4 ∧ j.phase = .reading ∧ j.awaiting = 1 ∧
      readAsked t 0 none (s.dev.arg64 .keyway 0 % 2 ^ 64) 32 (.job .keyway 0) ∧ keepsRest [.kw, .dma0, .out] s t := by
  obtain ⟨e, k⟩ := run_command_read h (attest_of_valid hv)
  exact ⟨_, _, e, job_readBegun s .keyway _ _ _, rfl, rfl, rfl, readAsked_readBegun s .keyway _ _ 32 (i := 0) (by decide), k⟩

/-- OPEN and TRANSITION ask for their certificate in two reads, of 4,096 and of 691 bytes (R47, R323, R330). -/
theorem run_haspCert_reads (op : Nat) {s : State} (h : mayCommand s .hasp) (hl : s.dev.arg .hasp 2 = 4787) :
    ∃ t j, run s true (s.dev.command .hasp fun d => d.haspCert op) = .next t ∧ t.dev.hs.cmd.job = some j ∧ j.op = op ∧ j.phase = .reading ∧
      j.awaiting = 2 ∧ readAsked t 0 none (s.dev.arg64 .hasp 0 % 2 ^ 64 + 4096) 691 (.job .hasp 4096) ∧
      t.dev.hs.rights = s.dev.hs.rights ∧ keepsRest [.hs, .dma0, .out] s t := by
  obtain ⟨e, k⟩ := run_command_read (f := fun d => d.haspCert op) h (haspCert_of_length hl op)
  exact ⟨_, _, e, job_readBegun s .hasp _ _ _, rfl, rfl, rfl, readAsked_readBegun s .hasp _ _ 4787 (i := 1) (by decide),
    rights_readBegun s _ _ _, k⟩

/-- OPEN and TRANSITION refuse a certificate of another length (R330). -/
theorem run_haspCert_refused (op : Nat) {s : State} (h : mayCommand s .hasp) (hl : s.dev.arg .hasp 2 ≠ 4787) :
    ∃ t, run s true (s.dev.command .hasp fun d => d.haspCert op) = .next t ∧ endedWith t .hasp St.badArgument ∧
      t.dev.hs.rights = s.dev.hs.rights ∧ t.dev.hs.evt = s.dev.hs.evt ||| 2 ∧ raisedIn s t 1493 ∧ keepsRest [.hs, .fc, .ul, .out] s t := by
  obtain ⟨e, k⟩ := run_command (f := fun d => d.haspCert op) h (haspCert_of_wrong_length hl op) (by decide) (changesOnly_haspRefuse s.dev _)
  refine ⟨_, e, endedWith_finish s _ .hasp _, ?_, ?_, haspRefuse_fc _ _, k⟩ <;> simp only [haspRefuse_hs]

theorem exec_hsTransition_reads (s : State) (h : mayCommand s .hasp) (hl : s.dev.arg .hasp 2 = 4787) :
    ∃ t j, exec .hsTransition s = .next t ∧ t.dev.hs.cmd.job = some j ∧ j.op = 3 ∧ j.phase = .reading ∧ j.awaiting = 2 ∧
      t.dev.hs.rights = s.dev.hs.rights ∧ keepsRest [.hs, .dma0, .out] s t := by
  obtain ⟨t, j, e, job, op, phase, awaiting, _, rest⟩ := run_haspCert_reads 3 h hl
  exact ⟨t, j, e, job, op, phase, awaiting, rest⟩

theorem exec_haspCert_refused (c : Instr) (hc : c ∈ [Instr.hsOpen, .hsTransition]) (s : State) (h : mayCommand s .hasp)
    (hl : s.dev.arg .hasp 2 ≠ 4787) : ∃ t, exec c s = .next t ∧ endedWith t .hasp St.badArgument ∧ t.dev.hs.rights = s.dev.hs.rights ∧
      t.dev.hs.evt = s.dev.hs.evt ||| 2 ∧ raisedIn s t 1493 ∧ keepsRest [.hs, .fc, .ul, .out] s t := by
  obtain rfl | rfl : c = .hsOpen ∨ c = .hsTransition := by simpa using hc
  · exact run_haspCert_refused 1 h hl
  · exact run_haspCert_refused 3 h hl

theorem exec_hsDropRights (s : State) (h : mayCommand s .hasp) :
    ∃ t, exec .hsDropRights s = .next t ∧ endedWith t .hasp St.done ∧ t.dev.hs.rights = 0 ∧ keepsRest [.hs] s t := by
  obtain ⟨e, k⟩ := run_command (f := Device.dropRights) h rfl (by decide) (changesOnly_dropRights s.dev)
  exact ⟨_, e, endedWith_finish s _ .hasp _, rfl, k⟩

theorem exec_hsIntkeyInstall_reads (s : State) (h : mayCommand s .hasp) (hs : s.dev.hasp = 2) (hl : s.dev.arg .hasp 2 = 2688) :
    ∃ t j, exec .hsIntkeyInstall s = .next t ∧ t.dev.hs.cmd.job = some j ∧ j.op = 4 ∧ j.phase = .reading ∧ j.awaiting = 1 ∧
      readAsked t 0 none (s.dev.arg64 .hasp 0 % 2 ^ 64) 2688 (.job .hasp 0) ∧ keepsRest [.hs, .dma0, .out] s t := by
  obtain ⟨e, k⟩ := run_command_read h (intkeyInstall_of_integrator hs hl)
  exact ⟨_, _, e, job_readBegun s .hasp _ _ _, rfl, rfl, rfl, readAsked_readBegun s .hasp _ _ 2688 (i := 0) (by decide), k⟩

/-- Settles O33, clause by clause: each command refused by its first failed check, or begun, with what it asks of module 0. -/
theorem keywayAndHaspCommandsBegin : Obligations.KeywayAndHaspCommandsBegin :=
  ⟨fun _ h ho => run_command_refused h (idgen_of_odd ho), fun _ h he hs => run_command_refused h (idgen_of_state he hs),
    fun _ h hs hl => run_command_refused h (idgen_of_leaf hs hl), exec_kwIdgen_begins,
    fun _ h hl => run_command_refused h (certInstall_of_wrong_length hl), exec_kwCertInstall_reads,
    fun _ h hc => run_command_refused h (certRead_of_none hc), exec_kwCertRead_writes,
    fun _ h hv => run_command_refused h (attest_of_invalid hv), exec_kwAttest_reads,
    fun _ => run_haspCert_reads 1, exec_hsTransition_reads, exec_haspCert_refused, exec_hsDropRights, exec_hsIntkeyInstall_reads,
    fun _ h he hs => run_command_refused h (intkeyInstall_of_state he hs)⟩

end Sys2Proof.Safety
end

section
/-! SUPPORT. Every command but the five that write permanent memory answers by `run`, which keeps it (R317, R318, R322, R382). -/

namespace Sys2Proof.Safety

open Sys2Proof.Machine

/-- The outcome is that of `run` for some device, so that the permanent memories are kept by construction. -/
def AnswersByRun (s : State) (o : Host.Outcome State Fault Refusal) : Prop := ∃ can d, o = run s can d

theorem answersByRun_run (s : State) (can : Bool) (d : Device) : AnswersByRun s (run s can d) := ⟨can, d, rfl⟩

theorem AnswersByRun.perm_eq {s t : State} (h : AnswersByRun s (.next t)) : t.dev.perm = s.dev.perm := by
  obtain ⟨can, d, e⟩ := h
  rw [(run_next e.symm).2]

/-- The commands that may write permanent memory: the boot ROM, the steps of a transition and a user flash write (R318, R322, R324, R382). -/
def writesPerm : Instr → Bool
  | .bootRomStart _ _ | .haspOddBurn _ | .haspEvenBurn _ | .wipeStep _ | .ufWrite _ => true
  | _ => false

/-- A command whose meaning depends on what it finds in the state answers by `run` in each case; every other is one `run`. -/
theorem exec_answersByRun {c : Instr} (h : writesPerm c = false) (s : State) : AnswersByRun s (exec c s) := by
  cases c with
  | bootRomStart | haspOddBurn | haspEvenBurn | wipeStep | ufWrite => cases h
  | pairLoRead | pairHiRead =>
    simp only [exec, execPairLoRead, execPairHiRead, runRead]
    split <;> exact answersByRun_run _ _ _
  | storeScrubStep =>
    simp only [exec, execStoreScrubStep]
    split <;> exact answersByRun_run _ _ _
  | dmaReadComplete | dmaReadError | dmaCompletionTimeout | dmaWriteHanded | dmaWriteFail =>
    simp only [exec, execDmaReadComplete, execDmaReadError, execDmaCompletionTimeout, execDmaWriteHanded, execDmaWriteFail]
    split <;> exact answersByRun_run _ _ _
  | activityEnd | engineDrainStop | patchDrainDeadline | engineSelftestEnd | fwHealthy | fwSwapWatchdog =>
    simp only [exec, execActivityEnd, execEngineDrainStop, execPatchDrainDeadline, execEngineSelftestEnd, execFwHealthy, execFwSwapWatchdog]
    split <;> exact answersByRun_run _ _ _
  | rawCaptureStart | commitDurable | evidenceRecordWrite =>
    simp only [exec, execRawCaptureStart, execCommitDurable, execEvidenceRecordWrite]
    split <;> exact answersByRun_run _ _ _
  | _ =>
    unfold exec
    exact answersByRun_run _ _ _

/-- A command that may write none of it leaves permanent memory as it is. -/
theorem perm_of_exec {c : Instr} (h : writesPerm c = false) {s t : State} (e : exec c s = .next t) : t.dev.perm = s.dev.perm :=
  (e ▸ exec_answersByRun h s).perm_eq

end Sys2Proof.Safety
end

section
/-! SUPPORT. The fuses (R317, R318, R322): what burns and wipes keep of them, and of the user flash. -/

namespace Sys2Proof.Safety

open Sys2Proof.Machine

/-! ### Burned stays burned -/

theorem fusesKept_refl (p : Perm) : fusesKept p p := ⟨BitVec.and_self, BitVec.and_self, BitVec.and_self, id⟩

theorem and_eq_left_trans {w : Nat} {x y z : BitVec w} (h : x &&& y = x) (g : y &&& z = y) : x &&& z = x := by
  rw [← h, BitVec.and_assoc, g]

theorem fusesKept_trans {p q r : Perm} (h : fusesKept p q) (g : fusesKept q r) : fusesKept p r := by
  obtain ⟨h0, h1, h2, hs⟩ := h
  obtain ⟨g0, g1, g2, gs⟩ := g
  exact ⟨and_eq_left_trans h0 g0, and_eq_left_trans h1 g1, and_eq_left_trans h2 g2, gs ∘ hs⟩

theorem and_or_self {w : Nat} (x y : BitVec w) : x &&& (x ||| y) = x := by
  ext i
  rw [BitVec.getElem_and, BitVec.getElem_or]
  cases x[i] <;> rfl

theorem and_ite_or {w : Nat} (c : Prop) [Decidable c] (x y : BitVec w) : x &&& (if c then x ||| y else x) = x := by
  split
  · exact and_or_self x y
  · exact BitVec.and_self

/-- A burn only adds fuses (R317). -/
theorem fusesKept_burnRows (p : Perm) (i n : Nat) : fusesKept p (p.burnRows i n) := ⟨and_ite_or _ _ _, and_ite_or _ _ _, and_ite_or _ _ _, id⟩

/-- All three rows pass their check (R317). -/
theorem burnRows_of_three_le {n : Nat} (h : 3 ≤ n) (p : Perm) (i : Nat) : p.burnRows i n = p.burn i := by
  simp [Perm.burn, Perm.burnRows, h, show 1 ≤ n by omega, show 2 ≤ n by omega]

@[simp] theorem burnRows_flash (p : Perm) (i n : Nat) : (p.burnRows i n).flash = p.flash := rfl

/-- A sequence of steps that each keep the fuses keeps them. -/
theorem fusesKept_foldl {α β : Type} (perm : β → Perm) {f : β → α → β} (h : ∀ b a, fusesKept (perm b) (perm (f b a))) (l : List α) (b : β) :
    fusesKept (perm b) (perm (l.foldl f b)) := by
  induction l generalizing b with
  | nil => exact fusesKept_refl _
  | cons a r ih => exact fusesKept_trans (h b a) (ih _)

/-- The row repair only burns (R318). -/
theorem fusesKept_repair (p : Perm) : fusesKept p p.repair := by
  have burns (q : Perm) (i : Nat) : fusesKept q (if p.burned i then q.burn i else q) := by
    split
    · exact fusesKept_burnRows q i 3
    · exact fusesKept_refl q
  exact fusesKept_foldl id burns _ p

/-! ### The hasp value (R317) -/

theorem bit_of_and_eq_left {w : Nat} {x y : BitVec w} (h : x &&& y = x) {i : Nat} (b : x.getLsbD i = true) : y.getLsbD i = true := by
  rw [← h, BitVec.getLsbD_and, Bool.and_eq_true] at b
  exact b.2

/-- A position that reads as burned still does: each of its rows has kept its bit. -/
theorem burned_of_fusesKept {p q : Perm} (h : fusesKept p q) {i : Nat} (b : p.burned i = true) : q.burned i = true := by
  obtain ⟨h0, h1, h2, -⟩ := h
  have rise {x y : BitVec 8} (k : x &&& y = x) : b2n (x.getLsbD i) ≤ b2n (y.getLsbD i) := by
    cases e : x.getLsbD i with
    | false => exact Nat.zero_le _
    | true => exact Nat.le_of_eq (congrArg b2n (bit_of_and_eq_left k e).symm)
  have := rise h0
  have := rise h1
  have := rise h2
  simp only [Perm.burned, decide_eq_true_eq] at b ⊢
  omega

/-- The hasp value as the positions below `n` give it. -/
def haspBelow (p : Perm) (n : Nat) : Nat := (List.range n).foldl (fun v i => if p.burned i then i + 1 else v) 0

theorem haspBelow_succ (p : Perm) (n : Nat) : haspBelow p (n + 1) = if p.burned n then n + 1 else haspBelow p n := by
  rw [haspBelow, List.range_succ, List.foldl_append]
  rfl

theorem haspBelow_le (p : Perm) (n : Nat) : haspBelow p n ≤ n := by
  induction n with
  | zero => exact Nat.le_refl 0
  | succ n ih => rw [haspBelow_succ]; split <;> omega

theorem haspBelow_le_of_fusesKept {p q : Perm} (h : fusesKept p q) (n : Nat) : haspBelow p n ≤ haspBelow q n := by
  induction n with
  | zero => exact Nat.le_refl 0
  | succ n ih =>
    rw [haspBelow_succ, haspBelow_succ]
    by_cases b : p.burned n = true
    · rw [if_pos b]
      exact Nat.le_of_eq (if_pos (burned_of_fusesKept h b)).symm
    · have := haspBelow_le p n
      rw [if_neg b]
      split <;> omega

/-- The hasp value never falls while no fuse is unburned (R317). -/
theorem hasp_le_of_fusesKept {d e : Device} (h : fusesKept d.perm e.perm) : d.hasp ≤ e.hasp := haspBelow_le_of_fusesKept h 8

/-! ### What the operations of a transition change (R322, R324, R326) -/

/-- What a change of the stage may do (R412): set the power registers, raise sources and send messages; no raised source is taken back. -/
structure KeepsRaised (d e : Device) : Prop where
  rest : changesOnly [.power, .fc, .ul, .out] d e
  incoming : d.fc.incoming ⊆ e.fc.incoming

namespace KeepsRaised

theorem refl (d : Device) : KeepsRaised d d := ⟨changesOnly.refl _ d, List.Subset.refl _⟩

section
variable {d e : Device} (h : KeepsRaised d e)
include h

theorem trans {f : Device} (g : KeepsRaised e f) : KeepsRaised d f := ⟨h.rest.trans g.rest, List.Subset.trans h.incoming g.incoming⟩

theorem power (x : Power) : KeepsRaised d { e with power := x } := h.trans ⟨(changesOnly_power e x).mono (by decide), List.Subset.refl _⟩

theorem raiseSrc (n : Nat) : KeepsRaised d (e.raiseSrc n) :=
  h.trans ⟨(changesOnly_raiseSrc e n).mono (by decide), List.subset_append_left _ _⟩

theorem powerEvt (bits : Nat) : KeepsRaised d (e.powerEvt bits) :=
  h.trans ⟨(changesOnly_powerEvt e bits).mono (by decide), by rw [powerEvt_fc]; exact List.Subset.refl _⟩

theorem ite {f : Device} (c : Prop) [Decidable c] (g : KeepsRaised d f) : KeepsRaised d (if c then e else f) := by split <;> assumption

theorem raiseSrcWhen (c : Bool) (n : Nat) : KeepsRaised d (e.when c (·.raiseSrc n)) := by
  cases c
  · exact h
  · exact h.raiseSrc n

/-- The stages passed on a rise, each counted and raised (R412). -/
theorem passed (ks : List Nat) (f : Power → Nat → Power) :
    KeepsRaised d (ks.foldl (fun e k => ({ e with power := f e.power k } : Device).raiseSrc (1424 + k)) e) := by
  induction ks generalizing e with
  | nil => exact h
  | cons k r ih => exact ih ((h.power _).raiseSrc _)

end

end KeepsRaised

theorem keepsRaised_restage (d : Device) : KeepsRaised d d.restage := by
  have held (x : Power) (c : Bool) := ((KeepsRaised.refl d).power x).raiseSrcWhen c 1442
  exact ((held _ _).powerEvt _).ite _
    (((held _ _).passed _ fun p k => { p with stageCnt := modifyAt p.stageCnt k fun c => satAdd 16 c 1 }).powerEvt _)

/-! ### Going on and stopping (R322, R324, R326) -/

theorem changesOnly_atStep (d : Device) (t : Trans) (step : Nat) : changesOnly [.hs, .power, .fc, .ul, .out] d (d.atStep t step) :=
  (changesOnly_hs d _).then (keepsRaised_restage _).rest

@[simp] theorem atStep_hs (d : Device) (t : Trans) (step : Nat) :
    (d.atStep t step).hs = { d.hs with trans := some { t with step := step, tries := 0 }, wipeStep := if step ≤ 8 then step else 0 } :=
  (keepsRaised_restage _).rest .hs (by decide)

theorem atStep_incoming (d : Device) (t : Trans) (step : Nat) : d.fc.incoming ⊆ (d.atStep t step).fc.incoming :=
  (keepsRaised_restage
    { d with hs := { d.hs with trans := some { t with step := step, tries := 0 }, wipeStep := if step ≤ 8 then step else 0 } }).incoming

theorem changesOnly_markEnded (d : Device) (op : Nat) (st : Status) : changesOnly [.mi] d (d.markEnded op st) := changesOnly_onMi d _

theorem changesOnly_transStops (d : Device) (src : Nat) : changesOnly [.hs, .fc, .mi, .power, .ul, .out] d (d.transStops src) :=
  ((((changesOnly_hs d _).then (changesOnly_raiseSrc _ src)).then (changesOnly_markEnded _ _ _)).then (keepsRaised_restage _).rest).mono (by decide)

@[simp] theorem transStops_hs (d : Device) (src : Nat) :
    (d.transStops src).hs = { d.hs with trans := none, wipeStep := 0, wipeTarget := 0 } :=
  (keepsRaised_restage _).rest .hs (by decide)

theorem transStops_incoming (d : Device) (src : Nat) : { source := src } ∈ (d.transStops src).fc.incoming :=
  (keepsRaised_restage _).incoming (List.mem_append_right d.fc.incoming (List.mem_singleton_self ({ source := src } : Raise)))

/-! ### The odd burn (R324, R326) -/

/-- The odd position is burned in every row: the rights are cleared, COMMITTED is set, the burn is raised and recorded (R324). -/
def oddBurned (d : Device) (t : Trans) : Device :=
  ((({ d with perm := d.perm.burn (t.target - 2), hs := { d.hs with rights := 0 } } : Device).hsEvt 4).raiseSrc 1495).evidence
    0x05 0xFFFF [d.hasp + 256 * (t.target - 1)]

theorem oddBurn_of_three_le {n : Nat} (h : 3 ≤ n) (d : Device) (t : Trans) :
    d.oddBurn t n = (oddBurned d t).atStep t (nextStep t.target 0) := if_neg (by omega)

theorem oddBurn_of_lt_three {n : Nat} (h : n < 3) (d : Device) (t : Trans) :
    d.oddBurn t n = ({ d with perm := d.perm.burnRows (t.target - 2) n, hs := { d.hs with rights := 0 } } : Device).transStops 1489 := if_pos h

theorem changesOnly_oddBurned (d : Device) (t : Trans) : changesOnly [.perm, .hs, .ul, .out, .fc, .nv] d (oddBurned d t) :=
  (((((changesOnly_perm d (d.perm.burn (t.target - 2))).then (changesOnly_hs _ { d.hs with rights := 0 })).then (changesOnly_hsEvt _ 4)).then
    (changesOnly_raiseSrc _ 1495)).then (changesOnly_evidence _ _ _ _)).mono (by decide)

@[simp] theorem oddBurned_perm (d : Device) (t : Trans) : (oddBurned d t).perm = d.perm.burn (t.target - 2) :=
  changesOnly_hsEvt _ 4 .perm (by decide)

@[simp] theorem oddBurned_hs (d : Device) (t : Trans) : (oddBurned d t).hs = { d.hs with rights := 0, evt := d.hs.evt ||| 4 } := hsEvt_hs _ 4

theorem oddBurned_incoming (d : Device) (t : Trans) : { source := 1495 } ∈ (oddBurned d t).fc.incoming := List.mem_append_right _ (by simp)

theorem oddBurn_perm (d : Device) (t : Trans) (n : Nat) : (d.oddBurn t n).perm = d.perm.burnRows (t.target - 2) n := by
  by_cases h : n < 3
  · rw [oddBurn_of_lt_three h]
    exact changesOnly_transStops _ 1489 .perm (by decide)
  · rw [oddBurn_of_three_le (by omega), burnRows_of_three_le (by omega), ← oddBurned_perm]
    exact changesOnly_atStep _ t _ .perm (by decide)

/-! ### The even burn (R324, R326) -/

/-- The even position is burned in every row: the transition is over, TRANSITION_DONE is set, and the end is raised (R324). -/
def evenBurned (d : Device) (t : Trans) : Device :=
  (({ d with perm := d.perm.burn (t.target - 1), hs := { d.hs with trans := none, wipeStep := 0, wipeTarget := 0 } } : Device).hsEvt 8).raiseSrc 1496

/-- The end is recorded unless the log was wiped (R324). -/
def evenRecorded (d : Device) (t : Trans) : Device := if t.target = 8 then d else d.evidence 0x06 0xFFFF [t.target - 1 + 256 * t.target]

theorem evenBurn_of_three_le {n : Nat} (h : 3 ≤ n) (d : Device) (t : Trans) :
    d.evenBurn t n = ((evenRecorded (evenBurned d t) t).markEnded opTransition St.done).restage := if_neg (by omega)

theorem evenBurn_of_lt_three {n : Nat} (h : n < 3) (d : Device) (t : Trans) :
    d.evenBurn t n = ({ d with perm := d.perm.burnRows (t.target - 1) n } : Device).transStops 1489 := if_pos h

theorem changesOnly_evenBurned (d : Device) (t : Trans) : changesOnly [.perm, .hs, .ul, .out, .fc] d (evenBurned d t) :=
  ((((changesOnly_perm d (d.perm.burn (t.target - 1))).then
    (changesOnly_hs _ { d.hs with trans := none, wipeStep := 0, wipeTarget := 0 })).then (changesOnly_hsEvt _ 8)).then
    (changesOnly_raiseSrc _ 1496)).mono (by decide)

theorem changesOnly_evenRecorded (d : Device) (t : Trans) : changesOnly [.nv] d (evenRecorded d t) :=
  changesOnly.ite _ (changesOnly.refl _ _) (changesOnly_evidence _ _ _ _)

/-- What follows the burn changes neither the fuses nor the hasp block (R324). -/
theorem changesOnly_evenEnded (d : Device) (t : Trans) :
    changesOnly [.nv, .mi, .power, .fc, .ul, .out] d (((evenRecorded d t).markEnded opTransition St.done).restage) :=
  ((changesOnly_evenRecorded d t).then (changesOnly_markEnded _ _ _)).then (keepsRaised_restage _).rest

@[simp] theorem evenBurned_hs (d : Device) (t : Trans) :
    (evenBurned d t).hs = { d.hs with trans := none, wipeStep := 0, wipeTarget := 0, evt := d.hs.evt ||| 8 } := hsEvt_hs _ 8

theorem evenBurned_incoming (d : Device) (t : Trans) : { source := 1496 } ∈ (evenBurned d t).fc.incoming := List.mem_append_right _ (by simp)

theorem evenEnded_incoming (d : Device) (t : Trans) :
    d.fc.incoming ⊆ (((evenRecorded d t).markEnded opTransition St.done).restage).fc.incoming := by
  have h : (evenRecorded d t).fc = d.fc := changesOnly_evenRecorded d t .fc (by decide)
  exact h ▸ (keepsRaised_restage ((evenRecorded d t).markEnded opTransition St.done)).incoming

theorem evenBurn_perm (d : Device) (t : Trans) (n : Nat) : (d.evenBurn t n).perm = d.perm.burnRows (t.target - 1) n := by
  by_cases h : n < 3
  · rw [evenBurn_of_lt_three h]
    exact changesOnly_transStops _ 1489 .perm (by decide)
  · rw [evenBurn_of_three_le (by omega), burnRows_of_three_le (by omega)]
    exact (changesOnly_evenEnded _ t .perm (by decide)).trans (changesOnly_hsEvt _ 8 .perm (by decide))

/-! ### The wipe (R322) -/

theorem changesOnly_zeroiseShare (d : Device) : changesOnly [.aon, .kw, .fc] d d.zeroiseShare :=
  changesOnly.ite _ (changesOnly.refl _ _) (((changesOnly_aon d { d.aon with share := [] }).then
    (changesOnly_kw _ { d.kw with valid := false, root := [], seeds := [], evt := d.kw.evt ||| 8 })).then (changesOnly_raiseSrc _ 1506))

/-- A wipe step empties the flash or burns the device secret, or changes no permanent memory (R322). -/
theorem fusesKept_wipe (d : Device) (step : Nat) : fusesKept d.perm (d.wipe step).perm := by
  have same {e : Device} (h : e.perm = d.perm) : fusesKept d.perm e.perm := h ▸ fusesKept_refl _
  unfold Device.wipe
  split
  · exact same (changesOnly_zeroiseShare d .perm (by decide))
  · exact same rfl
  · exact same rfl
  · exact fusesKept_refl d.perm
  · exact ⟨BitVec.and_self, BitVec.and_self, BitVec.and_self, fun _ => rfl⟩
  · exact same rfl
  · exact same rfl
  · exact same rfl

theorem fusesKept_wipeStep (d : Device) (t : Trans) (ok : Bool) : fusesKept d.perm (d.wipeStep t ok).perm := by
  unfold Device.wipeStep
  split
  · have h : ((d.wipe t.step).atStep t (nextStep t.target t.step)).perm = (d.wipe t.step).perm := changesOnly_atStep _ t _ .perm (by decide)
    exact h ▸ fusesKept_wipe d t.step
  · split
    · have h : (d.transStops 1491).perm = d.perm := changesOnly_transStops d 1491 .perm (by decide)
      exact h ▸ fusesKept_refl _
    · exact fusesKept_refl d.perm

/-! ### The boot ROM (R318, R325, R393) -/

theorem repairRows_perm (d : Device) : d.repairRows.perm = d.perm.repair := by
  unfold Device.repairRows
  dsimp only
  split
  · next h => exact h.symm
  · exact changesOnly_hsEvt _ 0x40 .perm (by decide)

theorem romHandOver_perm (d : Device) : d.romHandOver.perm = d.perm := by
  unfold Device.romHandOver
  dsimp only
  split
  · rfl
  · split <;> rfl

theorem fusesKept_romBoot (d : Device) (fails : Option Nat) (rows : Nat) : fusesKept d.perm (d.romBoot fails rows).perm := by
  have repaired : fusesKept d.perm d.repairRows.perm := repairRows_perm d ▸ fusesKept_repair d.perm
  have wiped (target : Nat) : fusesKept d.perm (((d.repairRows.raiseSrc 1490).hsEvt 0x10).wipeAll target fails).perm := by
    refine fusesKept_trans repaired ?_
    have h : ((d.repairRows.raiseSrc 1490).hsEvt 0x10).perm = d.repairRows.perm := changesOnly_hsEvt _ 0x10 .perm (by decide)
    exact h ▸ fusesKept_foldl Device.perm fusesKept_wipe _ _
  have handed {e : Device} (h : fusesKept d.perm e.perm) : fusesKept d.perm e.romHandOver.perm := by rwa [romHandOver_perm]
  have burned (target : Nat) := fusesKept_trans (wiped target) (evenBurn_perm _ { target := target, ticket := 0, step := 9 } rows ▸ fusesKept_burnRows _ _ _)
  unfold Device.romBoot
  dsimp only
  split
  · exact handed repaired
  · split
    · exact wiped _
    · split
      · exact burned _
      · exact handed (burned _)

/-! ### User flash writes (R367, R382) -/

theorem changesOnly_nvFault (d : Device) : changesOnly [.fc, .nv, .ul, .out] d d.nvFault :=
  (changesOnly_raiseSrc d 1287).then (changesOnly_nvEvt _ 0x8)

theorem changesOnly_relocate (d : Device) : changesOnly [.nv, .fc, .ul, .out] d d.relocate.1 := by
  unfold Device.relocate
  split
  · exact (((changesOnly_nv d _).then (changesOnly_raiseSrc _ 1285)).then (changesOnly_nvEvt _ 0x20)).mono (by decide)
  · exact ((changesOnly_raiseSrc d 1286).then (changesOnly_nvFault _)).mono (by decide)

theorem changesOnly_lineWrite (d : Device) (verifyFails : Bool) : changesOnly [.nv, .fc, .ul, .out] d (d.lineWrite verifyFails).1 := by
  unfold Device.lineWrite
  split
  · exact changesOnly_relocate d
  · exact changesOnly.refl _ d

/-- A flash write changes nothing of permanent memory but the flash (R382). -/
theorem ufWrite_perm (d : Device) (verifyFails : Bool) : ∃ m, (d.ufWrite verifyFails).perm = { d.perm with flash := m } := by
  have h : (d.lineWrite verifyFails).1.perm = d.perm := changesOnly_lineWrite d verifyFails .perm (by decide)
  unfold Device.ufWrite
  dsimp only
  split
  · exact ⟨_, by rw [h]⟩
  · exact ⟨_, h⟩

theorem hostDo_perm_flash {d : Device} {f : Device → Device} (h : ∃ m, (f d).perm = { d.perm with flash := m }) :
    ∃ m, (d.hostDo f).perm = { d.perm with flash := m } := by
  unfold Device.hostDo Device.hostDoIn
  split
  · exact ⟨_, rfl⟩
  · split
    · exact ⟨_, rfl⟩
    · exact h

end Sys2Proof.Safety
end

section
/-! NoStepUnburnsAFuse and OnlyBurnsAndFlashWritesChangePermanentMemory, command by command. -/

namespace Sys2Proof.Safety

open Sys2Proof.Machine

/-! ### What the five commands write -/

theorem perm_of_haspOddBurn {n : Nat} {s t : State} (e : exec (.haspOddBurn n) s = .next t) : ∃ i, t.dev.perm = s.dev.perm.burnRows i n := by
  simp only [exec, execHaspOddBurn] at e
  split at e
  · obtain ⟨-, rfl⟩ := runPerm_next e
    exact ⟨_, oddBurn_perm _ _ _⟩
  · cases e

theorem perm_of_haspEvenBurn {n : Nat} {s t : State} (e : exec (.haspEvenBurn n) s = .next t) : ∃ i, t.dev.perm = s.dev.perm.burnRows i n := by
  simp only [exec, execHaspEvenBurn] at e
  split at e
  · obtain ⟨-, rfl⟩ := runPerm_next e
    exact ⟨_, evenBurn_perm _ _ _⟩
  · cases e

theorem fusesKept_of_wipeStep {ok : Bool} {s t : State} (e : exec (.wipeStep ok) s = .next t) : fusesKept s.dev.perm t.dev.perm := by
  simp only [exec, execWipeStep] at e
  split at e
  · obtain ⟨-, rfl⟩ := runPerm_next e
    exact fusesKept_wipeStep _ _ _
  · cases e

theorem fusesKept_of_bootRomStart {fails : Option Nat} {rows : Nat} {s t : State} (e : exec (.bootRomStart fails rows) s = .next t) :
    fusesKept s.dev.perm t.dev.perm := by
  obtain ⟨-, rfl⟩ := runPerm_next e
  exact fusesKept_romBoot _ _ _

theorem perm_of_ufWrite {b : Bool} {s t : State} (e : exec (.ufWrite b) s = .next t) : ∃ m, t.dev.perm = { s.dev.perm with flash := m } := by
  simp only [exec, execUfWrite] at e
  split at e
  · obtain ⟨-, rfl⟩ := runPerm_next e
    exact ufWrite_perm _ _
  · obtain ⟨-, rfl⟩ := runPerm_next e
    refine hostDo_perm_flash ?_
    split
    · exact ⟨_, rfl⟩
    · exact ufWrite_perm _ _

/-! ### Every command, and every step -/

theorem fusesKept_of_exec {c : Instr} {s t : State} (e : exec c s = .next t) : fusesKept s.dev.perm t.dev.perm := by
  by_cases h : writesPerm c = false
  · exact perm_of_exec h e ▸ fusesKept_refl _
  · cases c with
    | bootRomStart => exact fusesKept_of_bootRomStart e
    | haspOddBurn n =>
      obtain ⟨i, p⟩ := perm_of_haspOddBurn e
      exact p ▸ fusesKept_burnRows _ i n
    | haspEvenBurn n =>
      obtain ⟨i, p⟩ := perm_of_haspEvenBurn e
      exact p ▸ fusesKept_burnRows _ i n
    | wipeStep => exact fusesKept_of_wipeStep e
    | ufWrite =>
      obtain ⟨m, p⟩ := perm_of_ufWrite e
      exact p ▸ fusesKept_refl s.dev.perm
    | _ => exact absurd rfl h

theorem fusesKept_of_step {s t : State} (e : step s = .next t) : fusesKept s.dev.perm t.dev.perm := by
  unfold step at e
  split at e
  · cases e
    exact fusesKept_refl s.dev.perm
  · next c rest _ => exact fusesKept_of_exec (s := { s with pending := rest }) e

/-- Settles O5: an idle step writes no permanent memory, and of the commands only the burns, the wipe and the row repair change the fuses, each of
them only burning; the hasp value rises with the fuses. -/
theorem noStepUnburnsAFuse : Obligations.NoStepUnburnsAFuse := fun _ _ e => ⟨fusesKept_of_step e, hasp_le_of_fusesKept (fusesKept_of_step e)⟩

theorem writesPerm_eq_false {c : Instr} (rom : ∀ f n, c ≠ .bootRomStart f n) (odd : ∀ n, c ≠ .haspOddBurn n) (even : ∀ n, c ≠ .haspEvenBurn n)
    (wipe : ∀ b, c ≠ .wipeStep b) (flash : ∀ b, c ≠ .ufWrite b) : writesPerm c = false := by
  cases c with
  | bootRomStart f n => exact absurd rfl (rom f n)
  | haspOddBurn n => exact absurd rfl (odd n)
  | haspEvenBurn n => exact absurd rfl (even n)
  | wipeStep b => exact absurd rfl (wipe b)
  | ufWrite b => exact absurd rfl (flash b)
  | _ => rfl

/-- Settles O7, clause by clause: the commands that answer by `run`, the flash write, and the two burns. -/
theorem onlyBurnsAndFlashWritesChangePermanentMemory : Obligations.OnlyBurnsAndFlashWritesChangePermanentMemory := by
  refine ⟨fun _ _ _ e rom odd even wipe flash => perm_of_exec (writesPerm_eq_false rom odd even wipe flash) e,
    fun _ s t e => ?_, fun _ s t e a => ?_, fun _ s t e a => ?_⟩
  · obtain ⟨m, p⟩ := perm_of_ufWrite e
    simp [p]
  · obtain ⟨i, p⟩ := perm_of_haspOddBurn e
    rw [p, burnRows_flash]
  · obtain ⟨i, p⟩ := perm_of_haspEvenBurn e
    rw [p, burnRows_flash]

end Sys2Proof.Safety
end

section
/-! ResetIsCanonical (R317, R360, R382, R443, R453), and TransitionsBurnWipeAndBurn (R317, R319, R322, R324, R326, R327) step by step. -/

namespace Sys2Proof.Safety

open Sys2Proof.Machine

/-- Settles O3: each field has its value in the state after reset; the flash is empty, so canonical, and with no fuse burned the hasp value is 0. -/
theorem resetIsCanonical : Obligations.ResetIsCanonical :=
  ⟨rfl, rfl, rfl, rfl, by decide, rfl, rfl, rfl, rfl, rfl, rfl⟩

/-! ### The steps of a transition -/

/-- A burn waits for stage 0 or 1, outside the shackle state (R327). -/
theorem mayBurn_of_stage {d : Device} (ha : d.power.applied ≤ 1) (hs : d.shackled = false) : d.mayBurn = true := by simp [Device.mayBurn, ha, hs]

theorem exec_haspOddBurn {x : Trans} {s : State} (hx : s.dev.hs.trans = some x) (h0 : x.step = 0) (ha : s.dev.power.applied ≤ 1)
    (hs : s.dev.shackled = false) (rows : Nat) : exec (.haspOddBurn rows) s = .next { s with dev := s.dev.oddBurn x rows } := by
  simp [exec, execHaspOddBurn, hx, h0, mayBurn_of_stage ha hs]

theorem exec_haspEvenBurn {x : Trans} {s : State} (hx : s.dev.hs.trans = some x) (h9 : x.step = 9) (ha : s.dev.power.applied ≤ 1)
    (hs : s.dev.shackled = false) (rows : Nat) : exec (.haspEvenBurn rows) s = .next { s with dev := s.dev.evenBurn x rows } := by
  simp [exec, execHaspEvenBurn, hx, h9, mayBurn_of_stage ha hs]

theorem exec_wipeStep {x : Trans} {s : State} (hx : s.dev.hs.trans = some x) (h1 : 1 ≤ x.step) (h8 : x.step ≤ 8) (ok : Bool) :
    exec (.wipeStep ok) s = .next { s with dev := s.dev.wipeStep x ok } := by
  simp [exec, execWipeStep, hx, h1, h8]

theorem exec_oddBurn_done (x : Trans) (s : State) (hx : s.dev.hs.trans = some x) (h0 : x.step = 0) (ha : s.dev.power.applied ≤ 1)
    (hs : s.dev.shackled = false) : ∃ t, exec (.haspOddBurn 3) s = .next t ∧ t.dev.perm = s.dev.perm.burn (x.target - 2) ∧
      t.dev.hs.rights = 0 ∧ t.dev.hs.evt = s.dev.hs.evt ||| 4 ∧ t.dev.hs.trans = some { x with step := nextStep x.target 0, tries := 0 } ∧
      { source := 1495 } ∈ t.dev.fc.incoming ∧ keepsRest [.perm, .hs, .fc, .nv, .power, .ul, .out] s t := by
  refine ⟨_, exec_haspOddBurn hx h0 ha hs 3, oddBurn_perm _ x 3, ?_⟩
  rw [oddBurn_of_three_le (Nat.le_refl 3)]
  refine ⟨by simp, by simp, by simp, atStep_incoming _ _ _ (oddBurned_incoming _ x), rfl, ?_⟩
  exact ((changesOnly_oddBurned _ x).then (changesOnly_atStep _ x _)).mono (by decide)

theorem exec_oddBurn_failed (rows : Nat) (x : Trans) (s : State) (hx : s.dev.hs.trans = some x) (h0 : x.step = 0)
    (ha : s.dev.power.applied ≤ 1) (hs : s.dev.shackled = false) (hr : rows < 3) : ∃ t, exec (.haspOddBurn rows) s = .next t ∧
      t.dev.perm = s.dev.perm.burnRows (x.target - 2) rows ∧ t.dev.hs.trans = none ∧ t.dev.hs.rights = 0 ∧
      { source := 1489 } ∈ t.dev.fc.incoming ∧ keepsRest [.perm, .hs, .fc, .mi, .power, .ul, .out] s t := by
  refine ⟨_, exec_haspOddBurn hx h0 ha hs rows, oddBurn_perm _ x rows, ?_⟩
  rw [oddBurn_of_lt_three hr]
  refine ⟨by simp, by simp, transStops_incoming _ _, rfl, ?_⟩
  exact (((changesOnly_perm s.dev (s.dev.perm.burnRows (x.target - 2) rows)).then (changesOnly_hs _ { s.dev.hs with rights := 0 })).then
    (changesOnly_transStops _ 1489)).mono (by decide)

theorem exec_wipeStep_flash (x : Trans) (s : State) (hx : s.dev.hs.trans = some x) (h4 : x.step = 4) :
    ∃ t, exec (.wipeStep true) s = .next t ∧ t.dev.perm = { s.dev.perm with flash := [] } ∧
      t.dev.hs.trans = some { x with step := nextStep x.target 4, tries := 0 } ∧ keepsRest [.perm, .hs, .power, .fc, .ul, .out] s t := by
  have hd : s.dev.wipeStep x true = ({ s.dev with perm := { s.dev.perm with flash := [] } } : Device).atStep x (nextStep x.target 4) := by
    rw [Device.wipeStep, if_pos rfl, h4]
    rfl
  refine ⟨_, exec_wipeStep hx (by omega) (by omega) true, ?_⟩
  rw [hd]
  exact ⟨changesOnly_atStep _ x _ .perm (by decide), by simp, rfl,
    (changesOnly_perm s.dev { s.dev.perm with flash := [] }).then (changesOnly_atStep _ x _)⟩

theorem exec_wipeStep_gives_up (x : Trans) (s : State) (hx : s.dev.hs.trans = some x) (h1 : 1 ≤ x.step) (h8 : x.step ≤ 8) (ht : 2 ≤ x.tries) :
    ∃ t, exec (.wipeStep false) s = .next t ∧ t.dev.hs.trans = none ∧ { source := 1491 } ∈ t.dev.fc.incoming ∧
      keepsRest [.hs, .fc, .mi, .power, .ul, .out] s t := by
  have hd : s.dev.wipeStep x false = s.dev.transStops 1491 := by rw [Device.wipeStep, if_neg Bool.false_ne_true, if_pos ht]
  refine ⟨_, exec_wipeStep hx h1 h8 false, ?_⟩
  rw [hd]
  exact ⟨by simp, transStops_incoming _ _, rfl, changesOnly_transStops _ _⟩

theorem exec_wipeStep_retries (x : Trans) (s : State) (hx : s.dev.hs.trans = some x) (h1 : 1 ≤ x.step) (h8 : x.step ≤ 8) (ht : x.tries < 2) :
    ∃ t, exec (.wipeStep false) s = .next t ∧ t.dev.hs.trans = some { x with tries := x.tries + 1 } ∧ keepsRest [.hs] s t := by
  have hd : s.dev.wipeStep x false = { s.dev with hs := { s.dev.hs with trans := some { x with tries := x.tries + 1 } } } := by
    rw [Device.wipeStep, if_neg Bool.false_ne_true, if_neg (Nat.not_le.2 ht)]
  refine ⟨_, exec_wipeStep hx h1 h8 false, ?_⟩
  rw [hd]
  exact ⟨rfl, rfl, changesOnly_hs _ _⟩

theorem exec_evenBurn_done (x : Trans) (s : State) (hx : s.dev.hs.trans = some x) (h9 : x.step = 9) (ha : s.dev.power.applied ≤ 1)
    (hs : s.dev.shackled = false) : ∃ t, exec (.haspEvenBurn 3) s = .next t ∧ t.dev.perm = s.dev.perm.burn (x.target - 1) ∧
      t.dev.hs.trans = none ∧ t.dev.hs.evt = s.dev.hs.evt ||| 8 ∧ { source := 1496 } ∈ t.dev.fc.incoming ∧
      keepsRest [.perm, .hs, .fc, .nv, .mi, .power, .ul, .out] s t := by
  refine ⟨_, exec_haspEvenBurn hx h9 ha hs 3, evenBurn_perm _ x 3, ?_⟩
  rw [evenBurn_of_three_le (Nat.le_refl 3)]
  have hsKept := changesOnly_evenEnded (evenBurned s.dev x) x .hs (by decide)
  refine ⟨(congrArg Hasp.trans hsKept).trans ?_, (congrArg Hasp.evt hsKept).trans ?_, evenEnded_incoming _ x (evenBurned_incoming _ x), rfl, ?_⟩
  · simp
  · simp
  · exact ((changesOnly_evenBurned _ x).then (changesOnly_evenEnded _ x)).mono (by decide)

/-- Settles O38, clause by clause: the odd burn done and failed, a wipe step done, given up and tried again, and the even burn. -/
theorem transitionsBurnWipeAndBurn : Obligations.TransitionsBurnWipeAndBurn :=
  ⟨exec_oddBurn_done, exec_oddBurn_failed, exec_wipeStep_flash, exec_wipeStep_gives_up, exec_wipeStep_retries, exec_evenBurn_done⟩

end Sys2Proof.Safety
end

section
/-! SUPPORT. A power cycle (R285, R353, R374, R410): what a commit cut by the loss and a CHIP reset leave as they were. -/

namespace Sys2Proof.Safety

open Sys2Proof.Machine

/-! ### Commits (R370, R374) -/

theorem changesOnly_applyCommit (d : Device) (v : CommitVal) : changesOnly [.nv, .hs, .kw] d (d.applyCommit v) := by
  have nv (x) : changesOnly [.nv, .hs, .kw] d { d with nv := x } := (changesOnly_nv d x).mono (by decide)
  have nvHs (x y) : changesOnly [.nv, .hs, .kw] d { d with nv := x, hs := y } := ((changesOnly_nv d x).then (changesOnly_hs _ y)).mono (by decide)
  cases v with
  | bootCount | intkeys => exact nvHs _ _
  | epoch => exact ((changesOnly_nv d (d.nv.lines _)).then (changesOnly_kw _ _)).mono (by decide)
  | _ => exact nv _

theorem changesOnly_commitNow (d : Device) (v : CommitVal) : changesOnly [.nv, .hs, .kw] d (d.commitNow v) :=
  changesOnly.ite _ (changesOnly.refl _ _) (changesOnly_applyCommit d v)

theorem changesOnly_settleCommit (d : Device) : changesOnly [.nv, .hs, .kw] d d.settleCommit := by
  unfold Device.settleCommit
  split
  · exact changesOnly.ite _ (changesOnly_commitNow _ _) (changesOnly.refl _ _)
  · exact changesOnly.refl _ _

/-- A commit changes no right (R333, R370). -/
theorem applyCommit_rights (d : Device) (v : CommitVal) : (d.applyCommit v).hs.rights = d.hs.rights := by cases v <;> rfl

theorem settleCommit_rights (d : Device) : d.settleCommit.hs.rights = d.hs.rights := by
  unfold Device.settleCommit Device.commitNow
  split
  · split
    · split
      · rfl
      · exact applyCommit_rights _ _
    · rfl
  · rfl

theorem settleCommit_of_none {d : Device} (h : d.nv.current = none) : d.settleCommit = d := by simp [Device.settleCommit, h]

theorem cutCommit_of_none {d : Device} (h : d.nv.current = none) (cycle : Nat) : d.cutCommit cycle = d := by simp [Device.cutCommit, h]

/-- The device without its commit under way. -/
def uncommitted (d : Device) : Device := { d with nv := { d.nv with current := none } }

/-- Before cycle 40 the commit is lost, and the journal is as it was (R374). -/
theorem cutCommit_of_early (d : Device) {cycle : Nat} (h : cycle < 40) : d.cutCommit cycle = uncommitted d := by
  unfold Device.cutCommit
  split
  · next hc => simp [uncommitted, ← hc]
  · exact if_pos h

/-- A commit that the loss cuts changes the counters of the journal, and may raise source 1292 (R374, R416). -/
theorem changesOnly_cutCommit (d : Device) (cycle : Nat) : changesOnly [.nv, .hs, .kw, .fc] d (d.cutCommit cycle) := by
  unfold Device.cutCommit
  split
  · exact changesOnly.refl _ _
  · have dropped : changesOnly [.nv, .hs, .kw, .fc] d (uncommitted d) := (changesOnly_nv d _).mono (by decide)
    have raised := dropped.trans ((changesOnly_raiseSrc _ 1292).mono (by decide))
    have done {e : Device} (h : changesOnly [.nv, .hs, .kw, .fc] d e) (v : CommitVal) := h.trans ((changesOnly_commitNow e v).mono (by decide))
    exact .ite _ dropped (.ite _ (done dropped _) (.ite _ (raised.trans ((changesOnly_nv _ _).mono (by decide))) (done raised _)))

/-- Of the collector the cut changes the raised sources alone (R416). -/
theorem cutCommit_fc (d : Device) (cycle : Nat) : ∃ raised, (d.cutCommit cycle).fc = { d.fc with incoming := raised } := by
  unfold Device.cutCommit
  split
  · exact ⟨_, rfl⟩
  · dsimp only
    split
    · exact ⟨_, rfl⟩
    · split
      · exact ⟨_, changesOnly_commitNow _ _ .fc (by decide)⟩
      · split
        · exact ⟨_, rfl⟩
        · exact ⟨_, changesOnly_commitNow _ _ .fc (by decide)⟩

/-! ### CHIP reset (R353) -/

theorem changesOnly_loadThermal (d : Device) : changesOnly [.power] d d.loadThermal := changesOnly_power d _

theorem changesOnly_loadCutoffs (d : Device) : changesOnly [.ns] d d.loadCutoffs := by
  unfold Device.loadCutoffs
  split <;> exact changesOnly_onNs d _

/-- The values that calibration gives at a reset are limits of the power block and cutoffs of the entropy block (R427). -/
theorem changesOnly_calibrated (d : Device) : changesOnly [.power, .ns] d d.loadThermal.loadCutoffs :=
  (changesOnly_loadThermal d).then (changesOnly_loadCutoffs _)

@[simp] theorem chipReset_leaves (d : Device) (c : ResetCause) : (d.chipReset c).leaves = [] := changesOnly_calibrated _ .leaves (by decide)

@[simp] theorem chipReset_turns (d : Device) (c : ResetCause) : (d.chipReset c).turns = [] := changesOnly_calibrated _ .turns (by decide)

@[simp] theorem chipReset_aon (d : Device) (c : ResetCause) : (d.chipReset c).aon = d.aon :=
  (changesOnly_calibrated _ .aon (by decide)).trans (changesOnly_settleCommit d .aon (by decide))

@[simp] theorem chipReset_fc (d : Device) (c : ResetCause) : (d.chipReset c).fc = d.fc.reset (resetCode c) :=
  (changesOnly_calibrated _ .fc (by decide)).trans
    (congrArg (Collector.reset · (resetCode c)) (changesOnly_settleCommit d .fc (by decide)))

@[simp] theorem chipReset_cuts (d : Device) (c : ResetCause) : (d.chipReset c).nv.cuts = d.settleCommit.nv.cuts := by
  have h : (d.chipReset c).nv = d.settleCommit.nv.reset (d.settleCommit.power.mv < 685) := changesOnly_calibrated _ .nv (by decide)
  rw [h, Nv.reset]

@[simp] theorem chipReset_rights (d : Device) (c : ResetCause) : (d.chipReset c).hs.rights = d.hs.rights := by
  have h : (d.chipReset c).hs = { rights := d.settleCommit.hs.rights, boot := d.settleCommit.hs.boot, intkeys := d.settleCommit.hs.intkeys } :=
    changesOnly_calibrated _ .hs (by decide)
  rw [h, settleCommit_rights]

/-- A CHIP reset changes no supply (R353). -/
@[simp] theorem chipReset_supplies (d : Device) (c : ResetCause) :
    (d.chipReset c).power.off = d.power.off ∧ (d.chipReset c).power.core = d.power.core ∧ (d.chipReset c).power.io = d.power.io ∧
      (d.chipReset c).power.vbat = d.power.vbat := by
  have settled : d.settleCommit.power = d.power := changesOnly_settleCommit d .power (by decide)
  have cutoffs (e : Device) : e.loadCutoffs.power = e.power := changesOnly_loadCutoffs e .power (by decide)
  rw [Device.chipReset, cutoffs, ← settled]
  exact ⟨rfl, rfl, rfl, rfl⟩

/-! ### The loss of VDD_CORE (R374, R410) -/

/-- VDD_CORE is lost, and nothing is yet said of VDD_IO (R410). -/
def coreLost (d : Device) (cycle : Nat) : Device :=
  let e := (d.cutCommit cycle).chipReset .powerUp
  { e with power := { e.power with off := true, core := false, mv := 0, sensed := 0, thermal := 0, applied := 0, boot := 0 },
           tp := e.tp.arm false, vault := [], hs := { e.hs with rights := 0 } }

/-- VDD_IO is lost too: the island goes on under VBAT, or loses everything (R410, R420, R421). -/
def ioLost (d : Device) : Device :=
  let e : Device := { d with power := { d.power with io := false } }
  if e.power.vbat then e.onVbat else e.aonLost

theorem powerLoss_eq (d : Device) (ioFalls : Bool) (cycle : Nat) :
    d.powerLoss ioFalls cycle = if !ioFalls || !(coreLost d cycle).power.io then coreLost d cycle else ioLost (coreLost d cycle) := rfl

@[simp] theorem coreLost_supplies (d : Device) (cycle : Nat) :
    (coreLost d cycle).power.io = d.power.io ∧ (coreLost d cycle).power.vbat = d.power.vbat := by
  have cut : (d.cutCommit cycle).power = d.power := changesOnly_cutCommit d cycle .power (by decide)
  simp [coreLost, cut]

@[simp] theorem coreLost_leaves (d : Device) (cycle : Nat) : (coreLost d cycle).leaves = [] := chipReset_leaves _ _

@[simp] theorem coreLost_turns (d : Device) (cycle : Nat) : (coreLost d cycle).turns = [] := chipReset_turns _ _

@[simp] theorem coreLost_aon (d : Device) (cycle : Nat) : (coreLost d cycle).aon = d.aon :=
  (chipReset_aon _ _).trans (changesOnly_cutCommit d cycle .aon (by decide))

@[simp] theorem coreLost_sticky (d : Device) (cycle : Nat) : (coreLost d cycle).fc.sticky = d.fc.sticky := by
  obtain ⟨raised, h⟩ := cutCommit_fc d cycle
  simp [coreLost, h, Collector.reset]

/-- The counters of the journal after the loss: those of the cut, and of the commit that completes at the reset (R370, R374). -/
theorem coreLost_cuts (d : Device) (cycle : Nat) : (coreLost d cycle).nv.cuts = (d.cutCommit cycle).settleCommit.nv.cuts := chipReset_cuts _ _

theorem coreLost_cuts_of_none {d : Device} (h : d.nv.current = none) (cycle : Nat) : (coreLost d cycle).nv.cuts = d.nv.cuts := by
  rw [coreLost_cuts, cutCommit_of_none h, settleCommit_of_none h]

theorem coreLost_cuts_of_early (d : Device) {cycle : Nat} (h : cycle < 40) : (coreLost d cycle).nv.cuts = d.nv.cuts := by
  rw [coreLost_cuts, cutCommit_of_early d h, settleCommit_of_none rfl, uncommitted]

theorem changesOnly_onVbat (d : Device) : changesOnly [.aon] d d.onVbat := changesOnly_aon d _

/-- Of the parts of the device the island reaches its own, the tamper block, the sticky record and the identity (R420). -/
theorem changesOnly_aonLost (d : Device) : changesOnly [.aon, .tp, .fc, .kw] d d.aonLost := by
  intro p hp
  cases p with
  | aon | tp | fc | kw => exact absurd (by decide) hp
  | _ => rfl

theorem changesOnly_ioLost (d : Device) : changesOnly [.power, .aon, .tp, .fc, .kw] d (ioLost d) :=
  have io := changesOnly_power d { d.power with io := false }
  changesOnly.ite _ ((io.then (changesOnly_onVbat _)).mono (by decide)) (io.then (changesOnly_aonLost _))

theorem ioLost_power (d : Device) : (ioLost d).power = { d.power with io := false } := by
  unfold ioLost
  dsimp only
  split <;> rfl

/-- With VBAT the island goes on, and holds its key share (R421). -/
theorem ioLost_of_vbat {d : Device} (h : d.power.vbat = true) : (ioLost d).aon.onBackup = true ∧ (ioLost d).aon.share = d.aon.share := by
  rw [ioLost, if_pos h]
  exact ⟨rfl, rfl⟩

/-- Without VBAT everything that the island holds is lost (R410, R420). -/
theorem ioLost_of_no_vbat {d : Device} (h : d.power.vbat = false) :
    (ioLost d).aon.dead = true ∧ (ioLost d).aon.share = [] ∧ (ioLost d).fc.sticky = 0 := by
  rw [ioLost, if_neg (by simp [h])]
  exact ⟨rfl, rfl, rfl⟩

/-- What VDD_IO decides beyond the loss of VDD_CORE (R410). -/
theorem changesOnly_powerLoss (d : Device) (ioFalls : Bool) (cycle : Nat) :
    changesOnly [.power, .aon, .tp, .fc, .kw] (coreLost d cycle) (d.powerLoss ioFalls cycle) :=
  changesOnly.ite _ (changesOnly.refl _ _) (changesOnly_ioLost _)

theorem powerLoss_off (d : Device) (ioFalls : Bool) (cycle : Nat) :
    (d.powerLoss ioFalls cycle).power.off = true ∧ (d.powerLoss ioFalls cycle).power.core = false := by
  rw [powerLoss_eq]
  split
  · exact ⟨rfl, rfl⟩
  · rw [ioLost_power]
    exact ⟨rfl, rfl⟩

theorem powerLoss_of_io_good (d : Device) (cycle : Nat) : d.powerLoss false cycle = coreLost d cycle := rfl

theorem powerLoss_of_io_falls {d : Device} (h : d.power.io = true) (cycle : Nat) : d.powerLoss true cycle = ioLost (coreLost d cycle) := by
  rw [powerLoss_eq, if_neg (by simp [h])]

end Sys2Proof.Safety
end

section
/-! PowerCycleClearsRightsAndShackle (R333, R374, R410): the loss and the return of VDD_CORE. -/

namespace Sys2Proof.Safety

open Sys2Proof.Machine

theorem exec_powerLoss (ioFalls : Bool) (cycle : Nat) (s : State) (h : s.dev.power.off = false) : ∃ t, exec (.powerLoss ioFalls cycle) s = .next t ∧
    t.pending = s.pending ∧ t.dev.power.off = true ∧ t.dev.power.core = false ∧ t.dev.hs.rights = 0 ∧ t.dev.leaves = [] ∧ t.dev.turns = [] ∧
    t.dev.vault = [] ∧ t.dev.perm = s.dev.perm ∧ (s.dev.nv.current = none → t.dev.nv.cuts = s.dev.nv.cuts) ∧
    (cycle < 40 → t.dev.nv.cuts = s.dev.nv.cuts) ∧ (ioFalls = false → t.dev.aon = s.dev.aon ∧ t.dev.fc.sticky = s.dev.fc.sticky) ∧
    (ioFalls = true → s.dev.power.io = true → s.dev.power.vbat = true → t.dev.aon.onBackup = true ∧ t.dev.aon.share = s.dev.aon.share) ∧
    (ioFalls = true → s.dev.power.io = true → s.dev.power.vbat = false →
      t.dev.aon.dead = true ∧ t.dev.aon.share = [] ∧ t.dev.fc.sticky = 0) := by
  have may : (!s.dev.power.off) = true := by simp [h]
  have rest := changesOnly_powerLoss s.dev ioFalls cycle
  have cuts : (s.dev.powerLoss ioFalls cycle).nv.cuts = (coreLost s.dev cycle).nv.cuts := congrArg Nv.cuts (rest .nv (by decide))
  obtain ⟨off, core⟩ := powerLoss_off s.dev ioFalls cycle
  obtain ⟨io, vbat⟩ := coreLost_supplies s.dev cycle
  refine ⟨_, congrArg (run s · (s.dev.powerLoss ioFalls cycle)) may, rfl, off, core, congrArg Hasp.rights (rest .hs (by decide)),
    (rest .leaves (by decide)).trans (coreLost_leaves _ _), (rest .turns (by decide)).trans (coreLost_turns _ _), rest .vault (by decide), rfl,
    fun none => cuts.trans (coreLost_cuts_of_none none cycle), fun early => cuts.trans (coreLost_cuts_of_early _ early), ?_, ?_, ?_⟩
  · rintro rfl
    exact ⟨coreLost_aon _ _, coreLost_sticky _ _⟩
  · rintro rfl good backup
    rw [powerLoss_of_io_falls good]
    exact coreLost_aon s.dev cycle ▸ ioLost_of_vbat (vbat.trans backup)
  · rintro rfl good backup
    rw [powerLoss_of_io_falls good]
    exact ioLost_of_no_vbat (vbat.trans backup)

/-- The device to which VDD_CORE has returned, before its reset (R333, R410). -/
def coreBack (d : Device) : Device :=
  { d with power := { d.power with off := false, core := true, mv := 750 }, fc := { d.fc with shackled := false },
           hs := { d.hs with rights := 0 }, jt := {} }

/-- Leaving reset changes no supply. -/
theorem leaveReset_supplies (d : Device) : d.leaveReset.power.off = d.power.off ∧ d.leaveReset.power.core = d.power.core := by
  unfold Device.leaveReset
  split <;> exact ⟨rfl, rfl⟩

theorem exec_powerUp (s : State) (h : s.dev.power.off = true) : ∃ t, exec .powerUp s = .next t ∧ t.pending = s.pending ∧ t.dev.power.off = false ∧
    t.dev.power.core = true ∧ t.dev.hs.rights = 0 ∧ t.dev.fc.shackled = false ∧ t.dev.fc.cause = 0 ∧ t.dev.fc.shSrc = s.dev.fc.shSrc ∧
    t.dev.leaves = [] ∧ t.dev.turns = [] ∧ t.dev.perm = s.dev.perm ∧ t.dev.aon = s.dev.aon := by
  have rest := changesOnly_leaveReset ((coreBack s.dev).chipReset .powerUp)
  have fc := (rest .fc (by decide)).trans (chipReset_fc (coreBack s.dev) .powerUp)
  obtain ⟨off, core⟩ := leaveReset_supplies ((coreBack s.dev).chipReset .powerUp)
  obtain ⟨resetOff, resetCore, -, -⟩ := chipReset_supplies (coreBack s.dev) .powerUp
  exact ⟨_, congrArg (run s · s.dev.powerUp) h, rfl, off.trans resetOff, core.trans resetCore,
    (congrArg Hasp.rights (rest .hs (by decide))).trans (chipReset_rights _ _), congrArg Collector.shackled fc, congrArg Collector.cause fc,
    (congrArg Collector.shSrc fc).trans rfl, (rest .leaves (by decide)).trans (chipReset_leaves _ _), (rest .turns (by decide)).trans (chipReset_turns _ _),
    rfl, (rest .aon (by decide)).trans (chipReset_aon _ _)⟩

/-- Settles O12: the loss of VDD_CORE, and its return. -/
theorem powerCycleClearsRightsAndShackle : Obligations.PowerCycleClearsRightsAndShackle := ⟨exec_powerLoss, exec_powerUp⟩

end Sys2Proof.Safety
end

section
/-! TestAccessPort (R330, R332, R333, R454, R455): each instruction with its right, without it, and in the shackle state. -/

namespace Sys2Proof.Safety

open Sys2Proof.Machine

/-! ### The instruction register and what shifts out -/

theorem changesOnly_tap (d : Device) (ir : TapIr) : changesOnly [.jt] d (d.tap ir) := changesOnly_jt d _

theorem changesOnly_tap_tdo (d : Device) (ir : TapIr) (v n : Nat) : changesOnly [.jt, .out] d ((d.tap ir).tdo v n) :=
  (changesOnly_tap d ir).then (changesOnly_emit _ _)

theorem changesOnly_tapBypass (d : Device) : changesOnly [.jt, .out] d d.tapBypass := changesOnly_tap_tdo d _ _ _

theorem changesOnly_tapScan (d : Device) (ir : TapIr) : changesOnly [.jt, .out, .fresh] d (d.tapScan ir) :=
  (((changesOnly_tap d ir).then (changesOnly_draw _ 4)).then (changesOnly_emit _ _)).mono (by decide)

/-- The instructions of the port take effect with power on it (R440, R454). -/
theorem run_tap {s : State} {d : Device} {ps : List Part} (h : s.dev.tapOn = true) (hp : Part.perm ∉ ps) (k : changesOnly ps s.dev d) :
    run s s.dev.tapOn d = .next { s with dev := d } ∧ keepsRest ps s { s with dev := d } := run_of_changesOnly h hp k

theorem exec_tapReset (s : State) (h : s.dev.tapOn = true) :
    ∃ t, exec .tapReset s = .next t ∧ t.dev.jt = { s.dev.jt with ir := .idcode } ∧ keepsRest [.jt] s t := by
  obtain ⟨e, k⟩ := run_tap h (by decide) (changesOnly_tap s.dev .idcode)
  exact ⟨_, e, rfl, k⟩

theorem exec_idcode (s : State) (h : s.dev.tapOn = true) : ∃ t, exec .idcode s = .next t ∧ t.dev.jt.ir = .idcode ∧
    t.dev.out = s.dev.out ++ [.tdo 0x11000353 32] ∧ keepsRest [.jt, .out] s t := by
  obtain ⟨e, k⟩ := run_tap h (by decide) (changesOnly_tap_tdo s.dev .idcode 0x11000353 32)
  exact ⟨_, e, rfl, rfl, k⟩

theorem exec_bypass (s : State) (h : s.dev.tapOn = true) : ∃ t, exec .bypass s = .next t ∧ t.dev.jt = { s.dev.jt with ir := .bypass } ∧
    t.dev.out = s.dev.out ++ [.tdo 0 1] ∧ keepsRest [.jt, .out] s t := by
  obtain ⟨e, k⟩ := run_tap h (by decide) (changesOnly_tapBypass s.dev)
  exact ⟨_, e, rfl, rfl, k⟩

theorem exec_jtagStatus (s : State) (h : s.dev.tapOn = true) : ∃ t, exec .jtagStatus s = .next t ∧ t.dev.jt.ir = .jtagStatus ∧
    t.dev.out = s.dev.out ++ [.tdo (s.dev.readHs 0 + 2 ^ 32 * s.dev.readHs 4) 64] ∧ keepsRest [.jt, .out] s t := by
  obtain ⟨e, k⟩ := run_tap h (by decide) (changesOnly_tap_tdo s.dev .jtagStatus (s.dev.readHs 0 + 2 ^ 32 * s.dev.readHs 4) 64)
  exact ⟨_, e, rfl, rfl, k⟩

/-! ### Scans (R454, R455) -/

theorem exec_extest (s : State) (h : s.dev.tapOn = true) (hs : s.dev.shackled = false) : ∃ t v, exec .extest s = .next t ∧
    t.dev.jt = { s.dev.jt with ir := .extest } ∧ t.dev.out = s.dev.out ++ [.tdo v 32] ∧ keepsRest [.jt, .out, .fresh] s t := by
  have hd : (if s.dev.shackled then s.dev.tapBypass else s.dev.tapScan .extest) = s.dev.tapScan .extest := if_neg (by simp [hs])
  obtain ⟨e, k⟩ := run_tap h (by decide) (changesOnly_tapScan s.dev .extest)
  exact ⟨_, _, (congrArg (run s s.dev.tapOn) hd).trans e, rfl, rfl, k⟩

theorem exec_samplePreload (p : Word) (s : State) (h : s.dev.tapOn = true) (hs : s.dev.shackled = false) : ∃ t v,
    exec (.samplePreload p) s = .next t ∧ t.dev.jt = { ir := .sample, boundary := p.toNat } ∧ t.dev.out = s.dev.out ++ [.tdo v 32] ∧
      keepsRest [.jt, .out, .fresh] s t := by
  have hd : (if s.dev.shackled then s.dev.tapBypass else { s.dev.tapScan .sample with jt := { ir := .sample, boundary := p.toNat } }) =
      { s.dev.tapScan .sample with jt := { ir := .sample, boundary := p.toNat } } := if_neg (by simp [hs])
  obtain ⟨e, k⟩ := run_tap h (by decide)
    ((changesOnly_tapScan s.dev .sample).trans ((changesOnly_jt _ { ir := .sample, boundary := p.toNat }).mono (by decide)))
  exact ⟨_, _, (congrArg (run s s.dev.tapOn) hd).trans e, rfl, rfl, k⟩

theorem tapSecure_of_right {d : Device} (hs : d.shackled = false) {op : Nat} (h80 : 0x80 ≤ op) (hff : op ≠ 0xFF) (hr : d.right 3 = true) :
    d.tapSecure op = d.tapScan (.secure op) := by
  rw [Device.tapSecure, if_neg (by simp [hs, hff]; omega), if_neg (by simp [hr])]

theorem tapSecure_of_no_right {d : Device} (hs : d.shackled = false) {op : Nat} (h80 : 0x80 ≤ op) (hff : op ≠ 0xFF) (hr : d.right 3 = false) :
    d.tapSecure op = (d.raiseSrc 1497).tapBypass := by
  rw [Device.tapSecure, if_neg (by simp [hs, hff]; omega), if_pos (by simp [hr])]

theorem exec_jtagSecure (op : Byte) (s : State) (h : s.dev.tapOn = true) (hs : s.dev.shackled = false) (h80 : 0x80 ≤ op.toNat)
    (hff : op.toNat ≠ 0xFF) (hr : s.dev.right 3 = true) : ∃ t v, exec (.jtagSecureInstruction op) s = .next t ∧
      t.dev.jt = { s.dev.jt with ir := .secure op.toNat } ∧ t.dev.out = s.dev.out ++ [.tdo v 32] ∧ keepsRest [.jt, .out, .fresh] s t := by
  obtain ⟨e, k⟩ := run_tap h (by decide) (changesOnly_tapScan s.dev (.secure op.toNat))
  exact ⟨_, _, (congrArg (run s s.dev.tapOn) (tapSecure_of_right hs h80 hff hr)).trans e, rfl, rfl, k⟩

theorem exec_jtagSecure_denied (op : Byte) (s : State) (h : s.dev.tapOn = true) (hs : s.dev.shackled = false) (h80 : 0x80 ≤ op.toNat)
    (hff : op.toNat ≠ 0xFF) (hr : s.dev.right 3 = false) : ∃ t, exec (.jtagSecureInstruction op) s = .next t ∧
      t.dev.jt = { s.dev.jt with ir := .bypass } ∧ raisedIn s t 1497 ∧ t.dev.out = s.dev.out ++ [.tdo 0 1] ∧
      keepsRest [.jt, .fc, .out] s t := by
  obtain ⟨e, k⟩ := run_tap h (by decide) (((changesOnly_raiseSrc s.dev 1497).then (changesOnly_tapBypass _)).mono (qs := [.jt, .fc, .out]) (by decide))
  exact ⟨_, (congrArg (run s s.dev.tapOn) (tapSecure_of_no_right hs h80 hff hr)).trans e, rfl, rfl, rfl, k⟩

/-! ### HIGHZ and CLAMP (R332, R454) -/

theorem exec_tapPublic {c : Instr} {ir : TapIr} (hc : (c = .highz ∧ ir = .highz) ∨ (c = .clamp ∧ ir = .clamp)) (s : State) :
    exec c s = run s s.dev.tapOn (s.dev.tapPublic ir) := by
  obtain ⟨rfl, rfl⟩ | ⟨rfl, rfl⟩ := hc <;> rfl

theorem tapPublic_of_right {d : Device} (hs : d.shackled = false) (hr : d.right 2 = true) (ir : TapIr) : d.tapPublic ir = (d.tap ir).tdo 0 1 := by
  rw [Device.tapPublic, if_neg (by simp [hs]), if_neg (by simp [hr])]

theorem tapPublic_of_no_right {d : Device} (hs : d.shackled = false) (hr : d.right 2 = false) (ir : TapIr) :
    d.tapPublic ir = d.denied.tapBypass := by
  rw [Device.tapPublic, if_neg (by simp [hs]), if_pos (by simp [hr])]

theorem tapPublic_of_shackled {d : Device} (hs : d.shackled = true) (ir : TapIr) : d.tapPublic ir = d.tapBypass := if_pos hs

theorem exec_public (c : Instr) (ir : TapIr) (s : State) (hc : (c = .highz ∧ ir = .highz) ∨ (c = .clamp ∧ ir = .clamp))
    (h : s.dev.tapOn = true) (hs : s.dev.shackled = false) (hr : s.dev.right 2 = true) : ∃ t, exec c s = .next t ∧
      t.dev.jt = { s.dev.jt with ir := ir } ∧ t.dev.jt.holds = true ∧ t.dev.out = s.dev.out ++ [.tdo 0 1] ∧ keepsRest [.jt, .out] s t := by
  obtain ⟨e, k⟩ := run_tap h (by decide) (changesOnly_tap_tdo s.dev ir 0 1)
  refine ⟨_, by rw [exec_tapPublic hc, tapPublic_of_right hs hr, e], rfl, ?_, rfl, k⟩
  obtain ⟨-, rfl⟩ | ⟨-, rfl⟩ := hc <;> rfl

theorem exec_public_denied (c : Instr) (hc : c ∈ [Instr.highz, .clamp]) (s : State) (h : s.dev.tapOn = true) (hs : s.dev.shackled = false)
    (hr : s.dev.right 2 = false) : ∃ t, exec c s = .next t ∧ t.dev.jt = { s.dev.jt with ir := .bypass } ∧
      t.dev.out.getLast? = some (.tdo 0 1) ∧ deniedIn s t ∧ keepsRest [.jt, .hs, .fc, .ul, .out] s t := by
  obtain ⟨ir, hir⟩ : ∃ ir, (c = .highz ∧ ir = TapIr.highz) ∨ (c = .clamp ∧ ir = TapIr.clamp) := by
    obtain rfl | rfl : c = .highz ∨ c = .clamp := by simpa using hc
    · exact ⟨_, .inl ⟨rfl, rfl⟩⟩
    · exact ⟨_, .inr ⟨rfl, rfl⟩⟩
  obtain ⟨e, k⟩ := run_tap h (by decide)
    (((changesOnly_denied s.dev).then (changesOnly_tapBypass _)).mono (qs := [.jt, .hs, .fc, .ul, .out]) (by decide))
  refine ⟨_, by rw [exec_tapPublic hir, tapPublic_of_no_right hs hr, e], ?_, List.getLast?_concat, ⟨denied_hs _, denied_fc _⟩, k⟩
  exact congrArg (fun j : Tap => { j with ir := .bypass }) (changesOnly_denied s.dev .jt (by decide))

/-! ### OPEN (R330, R333) -/

theorem certRefused_hs (d : Device) : d.certRefused.hs = { d.hs with evt := d.hs.evt ||| 2 } := hsEvt_hs _ _

theorem certRefused_fc (d : Device) : d.certRefused.fc = { d.fc with incoming := d.fc.incoming ++ [{ source := 1493 }] } := by
  simp [Device.certRefused, Device.raiseSrc]

theorem changesOnly_certRefused (d : Device) : changesOnly [.hs, .ul, .out, .fc] d d.certRefused :=
  (changesOnly_hsEvt d 2).then (changesOnly_raiseSrc _ 1493)

theorem grant_hs (d : Device) (c : Bytes) : (d.grant c).hs = { d.hs with rights := d.hs.rights ||| u8 c 4, evt := d.hs.evt ||| 1 } := hsEvt_hs _ _

theorem grant_fc (d : Device) (c : Bytes) : (d.grant c).fc = { d.fc with incoming := d.fc.incoming ++ [{ source := 1494 }] } := by
  simp [Device.grant, Device.raiseSrc]

theorem changesOnly_grant (d : Device) (c : Bytes) : changesOnly [.hs, .ul, .out, .fc] d (d.grant c) :=
  (((changesOnly_hs d { d.hs with rights := d.hs.rights ||| u8 c 4 }).then (changesOnly_hsEvt _ 1)).then (changesOnly_raiseSrc _ 1494)).mono
    (by decide)

/-- The checks of a certificate do not see the instruction register. -/
theorem certChecks_tap (d : Device) (ir : TapIr) (c : Bytes) :
    ((d.tap ir).certEarly c false).or ((d.tap ir).certLate c false) = (d.certEarly c false).or (d.certLate c false) := rfl

theorem tapOpen_of_refused {d : Device} (hs : d.shackled = false) {c : Bytes} {st : Status}
    (h : (d.certEarly c false).or (d.certLate c false) = some st) : d.tapOpen c = (d.tap .jtagOpen).certRefused.tdo st.toNat 16 := by
  rw [Device.tapOpen, if_neg (by simp [hs]), Device.openCert, certChecks_tap, h]

theorem tapOpen_of_accepted {d : Device} (hs : d.shackled = false) {c : Bytes}
    (h : (d.certEarly c false).or (d.certLate c false) = none) : d.tapOpen c = ((d.tap .jtagOpen).grant c).tdo St.done.toNat 16 := by
  rw [Device.tapOpen, if_neg (by simp [hs]), Device.openCert, certChecks_tap, h]

theorem exec_jtagOpen (cert : Bytes) (s : State) (h : s.dev.tapOn = true) (hs : s.dev.shackled = false) :
    ∃ t, exec (.jtagOpen cert) s = .next t ∧ t.dev.jt.ir = .jtagOpen ∧
      ((s.dev.certEarly cert false).or (s.dev.certLate cert false) = none →
        t.dev.hs.rights = s.dev.hs.rights ||| u8 cert 4 ∧ raisedIn s t 1494 ∧ t.dev.out.getLast? = some (.tdo 0 16)) ∧
      (∀ st, (s.dev.certEarly cert false).or (s.dev.certLate cert false) = some st →
        t.dev.hs.rights = s.dev.hs.rights ∧ raisedIn s t 1493 ∧ t.dev.out.getLast? = some (.tdo st.toNat 16)) ∧
      keepsRest [.jt, .hs, .fc, .ul, .out] s t := by
  have told {e : Device} (he : changesOnly [.hs, .ul, .out, .fc] (s.dev.tap .jtagOpen) e) (v : Nat) :
      changesOnly [.jt, .hs, .fc, .ul, .out] s.dev (e.tdo v 16) :=
    (((changesOnly_tap s.dev .jtagOpen).then he).then (changesOnly_emit _ _)).mono (by decide)
  cases hc : (s.dev.certEarly cert false).or (s.dev.certLate cert false) with
  | none =>
    have granted := changesOnly_grant (s.dev.tap .jtagOpen) cert
    obtain ⟨e, k⟩ := run_tap h (by decide) (told granted St.done.toNat)
    refine ⟨_, (congrArg (run s s.dev.tapOn) (tapOpen_of_accepted hs hc)).trans e, congrArg Tap.ir (granted .jt (by decide)), fun _ => ?_, nofun, k⟩
    exact ⟨congrArg Hasp.rights (grant_hs (s.dev.tap .jtagOpen) cert), grant_fc (s.dev.tap .jtagOpen) cert, List.getLast?_concat⟩
  | some st =>
    have refused := changesOnly_certRefused (s.dev.tap .jtagOpen)
    obtain ⟨e, k⟩ := run_tap h (by decide) (told refused st.toNat)
    refine ⟨_, (congrArg (run s s.dev.tapOn) (tapOpen_of_refused hs hc)).trans e, congrArg Tap.ir (refused .jt (by decide)), nofun, ?_, k⟩
    rintro _ ⟨⟩
    exact ⟨(congrArg Hasp.rights (certRefused_hs (s.dev.tap .jtagOpen))).trans rfl, certRefused_fc (s.dev.tap .jtagOpen), List.getLast?_concat⟩

/-! ### The shackle state (R454) -/

theorem exec_shackled (c : Instr) (hc : c ∈ [Instr.extest, .samplePreload 0, .highz, .clamp, .jtagOpen [], .jtagSecureInstruction 0x80])
    (s : State) (_ : s.dev.tapOn = true) (hs : s.dev.shackled = true) : exec c s = exec .bypass s := by
  obtain rfl | rfl | rfl | rfl | rfl | rfl : c = .extest ∨ c = .samplePreload 0 ∨ c = .highz ∨ c = .clamp ∨ c = .jtagOpen [] ∨
      c = .jtagSecureInstruction 0x80 := by simpa using hc
  · exact congrArg (run s s.dev.tapOn) (if_pos hs)
  · exact congrArg (run s s.dev.tapOn) (if_pos hs)
  · exact congrArg (run s s.dev.tapOn) (tapPublic_of_shackled hs .highz)
  · exact congrArg (run s s.dev.tapOn) (tapPublic_of_shackled hs .clamp)
  · exact congrArg (run s s.dev.tapOn) (if_pos hs)
  · exact congrArg (run s s.dev.tapOn) (if_pos (.inl hs))

/-- Settles O52, clause by clause: the instructions of the port with their rights, without them, and in the shackle state. -/
theorem testAccessPort : Obligations.TestAccessPort :=
  ⟨exec_tapReset, exec_idcode, exec_bypass, exec_extest, exec_samplePreload, exec_public, exec_public_denied, exec_jtagOpen, exec_jtagStatus,
    exec_jtagSecure, exec_jtagSecure_denied, exec_shackled⟩

end Sys2Proof.Safety
end

section
/-! EveryStepKeepsFlashCanonical (R382), StepRunsTheFrontCommand, CommandsLeaveTheQueue and EmptyQueueOnlyTicks (R420): the machine as a
whole. -/

namespace Sys2Proof.Safety

open Sys2Proof.Machine

/-! ### The flash under the commands that write permanent memory (R318, R322, R382) -/

/-- A wipe step empties the flash or leaves it as it is (R322). -/
theorem flash_wf_wipe (d : Device) (step : Nat) (h : d.perm.flash.wf = true) : (d.wipe step).perm.flash.wf = true := by
  have same {e : Device} (k : e.perm = d.perm) : e.perm.flash.wf = true := k ▸ h
  unfold Device.wipe
  split
  · exact same (changesOnly_zeroiseShare d .perm (by decide))
  · exact h
  · exact h
  · rfl
  all_goals exact h

theorem flash_wf_wipes (l : List Nat) (d : Device) (h : d.perm.flash.wf = true) : (l.foldl Device.wipe d).perm.flash.wf = true := by
  induction l generalizing d with
  | nil => exact h
  | cons k r ih => exact ih _ (flash_wf_wipe d k h)

/-- The repair of the rows burns fuses only (R318). -/
theorem repair_flash (p : Perm) : p.repair.flash = p.flash := by
  have kept (l : List Nat) (q : Perm) : (l.foldl (fun q i => if p.burned i then q.burn i else q) q).flash = q.flash := by
    induction l generalizing q with
    | nil => rfl
    | cons i r ih =>
      refine (ih _).trans ?_
      dsimp only
      split <;> rfl
  exact kept _ p

theorem flash_wf_romBoot (d : Device) (fails : Option Nat) (rows : Nat) (h : d.perm.flash.wf = true) :
    (d.romBoot fails rows).perm.flash.wf = true := by
  have repaired : d.repairRows.perm.flash.wf = true := by rw [repairRows_perm, repair_flash]; exact h
  have wiped (target : Nat) : (((d.repairRows.raiseSrc 1490).hsEvt 0x10).wipeAll target fails).perm.flash.wf = true := by
    refine flash_wf_wipes _ _ ?_
    have same : ((d.repairRows.raiseSrc 1490).hsEvt 0x10).perm = d.repairRows.perm := changesOnly_hsEvt _ 0x10 .perm (by decide)
    exact same ▸ repaired
  have handed {e : Device} (k : e.perm.flash.wf = true) : e.romHandOver.perm.flash.wf = true := romHandOver_perm e ▸ k
  have burned (target : Nat) :
      ((((d.repairRows.raiseSrc 1490).hsEvt 0x10).wipeAll target fails).evenBurn { target := target, ticket := 0, step := 9 } rows).perm.flash.wf
        = true := by
    rw [evenBurn_perm, burnRows_flash]
    exact wiped target
  unfold Device.romBoot
  dsimp only
  split
  · exact handed repaired
  · split
    · exact wiped _
    · split
      · exact burned _
      · exact handed (burned _)

theorem flash_wf_wipeStep (d : Device) (t : Trans) (ok : Bool) (h : d.perm.flash.wf = true) : (d.wipeStep t ok).perm.flash.wf = true := by
  unfold Device.wipeStep
  split
  · have same : ((d.wipe t.step).atStep t (nextStep t.target t.step)).perm = (d.wipe t.step).perm := changesOnly_atStep _ t _ .perm (by decide)
    exact same ▸ flash_wf_wipe d t.step h
  · split
    · have same : (d.transStops 1491).perm = d.perm := changesOnly_transStops d 1491 .perm (by decide)
      exact same ▸ h
    · exact h

/-- A line written into a canonical flash leaves it canonical (R382). -/
theorem flash_wf_ufWrite (d : Device) (verifyFails : Bool) (h : d.perm.flash.wf = true) : (d.ufWrite verifyFails).perm.flash.wf = true := by
  have same : (d.lineWrite verifyFails).1.perm.flash.wf = true := by
    rw [show (d.lineWrite verifyFails).1.perm = d.perm from changesOnly_lineWrite d verifyFails .perm (by decide)]
    exact h
  unfold Device.ufWrite
  dsimp only
  split
  · exact Mem.wf_writeN _ _ same
  · exact same

theorem flash_wf_hostDo {d : Device} {f : Device → Device} (h : d.perm.flash.wf = true) (k : (f d).perm.flash.wf = true) :
    (d.hostDo f).perm.flash.wf = true := by
  unfold Device.hostDo Device.hostDoIn
  split
  · exact h
  · split
    · exact h
    · exact k

/-! ### Every command, and every step -/

theorem inv_of_exec {c : Instr} {s t : State} (h : Inv s) (e : exec c s = .next t) : Inv t := by
  by_cases hc : writesPerm c = false
  · unfold Inv
    rw [perm_of_exec hc e]
    exact h
  · cases c with
    | bootRomStart fails rows =>
      obtain ⟨-, rfl⟩ := runPerm_next e
      exact flash_wf_romBoot _ _ _ h
    | haspOddBurn n =>
      obtain ⟨i, p⟩ := perm_of_haspOddBurn e
      unfold Inv
      rw [p]
      exact h
    | haspEvenBurn n =>
      obtain ⟨i, p⟩ := perm_of_haspEvenBurn e
      unfold Inv
      rw [p]
      exact h
    | wipeStep ok =>
      simp only [exec, execWipeStep] at e
      split at e
      · obtain ⟨-, rfl⟩ := runPerm_next e
        exact flash_wf_wipeStep _ _ _ h
      · cases e
    | ufWrite b =>
      simp only [exec, execUfWrite] at e
      split at e
      · obtain ⟨-, rfl⟩ := runPerm_next e
        exact flash_wf_ufWrite _ _ h
      · obtain ⟨-, rfl⟩ := runPerm_next e
        refine flash_wf_hostDo h ?_
        split
        · exact h
        · exact flash_wf_ufWrite _ _ h
    | _ => exact absurd rfl hc

/-- Settles O4: an idle step keeps permanent memory; of the commands, those that answer by `run` keep it, the burns and the row repair change
fuses only, a wipe empties the flash, and a flash write puts its bytes into a canonical flash. -/
theorem everyStepKeepsFlashCanonical : Obligations.EveryStepKeepsFlashCanonical := by
  intro s t h e
  unfold step at e
  split at e
  · cases e
    exact h
  · next c rest _ => exact inv_of_exec (s := { s with pending := rest }) h e

/-- Settles O1: with a command in front, a step is by its definition `exec` of it. -/
theorem stepRunsTheFrontCommand : Obligations.StepRunsTheFrontCommand := fun _ _ _ => rfl

/-! ### The queue -/

theorem AnswersByRun.pending_eq {s t : State} (h : AnswersByRun s (.next t)) : t.pending = s.pending := by
  obtain ⟨can, d, e⟩ := h
  rw [(run_next e.symm).2]

theorem pending_of_runPerm {s t : State} {can : Bool} {d : Device} (e : runPerm s can d = .next t) : t.pending = s.pending := by
  rw [(runPerm_next e).2]

/-- Settles O6: a command answers by `run` or, where it writes permanent memory, by `runPerm`; both hold the waiting commands. -/
theorem commandsLeaveTheQueue : Obligations.CommandsLeaveTheQueue := by
  intro c s t e
  by_cases hc : writesPerm c = false
  · exact (e ▸ exec_answersByRun hc s).pending_eq
  · cases c with
    | bootRomStart => exact pending_of_runPerm e
    | haspOddBurn | haspEvenBurn | wipeStep =>
      simp only [exec, execHaspOddBurn, execHaspEvenBurn, execWipeStep] at e
      split at e
      · exact pending_of_runPerm e
      · cases e
    | ufWrite =>
      simp only [exec, execUfWrite] at e
      split at e <;> exact pending_of_runPerm e
    | _ => exact absurd rfl hc

/-! ### The idle step (log entry 4) -/

theorem changesOnly_ringSent (d : Device) : changesOnly [.lr, .out] d d.ringSent := by
  unfold Device.ringSent
  have sent := changesOnly_onLr d fun r => { r with sending := false, fwd := none }
  refine changesOnly.ite _ (changesOnly.refl _ _) ?_
  split
  · exact sent.then (changesOnly_pinOut _ _)
  · exact sent.mono (by decide)

theorem changesOnly_calAnswer (d : Device) (j : CalJob) (st : Status) : changesOnly [.ca, .hs, .ul, .out, .fc] d (d.calAnswer j st) := by
  have told : changesOnly [.hs, .ul, .out, .fc] d (d.when (st == St.rightMissing) Device.denied) := changesOnly_when (changesOnly_denied d)
  unfold Device.calAnswer
  refine changesOnly.ite _ ((told.then (changesOnly_onCa _ _)).mono (by decide)) ?_
  exact ((told.then (changesOnly_when (changesOnly_onCa _ _))).then (changesOnly_when (changesOnly_monEnd _ st))).mono (by decide)

theorem changesOnly_calFinish (d : Device) (j : CalJob) (st : Status) : changesOnly [.ca, .hs, .ul, .out, .fc] d (d.calFinish j st) :=
  ((changesOnly_onCa d _).then (changesOnly_calAnswer _ j st)).mono (by decide)

theorem changesOnly_calStored (d : Device) (j : CalJob) : changesOnly [.ca, .power, .hs, .ul, .out, .fc] d (d.calStored j) :=
  (((changesOnly_onCa d _).then (changesOnly_when (changesOnly_loadThermal _))).then (changesOnly_calFinish _ j _)).mono (by decide)

theorem changesOnly_calRestored (d : Device) (j : CalJob) : changesOnly [.ca, .power, .hs, .ul, .out, .fc] d (d.calRestored j) :=
  (((changesOnly_onCa d _).then (changesOnly_loadThermal _)).then (changesOnly_calFinish _ j _)).mono (by decide)

/-- A line of a calibration command changes calibration, what the thermal limits are loaded into, and what a line write may report (R429). -/
theorem changesOnly_calPoll (d : Device) : changesOnly [.ca, .power, .hs, .ul, .out, .fc, .nv] d d.calPoll := by
  unfold Device.calPoll
  split
  · exact changesOnly.refl _ d
  · next j _ _ =>
    split
    · exact (changesOnly_calFinish d j _).mono (by decide)
    · refine changesOnly.ite _ ((changesOnly_calRestored d j).mono (by decide)) (changesOnly.ite _ (changesOnly.refl _ d) ?_)
      have line := changesOnly_lineWrite d (j.fails.headD false)
      dsimp only
      refine changesOnly.ite _ ((line.then (changesOnly_calFinish _ j _)).mono (by decide))
        (changesOnly.ite _ ((line.then (changesOnly_calStored _ j)).mono (by decide)) ?_)
      split
      · exact (line.then (changesOnly_calRestored _ j)).mono (by decide)
      · have dropped (f : Cal → Cal) := line.then (changesOnly_onCa (d.lineWrite (j.fails.headD false)).1 f)
        exact changesOnly.ite _ (((dropped _).then (changesOnly_calRestored _ _)).mono (by decide)) ((dropped _).mono (by decide))

/-- After its tick an idle step sends on the ring and goes on with calibration (R429, R449). -/
theorem changesOnly_idleTick (d : Device) : changesOnly [.lr, .out, .ca, .power, .hs, .ul, .fc, .nv] d.tickRtc d.idleTick :=
  ((changesOnly_ringSent d.tickRtc).then (changesOnly_calPoll _)).mono (by decide)

theorem tickRtc_of_dead {d : Device} (h : d.aon.dead = true) : d.tickRtc = d := by simp [Device.tickRtc, h]

theorem tickRtc_rtc {d : Device} (h : d.aon.dead = false) : d.tickRtc.aon.rtc = (d.aon.rtc + 1) % 2 ^ 48 := by simp [Device.tickRtc, h]

theorem changesOnly_tickRtc (d : Device) : changesOnly [.aon, .tp] d d.tickRtc :=
  changesOnly.ite _ (changesOnly.refl _ d)
    ((changesOnly_aon d { d.aon with rtc := (d.aon.rtc + 1) % 2 ^ 48 }).then (changesOnly_tp _ _))

/-- Settles O2: the tick of the counter, then the ring's and the calibration's, which reach none of the parts named. -/
theorem emptyQueueOnlyTicks : Obligations.EmptyQueueOnlyTicks := by
  intro s hp
  have after := changesOnly_idleTick s.dev
  have tick := changesOnly_tickRtc s.dev
  refine ⟨idle s, by unfold step; rw [hp], hp, fun alive => ?_, fun dead => ?_, rfl, ?_, ?_, ?_⟩
  · exact (congrArg Aon.rtc (after .aon (by decide))).trans (tickRtc_rtc alive)
  · exact (after .aon (by decide)).trans (congrArg Device.aon (tickRtc_of_dead dead))
  · exact (after .turns (by decide)).trans (tick .turns (by decide))
  · exact (after .leaves (by decide)).trans (tick .leaves (by decide))
  · exact (after .sc (by decide)).trans (tick .sc (by decide))

end Sys2Proof.Safety
end

section
/-! AlarmFramesAreRecordedOnly (R451), and RingForwardsAnswersAndSends (R448 to R450, R452, R453) clause by clause. -/

namespace Sys2Proof.Safety

open Sys2Proof.Machine

/-! ### A pin of the control group (R455) -/

theorem pinOut_of_free {d : Device} (h : d.jt.holds = false) (o : Out) : d.pinOut o = d.emit o := if_neg (by simp [h])

/-! ### What a frame does, by what it finds (R449) -/

/-- A whole frame is counted (R449). -/
def frameCounted (d : Device) : Device := d.onLr fun r => { r with rx := satAdd 32 r.rx 1 }

/-- A frame for every node is acted on, any other is not (R449). -/
def frameActed (d : Device) (b : Bytes) : Device := if u8 b 1 = 0xFF then (frameCounted d).actOn b else frameCounted d

theorem ringRx_of_bad {d : Device} {b : Bytes} (h : frameGood b = false) :
    d.ringRx b = d.onLr fun r => { r with crcErrs := satAdd 16 r.crcErrs 1, evt := r.evt ||| 2 } := if_pos (by simp [h])

theorem ringRx_of_removed {d : Device} {b : Bytes} (h : frameGood b = true) (hr : u8 b 2 = d.lr.node ∨ u8 b 3 = 1) :
    d.ringRx b = frameCounted d := by
  rw [Device.ringRx, if_neg (by simp [h]), if_pos hr]
  rfl

section
variable {s : State} {b : Bytes} (h : frameGoesOn s b)
include h

theorem ringRx_of_answered (h0 : u8 b 0 = 2) (h1 : u8 b 1 = s.dev.lr.node) : s.dev.ringRx b = (frameCounted s.dev).answerRead b := by
  obtain ⟨-, hg, hn, hh⟩ := h
  rw [Device.ringRx, if_neg (by simp [hg]), if_neg (by simp [hn, hh]), if_pos ⟨h0, h1⟩]
  rfl

theorem ringRx_of_forwarded (hr : ¬ (u8 b 0 = 2 ∧ u8 b 1 = s.dev.lr.node)) : s.dev.ringRx b = (frameActed s.dev b).forward (frameHop b) := by
  obtain ⟨-, hg, hn, hh⟩ := h
  rw [Device.ringRx, if_neg (by simp [hg]), if_neg (by simp [hn, hh]), if_neg hr]
  rfl

/-- A frame for another node is forwarded and does nothing else. -/
theorem ringRx_of_passed (hx : u8 b 1 ≠ 0xFF) (hr : ¬ (u8 b 0 = 2 ∧ u8 b 1 = s.dev.lr.node)) :
    s.dev.ringRx b = (frameCounted s.dev).forward (frameHop b) := by rw [ringRx_of_forwarded h hr, frameActed, if_neg hx]

end

theorem forward_of_idle {d : Device} (hs : d.lr.sending = false) (b : Bytes) : d.forward b = d.pinOut (.ring b) := if_pos (by simp [hs])

theorem forward_of_empty {d : Device} (hs : d.lr.sending = true) (hf : d.lr.fwd = none) (b : Bytes) :
    d.forward b = d.onLr fun r => { r with fwd := some b } := by
  rw [Device.forward, if_neg (by simp [hs]), hf]

theorem forward_of_full {d : Device} (hs : d.lr.sending = true) {x : Bytes} (hf : d.lr.fwd = some x) (b : Bytes) :
    d.forward b = d.onLr fun r => { r with drops := satAdd 16 r.drops 1, evt := r.evt ||| 4 } := by
  rw [Device.forward, if_neg (by simp [hs]), hf]

theorem changesOnly_frameCounted (d : Device) : changesOnly [.lr] d (frameCounted d) := changesOnly_onLr d _

/-! ### Receiving (R448, R449) -/

/-- An event of the ring that changes its registers only. -/
theorem run_onLr {s : State} {can : Bool} (h : can = true) {d : Device} {f : Ring → Ring} (e : d = s.dev.onLr f) :
    ∃ t, run s can d = .next t ∧ t.dev.lr = f s.dev.lr ∧ keepsRest [.lr] s t := by
  subst e
  obtain ⟨e, k⟩ := run_of_changesOnly h (by decide) (changesOnly_onLr s.dev f)
  exact ⟨_, e, rfl, k⟩

theorem exec_ringFrameRx_bad (f : RxFrame) (s : State) (h : s.dev.onRing = true) (hg : frameGood f.bytes = false) : ∃ t,
    exec (.ringFrameRx f) s = .next t ∧
      t.dev.lr = { s.dev.lr with crcErrs := min (s.dev.lr.crcErrs + 1) 65535, evt := s.dev.lr.evt ||| 2 } ∧ keepsRest [.lr] s t :=
  run_onLr h (ringRx_of_bad hg)

theorem exec_ringFrameRx_removed (f : RxFrame) (s : State) (h : s.dev.onRing = true) (hg : frameGood f.bytes = true)
    (hr : u8 f.bytes 2 = s.dev.lr.node ∨ u8 f.bytes 3 = 1) : ∃ t, exec (.ringFrameRx f) s = .next t ∧
      t.dev.lr = { s.dev.lr with rx := min (s.dev.lr.rx + 1) (2 ^ 32 - 1) } ∧ keepsRest [.lr] s t :=
  run_onLr h (ringRx_of_removed hg hr)

theorem exec_ringFrameRx_forwarded (f : RxFrame) (s : State) (h : frameGoesOn s f.bytes) (hx : u8 f.bytes 1 ≠ 0xFF)
    (hr : ¬ (u8 f.bytes 0 = 2 ∧ u8 f.bytes 1 = s.dev.lr.node)) (hs : s.dev.lr.sending = false) (hj : s.dev.jt.holds = false) : ∃ t,
    exec (.ringFrameRx f) s = .next t ∧ t.dev.out = s.dev.out ++ [.ring (frameHop f.bytes)] ∧
      t.dev.lr = { s.dev.lr with rx := min (s.dev.lr.rx + 1) (2 ^ 32 - 1) } ∧ keepsRest [.lr, .out] s t := by
  have hd : s.dev.ringRx f.bytes = (frameCounted s.dev).emit (.ring (frameHop f.bytes)) := by
    rw [ringRx_of_passed h hx hr, forward_of_idle (by exact hs), pinOut_of_free (by exact hj)]
  obtain ⟨e, k⟩ := run_of_changesOnly h.1 (by decide) ((changesOnly_frameCounted s.dev).then (changesOnly_emit _ (.ring (frameHop f.bytes))))
  exact ⟨_, (congrArg (run s s.dev.onRing) hd).trans e, rfl, rfl, k⟩

theorem exec_ringFrameRx_buffered (f : RxFrame) (s : State) (h : frameGoesOn s f.bytes) (hx : u8 f.bytes 1 ≠ 0xFF)
    (hr : ¬ (u8 f.bytes 0 = 2 ∧ u8 f.bytes 1 = s.dev.lr.node)) (hs : s.dev.lr.sending = true) (hf : s.dev.lr.fwd = none) : ∃ t,
    exec (.ringFrameRx f) s = .next t ∧ t.dev.lr.fwd = some (frameHop f.bytes) ∧ t.dev.lr.drops = s.dev.lr.drops ∧ keepsRest [.lr] s t := by
  have hd : s.dev.ringRx f.bytes = s.dev.onLr fun r => { r with rx := satAdd 32 r.rx 1, fwd := some (frameHop f.bytes) } := by
    rw [ringRx_of_passed h hx hr, forward_of_empty (by exact hs) (by exact hf)]
    rfl
  obtain ⟨t, e, hl, k⟩ := run_onLr h.1 hd
  exact ⟨t, e, congrArg Ring.fwd hl, (congrArg Ring.drops hl).trans rfl, k⟩

theorem exec_ringFrameRx_dropped (f : RxFrame) (b : Bytes) (s : State) (h : frameGoesOn s f.bytes) (hx : u8 f.bytes 1 ≠ 0xFF)
    (hr : ¬ (u8 f.bytes 0 = 2 ∧ u8 f.bytes 1 = s.dev.lr.node)) (hs : s.dev.lr.sending = true) (hf : s.dev.lr.fwd = some b) : ∃ t,
    exec (.ringFrameRx f) s = .next t ∧ t.dev.lr.fwd = some b ∧ t.dev.lr.drops = min (s.dev.lr.drops + 1) 65535 ∧ keepsRest [.lr] s t := by
  have hd : s.dev.ringRx f.bytes =
      s.dev.onLr fun r => { r with rx := satAdd 32 r.rx 1, drops := satAdd 16 r.drops 1, evt := r.evt ||| 4 } := by
    rw [ringRx_of_passed h hx hr, forward_of_full (by exact hs) (by exact hf)]
    rfl
  obtain ⟨t, e, hl, k⟩ := run_onLr h.1 hd
  exact ⟨t, e, (congrArg Ring.fwd hl).trans hf, (congrArg Ring.drops hl).trans rfl, k⟩

/-! ### READ (R452) -/

theorem answerRead_of_on {d : Device} {b : Bytes} (hm : d.lr.mgmtEn = true) (h4 : u8 b 4 = 2) :
    d.answerRead b = d.onLr fun r => r.queueOwn false (d.response b) := if_pos (by simp [hm, h4])

/-- A RESPONSE goes behind the own frames that wait. -/
theorem queueOwn_response (r : Ring) (f : Bytes) : r.queueOwn false f = { r with own := r.own ++ [f] } := rfl

theorem exec_ringRead (f : RxFrame) (s : State) (h : frameGoesOn s f.bytes) (h0 : u8 f.bytes 0 = 2) (h1 : u8 f.bytes 1 = s.dev.lr.node)
    (h4 : u8 f.bytes 4 = 2) (hm : s.dev.lr.mgmtEn = true) : ∃ t, exec (.ringRead f) s = .next t ∧ exec (.ringFrameRx f) s = .next t ∧
    t.dev.lr = { s.dev.lr with rx := min (s.dev.lr.rx + 1) (2 ^ 32 - 1), own := s.dev.lr.own ++ [ringFrame 3 (u8 f.bytes 2) s.dev.lr.node 16
      (if u8 f.bytes 6 = 0 ∨ 8 < u8 f.bytes 6 ∨ 16 < u8 f.bytes 5 + u8 f.bytes 6 then []
       else ((({ s.dev with lr := { s.dev.lr with rx := min (s.dev.lr.rx + 1) (2 ^ 32 - 1) } } : Device).statusPage.drop (u8 f.bytes 5)).take
         (u8 f.bytes 6)).foldr (fun w r => leBytes w 4 ++ r) [])] } ∧ keepsRest [.lr] s t := by
  have hd : s.dev.ringRx f.bytes = (frameCounted s.dev).onLr fun r => r.queueOwn false ((frameCounted s.dev).response f.bytes) := by
    rw [ringRx_of_answered h h0 h1, answerRead_of_on (by exact hm) h4]
  obtain ⟨e, k⟩ := run_of_changesOnly (c := s.dev.onRing && u8 f.bytes 0 == 2) (by simp [h.1, h0]) (by decide)
    ((changesOnly_frameCounted s.dev).trans (changesOnly_onLr _ _))
  obtain ⟨e', -⟩ := run_of_changesOnly h.1 (by decide)
    ((changesOnly_frameCounted s.dev).trans (changesOnly_onLr _ _))
  refine ⟨_, (congrArg (run s _) hd).trans e, (congrArg (run s _) hd).trans e', ?_, k⟩
  refine (queueOwn_response _ _).trans ?_
  simp only [Device.response]
  split <;> rfl

/-! ### Sending (R449, R450, R453) -/

theorem exec_ringFrameTx (b : Bytes) (rest : List Bytes) (s : State) (h : s.dev.onRing = true) (ho : s.dev.lr.own = b :: rest)
    (hf : s.dev.lr.fwd = none) (hs : s.dev.lr.sending = false) (hj : s.dev.jt.holds = false) : ∃ t, exec .ringFrameTx s = .next t ∧
    t.dev.out = s.dev.out ++ [.ring b] ∧ t.dev.lr = { s.dev.lr with own := rest, sending := true } ∧ keepsRest [.lr, .out] s t := by
  have hd : s.dev.ringTx = (s.dev.onLr fun r => { r with own := rest, sending := true }).emit (.ring b) := by
    rw [Device.ringTx, ho]
    exact pinOut_of_free (d := s.dev.onLr fun r => { r with own := rest, sending := true }) hj _
  obtain ⟨e, k⟩ := run_of_changesOnly (c := s.dev.onRing && !s.dev.lr.own.isEmpty && s.dev.lr.fwd.isNone && !s.dev.lr.sending)
    (by simp [h, ho, hf, hs]) (by decide)
    ((changesOnly_onLr s.dev fun r => { r with own := rest, sending := true }).then (changesOnly_emit _ (.ring b)))
  exact ⟨_, (congrArg (run s _) hd).trans e, rfl, rfl, k⟩

/-- An own alarm is among the frames that wait, one more than before (R450). -/
theorem queueOwn_alarm (r : Ring) (f : Bytes) : f ∈ (r.queueOwn true f).own ∧ (r.queueOwn true f).own.length = r.own.length + 1 := by
  have hl := List.length_eq_length_filter_add (l := r.own) fun x => u8 x 0 == 1
  simp only [Ring.queueOwn, if_true, List.mem_append, List.mem_singleton, List.length_append, List.length_singleton, or_true, true_or, true_and]
  omega

theorem exec_ringAlarmRepeat (s : State) (ha : s.dev.lr.alarmActive = true) (ht : s.dev.lr.tokenEn = true) (hs : s.dev.fc.aliveStopped = true)
    (hp : s.dev.power.hkPll = true) : ∃ t, exec .ringAlarmRepeat s = .next t ∧
    s.dev.alarmFrame (if s.dev.shackled = true then 3 else 2) ∈ t.dev.lr.own ∧ t.dev.lr.own.length = s.dev.lr.own.length + 1 ∧
    keepsRest [.lr] s t := by
  have can : (s.dev.lr.alarmActive && s.dev.lr.tokenEn && s.dev.fc.aliveStopped && s.dev.power.hkPll) = true := by simp [ha, ht, hs, hp]
  obtain ⟨t, e, hl, k⟩ := run_onLr can rfl
  obtain ⟨hm, hn⟩ := queueOwn_alarm s.dev.lr (s.dev.alarmFrame (if s.dev.shackled = true then 3 else 2))
  exact ⟨t, e, hl ▸ hm, hl ▸ hn, k⟩

theorem exec_passPathOpen (s : State) (hp : s.dev.lr.passOpen = false) (hi : s.dev.power.io = true) (hb : s.dev.power.boot ≠ 0)
    (hk : s.dev.power.hkPll = true) : ∃ t, exec .passPathOpen s = .next t ∧ t.dev.lr = { s.dev.lr with passOpen := true } ∧ keepsRest [.lr] s t :=
  run_onLr (by simp [hp, hi, hb, hk]) rfl

/-- Settles O59, clause by clause: a bad frame, one that is removed, forwarded, buffered or dropped, a READ, and the node's own frames. -/
theorem ringForwardsAnswersAndSends : Obligations.RingForwardsAnswersAndSends :=
  ⟨exec_ringFrameRx_bad, exec_ringFrameRx_removed, exec_ringFrameRx_forwarded, exec_ringFrameRx_buffered, exec_ringFrameRx_dropped, exec_ringRead,
    exec_ringFrameTx, exec_ringAlarmRepeat, exec_passPathOpen⟩

/-! ### ALARM (R451) -/

/-- An alarm of another node is recorded (R451). -/
def alarmNoted (d : Device) (b : Bytes) : Device :=
  (frameCounted d).onLr fun r => { r with evt := r.evt ||| 1, alarmSrc := u8 b 2, alarmLevel := u8 b 5 }

theorem frameActed_of_alarm {d : Device} {b : Bytes} (h0 : u8 b 0 = 1) (h1 : u8 b 1 = 0xFF) : frameActed d b = alarmNoted d b := by
  rw [frameActed, if_pos h1, Device.actOn, if_pos h0]
  rfl

theorem changesOnly_alarmNoted (d : Device) (b : Bytes) : changesOnly [.lr] d (alarmNoted d b) :=
  (changesOnly_frameCounted d).trans (changesOnly_onLr _ _)

/-- Forwarding touches the one buffer, its drops and their event only, and takes no event back (R449). -/
theorem forward_lr (d : Device) (b : Bytes) :
    ∃ x n e, (d.forward b).lr = { d.lr with fwd := x, drops := n, evt := e } ∧ (bitOf d.lr.evt 0 = true → bitOf e 0 = true) := by
  by_cases hs : d.lr.sending = true
  · cases hf : d.lr.fwd with
    | none => exact ⟨_, _, _, by rw [forward_of_empty hs hf]; rfl, id⟩
    | some x => exact ⟨_, _, _, by rw [forward_of_full hs hf]; rfl, by simp [bitOf]⟩
  · refine ⟨d.lr.fwd, d.lr.drops, _, ?_, id⟩
    rw [forward_of_idle (by simpa using hs)]
    exact (changesOnly_pinOut d _ .lr (by decide)).trans rfl

theorem changesOnly_forward (d : Device) (b : Bytes) : changesOnly [.lr, .out] d (d.forward b) := by
  unfold Device.forward
  refine changesOnly.ite _ ((changesOnly_pinOut d _).mono (by decide)) ?_
  split <;> exact (changesOnly_onLr d _).mono (by decide)

/-- Settles O58: the alarm is recorded, then forwarded, which keeps every register of the ring but the buffer, its drops and their event. -/
theorem alarmFramesAreRecordedOnly : Obligations.AlarmFramesAreRecordedOnly := by
  intro f s h h0 h1
  have hd : s.dev.ringRx f.bytes = (alarmNoted s.dev f.bytes).forward (frameHop f.bytes) := by
    rw [ringRx_of_forwarded h (by simp [h0]), frameActed_of_alarm h0 h1]
  have frame : changesOnly [.lr, .out] s.dev ((alarmNoted s.dev f.bytes).forward (frameHop f.bytes)) :=
    ((changesOnly_alarmNoted s.dev f.bytes).then (changesOnly_forward _ _)).mono (by decide)
  obtain ⟨e, k⟩ := run_of_changesOnly (c := s.dev.onRing && u8 f.bytes 0 == 1) (by simp [h.1, h0]) (by decide) frame
  obtain ⟨e', -⟩ := run_of_changesOnly h.1 (by decide) frame
  obtain ⟨x, n, v, hl, hv⟩ := forward_lr (alarmNoted s.dev f.bytes) (frameHop f.bytes)
  refine ⟨_, (congrArg (run s _) hd).trans e, (congrArg (run s _) hd).trans e', ?_, congrArg Ring.alarmSrc hl, congrArg Ring.alarmLevel hl,
    (congrArg Ring.alarmActive hl).trans rfl, (congrArg Ring.own hl).trans rfl, frame .fc (by decide), fun hs => ?_, k⟩
  · have he : ((alarmNoted s.dev f.bytes).forward (frameHop f.bytes)).lr.evt = v := congrArg Ring.evt hl
    exact he ▸ hv (by simp [alarmNoted, Device.onLr, bitOf])
  · rw [forward_of_idle (by exact hs)]
    exact changesOnly_pinOut _ _ .lr (by decide)

end Sys2Proof.Safety
end

section
/-! EvidenceIndexLoadsItsRecord (R381), and UserFlashAndScrub (R364, R366, R367, R370, R378, R382, R403) clause by clause. -/

namespace Sys2Proof.Safety

open Sys2Proof.Machine

/-! ### The index of the evidence log (R381) -/

theorem evlIndex_of_stored {d : Device} {v : Nat} {e : Evidence} (h : Map.get? d.nv.evl (v % 2 ^ 14) = some e) :
    d.evlIndex v = { d with nv := { d.nv with evIndex := v % 2 ^ 14, evData := (List.range 16).map fun j => u32 e.bytes (4 * j) } } := by
  have hf : field v 0 14 = v % 2 ^ 14 := by simp [field]
  simp only [Device.evlIndex, hf, h]

/-- Settles O56: the write of the index loads the line of its record. -/
theorem evidenceIndexLoadsItsRecord : Obligations.EvidenceIndexLoadsItsRecord := by
  intro v e s h hr
  obtain ⟨x, k⟩ := run_of_changesOnly (c := true) rfl (by decide) (changesOnly_nv s.dev
    { s.dev.nv with evIndex := v.toNat % 2 ^ 14, evData := (List.range 16).map fun j => u32 e.bytes (4 * j) })
  exact ⟨_, (congrArg (run s true) ((hostDo_of_hostOpen h _).trans (evlIndex_of_stored hr))).trans x, rfl, rfl, rfl, k⟩

/-! ### What an event of the NV controller leaves (R51, R384) -/

@[simp] theorem nvEvt_nv (d : Device) (bits : Nat) : (d.nvEvt bits).nv = { d.nv with evt := d.nv.evt ||| bits } :=
  changesOnly_when (d := { d with nv := { d.nv with evt := d.nv.evt ||| bits } }) (changesOnly_hingeMsi _ _) .nv (by decide)

@[simp] theorem nvEvt_fc (d : Device) (bits : Nat) : (d.nvEvt bits).fc = d.fc := changesOnly_nvEvt d bits .fc (by decide)

/-! ### User flash (R378, R382) -/

theorem exec_ufRead (s : State) (h : hostOpen s) : ∃ t, exec (.ufRead false) s = .next t ∧
    t.dev.nv = { s.dev.nv with ufUe := false, ufBusy := 0,
                               ufBuf := (List.range 16).map fun j => u32 (s.dev.perm.flash.readN (64 * s.dev.nv.ufLine) 64) (4 * j) } ∧
    keepsRest [.nv] s t := by
  obtain ⟨e, k⟩ := run_of_changesOnly (s := s) (c := true) rfl (by decide) (changesOnly_nv s.dev _)
  exact ⟨_, (congrArg (run s true) (hostDo_of_hostOpen h _)).trans e, rfl, k⟩

/-- The buffer and its flag after a read of a line that cannot be corrected: free words (R382). -/
def ufLost (d : Device) : Device :=
  { (d.draw 64).2 with nv := { d.nv with ufUe := true, ufBusy := 0, ue := satAdd 16 d.nv.ue 1,
                                         ufBuf := (List.range 16).map fun j => u32 (d.draw 64).1 (4 * j) } }

theorem ufRead_of_ue (d : Device) : d.ufRead true = ((ufLost d).raiseSrc 1282).nvEvt 0x10 := rfl

theorem changesOnly_ufLost (d : Device) : changesOnly [.fresh, .nv] d (ufLost d) := (changesOnly_draw d 64).then (changesOnly_nv _ _)

theorem exec_ufRead_lost (s : State) (h : hostOpen s) : ∃ t, exec (.ufRead true) s = .next t ∧ t.dev.nv.ufUe = true ∧ t.dev.nv.ufBusy = 0 ∧
    t.dev.nv.evt = s.dev.nv.evt ||| 0x10 ∧ t.dev.nv.ue = min (s.dev.nv.ue + 1) 65535 ∧ raisedIn s t 1282 ∧
    keepsRest [.nv, .fc, .ul, .out, .fresh] s t := by
  obtain ⟨e, k⟩ := run_of_changesOnly (s := s) (c := true) rfl (by decide)
    ((((changesOnly_ufLost s.dev).then (changesOnly_raiseSrc _ 1282)).then (changesOnly_nvEvt _ 0x10)).mono
      (qs := [.nv, .fc, .ul, .out, .fresh]) (by decide))
  have hnv := nvEvt_nv ((ufLost s.dev).raiseSrc 1282) 0x10
  have hfc := nvEvt_fc ((ufLost s.dev).raiseSrc 1282) 0x10
  exact ⟨_, (congrArg (run s true) ((hostDo_of_hostOpen h _).trans (ufRead_of_ue _))).trans e, congrArg Nv.ufUe hnv, congrArg Nv.ufBusy hnv,
    congrArg Nv.evt hnv, congrArg Nv.ue hnv, hfc, k⟩

/-- The buffer stands in its line, the host is told (R382). -/
def flashWritten (d : Device) : Device :=
  { d with nv := { d.nv with ufBusy := 0 }, perm := { d.perm with flash := d.perm.flash.writeN (64 * d.nv.ufLine) d.nv.ufBytes } }

theorem ufWrite_of_verified (d : Device) : d.ufWrite false = flashWritten d := rfl

theorem changesOnly_flashWritten (d : Device) : changesOnly [.perm, .nv] d (flashWritten d) :=
  ((changesOnly_nv d { d.nv with ufBusy := 0 }).then
    (changesOnly_perm _ { d.perm with flash := d.perm.flash.writeN (64 * d.nv.ufLine) d.nv.ufBytes })).mono (by decide)

theorem exec_ufWrite (s : State) (hw : Inv s) (h : hostOpen s) (hb : s.dev.nv.ufBusy ≠ 2) (hi : s.dev.nv.inhibit = false) : ∃ t,
    exec (.ufWrite false) s = .next t ∧
    t.dev.perm = { s.dev.perm with flash := s.dev.perm.flash.writeN (64 * s.dev.nv.ufLine) s.dev.nv.ufBytes } ∧
    (∀ i, i < s.dev.nv.ufBytes.length → t.dev.perm.flash.read (64 * s.dev.nv.ufLine + i) = nth s.dev.nv.ufBytes i 0) ∧
    (∀ a, a < 64 * s.dev.nv.ufLine ∨ 64 * s.dev.nv.ufLine + s.dev.nv.ufBytes.length ≤ a →
      t.dev.perm.flash.read a = s.dev.perm.flash.read a) ∧ t.dev.nv = { s.dev.nv with ufBusy := 0 } ∧ keepsRest [.perm, .nv] s t := by
  have e : exec (.ufWrite false) s = .next { s with dev := flashWritten s.dev } := by
    simp only [exec, execUfWrite]
    rw [if_neg hb, hostDo_of_hostOpen h, if_neg (by simp [hi]), ufWrite_of_verified]
    rfl
  exact ⟨_, e, rfl, fun i hl => read_writeN_inside hw hl, fun a ha => Mem.read_writeN_of_outside _ _ _ _ ha, rfl, rfl,
    changesOnly_flashWritten s.dev⟩

theorem exec_ufWrite_waits (s : State) (h : hostOpen s) (hb : s.dev.nv.ufBusy ≠ 2) (hi : s.dev.nv.inhibit = true) : ∃ t,
    exec (.ufWrite false) s = .next t ∧ t.dev.nv = { s.dev.nv with ufBusy := 2 } ∧ keepsRest [.nv] s t := by
  have e : exec (.ufWrite false) s = .next { s with dev := { s.dev with nv := { s.dev.nv with ufBusy := 2 } } } := by
    simp only [exec, execUfWrite]
    rw [if_neg hb, hostDo_of_hostOpen h, if_pos hi]
    rfl
  exact ⟨_, e, rfl, rfl, changesOnly_nv s.dev _⟩

theorem exec_ufWrite_goesOn (s : State) (hb : s.dev.nv.ufBusy = 2) (hi : s.dev.nv.inhibit = false) (hs : s.dev.shackled = false) : ∃ t,
    exec (.ufWrite false) s = .next t ∧
    t.dev.perm = { s.dev.perm with flash := s.dev.perm.flash.writeN (64 * s.dev.nv.ufLine) s.dev.nv.ufBytes } ∧
    t.dev.nv = { s.dev.nv with ufBusy := 0 } ∧ keepsRest [.perm, .nv] s t := by
  have e : exec (.ufWrite false) s = .next { s with dev := flashWritten s.dev } := by
    simp only [exec, execUfWrite]
    rw [if_pos hb, hi, hs]
    rfl
  exact ⟨_, e, rfl, rfl, rfl, changesOnly_flashWritten s.dev⟩

/-! ### The MRAM scrub (R364, R366, R378, R403) -/

theorem scrubNext_of_lt {d : Device} (h : d.nv.scrubLine < 65535) : d.scrubNext = { d with nv := { d.nv with scrubLine := d.nv.scrubLine + 1 } } :=
  if_neg (by omega)

/-- The pass has ended with its last group (R378, R384). -/
def scrubEnded (d : Device) : Device :=
  { d with nv := { d.nv with scrubActive := false, scrubLine := 0, scrubPasses := satAdd 16 d.nv.scrubPasses 1 } }

theorem scrubNext_of_le {d : Device} (h : 65535 ≤ d.nv.scrubLine) : d.scrubNext = (scrubEnded d).nvEvt 1 := if_pos h

section
variable {s : State} (ha : s.dev.nv.scrubActive = true) (hi : s.dev.nv.inhibit = false) (hp : s.dev.power.applied < 3)
include ha hi hp

/-- A scrub group outside stage 3 answers by what it and the pass make of the device. -/
theorem run_scrub {ps : List Part} (hps : Part.perm ∉ ps) {r : EccResult} {line : Nat} {f : Bool} {d : Device}
    (hd : (s.dev.scrubGroup r line f).scrubNext = d) (k : changesOnly ps s.dev d) :
    exec (.mramScrubGroup r line f) s = .next { s with dev := d } ∧ keepsRest ps s { s with dev := d } := by
  obtain ⟨e, k⟩ := run_of_changesOnly (c := s.dev.nv.scrubActive && !s.dev.nv.inhibit && decide (s.dev.power.applied < 3))
    (by simp [ha, hi, hp]) hps k
  exact ⟨(congrArg (run s _) hd).trans e, k⟩

/-- Before the last group the pass takes one step after what the group did, which left its place in the pass. -/
theorem run_scrub_group {ps : List Part} (hps : Part.perm ∉ ps) (hnv : Part.nv ∈ ps) {r : EccResult} {line : Nat} {f : Bool} {d : Device}
    (hl : s.dev.nv.scrubLine < 65535) (hd : s.dev.scrubGroup r line f = d) (hn : d.nv.scrubLine = s.dev.nv.scrubLine)
    (k : changesOnly ps s.dev d) :
    ∃ t, exec (.mramScrubGroup r line f) s = .next t ∧ t.dev = { d with nv := { d.nv with scrubLine := s.dev.nv.scrubLine + 1 } } ∧
      keepsRest ps s t := by
  have next : d.scrubNext = { d with nv := { d.nv with scrubLine := s.dev.nv.scrubLine + 1 } } := by rw [scrubNext_of_lt (hn ▸ hl), hn]
  obtain ⟨e, k⟩ := run_scrub ha hi hp hps ((congrArg Device.scrubNext hd).trans next)
    (k.trans ((changesOnly_nv d _).mono (by simpa using hnv)))
  exact ⟨_, e, rfl, k⟩

end

theorem exec_mramScrubGroup_clean (line : Nat) (f : Bool) (s : State) (ha : s.dev.nv.scrubActive = true) (hi : s.dev.nv.inhibit = false)
    (hp : s.dev.power.applied < 3) (hl : s.dev.nv.scrubLine < 65535) : ∃ t, exec (.mramScrubGroup .clean line f) s = .next t ∧
      t.dev.nv = { s.dev.nv with scrubLine := s.dev.nv.scrubLine + 1 } ∧ keepsRest [.nv] s t := by
  obtain ⟨t, e, hd, k⟩ := run_scrub_group (ps := [.nv]) (r := .clean) (line := line) (f := f) ha hi hp (by decide) (by decide) hl rfl rfl
    (changesOnly.refl _ _)
  exact ⟨t, e, congrArg Device.nv hd, k⟩

theorem exec_mramScrubGroup_last (line : Nat) (f : Bool) (s : State) (ha : s.dev.nv.scrubActive = true) (hi : s.dev.nv.inhibit = false)
    (hp : s.dev.power.applied < 3) (hl : 65535 ≤ s.dev.nv.scrubLine) : ∃ t, exec (.mramScrubGroup .clean line f) s = .next t ∧
      t.dev.nv.scrubActive = false ∧ t.dev.nv.scrubLine = 0 ∧ t.dev.nv.scrubPasses = min (s.dev.nv.scrubPasses + 1) 65535 ∧
      t.dev.nv.evt = s.dev.nv.evt ||| 1 ∧ keepsRest [.nv, .ul, .out] s t := by
  obtain ⟨e, k⟩ := run_scrub (r := .clean) (line := line) (f := f) ha hi hp (by decide) (scrubNext_of_le (by exact hl))
    (((changesOnly_nv s.dev _).then (changesOnly_nvEvt (scrubEnded s.dev) 1)).mono (qs := [.nv, .ul, .out]) (by decide))
  have hnv := nvEvt_nv (scrubEnded s.dev) 1
  exact ⟨_, e, congrArg Nv.scrubActive hnv, congrArg Nv.scrubLine hnv, congrArg Nv.scrubPasses hnv, congrArg Nv.evt hnv, k⟩

theorem exec_mramScrubGroup_corrected (line : Nat) (s : State) (ha : s.dev.nv.scrubActive = true) (hi : s.dev.nv.inhibit = false)
    (hp : s.dev.power.applied < 3) (hl : s.dev.nv.scrubLine < 65535) : ∃ t, exec (.mramScrubGroup .corrected line false) s = .next t ∧
      t.dev.nv = { s.dev.nv with scrubLine := s.dev.nv.scrubLine + 1, ce := min (s.dev.nv.ce + 1) 65535 } ∧ raisedIn s t 1280 ∧
      keepsRest [.nv, .fc] s t := by
  obtain ⟨t, e, hd, k⟩ := run_scrub_group (r := .corrected) (line := line) (f := false) ha hi hp (by decide) (by decide) hl rfl rfl
    ((changesOnly_nv s.dev { s.dev.nv with ce := satAdd 16 s.dev.nv.ce 1 }).then (changesOnly_raiseSrc _ 1280))
  exact ⟨t, e, congrArg Device.nv hd, congrArg Device.fc hd, k⟩

/-- The owner of a line that no code can correct loses it: firmware or microcode images, a calibration record, the certificate (R378, R427). -/
theorem changesOnly_lostLine (d : Device) (line : Nat) : changesOnly [.mc, .ca, .kw] d (d.lostLine line) := by
  have mc (x) : changesOnly [.mc, .ca, .kw] d { d with mc := x } := (changesOnly_mc d x).mono (by decide)
  have ca (x) : changesOnly [.mc, .ca, .kw] d { d with ca := x } := (changesOnly_ca d x).mono (by decide)
  have kw (x) : changesOnly [.mc, .ca, .kw] d { d with kw := x } := (changesOnly_kw d x).mono (by decide)
  unfold Device.lostLine
  dsimp only
  exact .ite _ (mc _) (.ite _ (mc _) (.ite _ (mc _) (.ite _ (mc _) (.ite _ (ca _) (.ite _ (ca _) (.ite _ (kw _) (.refl _ _)))))))

/-- A line of the overlay region loses its record (R427). -/
theorem lostLine_ca_of_overlay (d : Device) {line : Nat} (h : 0x640000 ≤ 64 * line) (h' : 64 * line < 0x680000) :
    (d.lostLine line).ca = d.ca.loseLine true (line - 0x19000) := by
  rw [Device.lostLine]
  rw [if_neg (by omega), if_neg (by omega), if_neg (by omega), if_neg (by omega), if_neg (by omega), if_pos h',
    show (64 * line - 0x640000) / 64 = line - 0x19000 by omega]

/-- A line that neither code can correct is counted and raised (R378). -/
def lineUe (d : Device) : Device := (({ d with nv := { d.nv with ue := satAdd 16 d.nv.ue 1 } } : Device).raiseSrc 1282).nvEvt 0x10

theorem scrubGroup_of_lost {d : Device} {line : Nat} (h : ownLine line = false) (f : Bool) :
    d.scrubGroup .uncorrectable line f = (lineUe d).lostLine line := if_neg (by simp [h])

theorem changesOnly_lineUe (d : Device) : changesOnly [.nv, .fc, .ul, .out] d (lineUe d) :=
  (((changesOnly_nv d { d.nv with ue := satAdd 16 d.nv.ue 1 }).then (changesOnly_raiseSrc _ 1282)).then (changesOnly_nvEvt _ 0x10)).mono
    (by decide)

theorem lineUe_nv (d : Device) : (lineUe d).nv = { d.nv with ue := satAdd 16 d.nv.ue 1, evt := d.nv.evt ||| 0x10 } := nvEvt_nv _ _

theorem lineUe_fc (d : Device) : (lineUe d).fc = { d.fc with incoming := d.fc.incoming ++ [{ source := 1282 }] } := nvEvt_fc _ _

theorem exec_mramScrubGroup_uncorrectable (line : Nat) (f : Bool) (s : State) (ha : s.dev.nv.scrubActive = true)
    (hi : s.dev.nv.inhibit = false) (hp : s.dev.power.applied < 3) (hl : s.dev.nv.scrubLine < 65535) (ho : ownLine line = false) : ∃ t,
      exec (.mramScrubGroup .uncorrectable line f) s = .next t ∧ t.dev.nv.ue = min (s.dev.nv.ue + 1) 65535 ∧
      t.dev.nv.evt = s.dev.nv.evt ||| 0x10 ∧ raisedIn s t 1282 ∧
      (0x640000 ≤ 64 * line → 64 * line < 0x680000 → t.dev.ca = s.dev.ca.loseLine true (line - 0x19000)) ∧
      keepsRest [.nv, .fc, .mc, .ca, .kw, .ul, .out] s t := by
  have lost := changesOnly_lostLine (lineUe s.dev) line
  have hnv : ((lineUe s.dev).lostLine line).nv = _ := (lost .nv (by decide)).trans (lineUe_nv _)
  obtain ⟨t, e, hd, k⟩ := run_scrub_group ha hi hp (by decide) (by decide) hl (scrubGroup_of_lost ho f) ((congrArg Nv.scrubLine hnv).trans rfl)
    (((changesOnly_lineUe s.dev).then lost).mono (qs := [.nv, .fc, .mc, .ca, .kw, .ul, .out]) (by decide))
  have hnv' : t.dev.nv = { ((lineUe s.dev).lostLine line).nv with scrubLine := s.dev.nv.scrubLine + 1 } := congrArg Device.nv hd
  refine ⟨t, e, ?_, ?_, ?_, fun h h' => ?_, k⟩
  · rw [hnv', hnv]
    rfl
  · rw [hnv', hnv]
  · exact (congrArg Device.fc hd).trans ((lost .fc (by decide)).trans (lineUe_fc _))
  · exact (congrArg Device.ca hd).trans ((lostLine_ca_of_overlay _ h h').trans
      (congrArg (Cal.loseLine · true (line - 0x19000)) (changesOnly_lineUe s.dev .ca (by decide))))

/-- A line that the outer code corrected is counted and raised before its relocation (R365, R366). -/
def lineRs (d : Device) : Device := ({ d with nv := { d.nv with rs := satAdd 16 d.nv.rs 1 } } : Device).raiseSrc 1281

/-- A line has moved to a free remap entry (R367). -/
def lineMoved (d : Device) : Device :=
  (({ d with nv := { d.nv with relocs := d.nv.relocs + 1 } } : Device).raiseSrc 1285).nvEvt 0x20

theorem relocate_of_lt {d : Device} (h : d.nv.relocs < 16384) : d.relocate = (lineMoved d, true) := if_pos h

theorem changesOnly_lineMoved (d : Device) : changesOnly [.nv, .fc, .ul, .out] d (lineMoved d) :=
  (((changesOnly_nv d { d.nv with relocs := d.nv.relocs + 1 }).then (changesOnly_raiseSrc _ 1285)).then (changesOnly_nvEvt _ 0x20)).mono
    (by decide)

theorem lineMoved_nv (d : Device) : (lineMoved d).nv = { d.nv with relocs := d.nv.relocs + 1, evt := d.nv.evt ||| 0x20 } := nvEvt_nv _ _

theorem lineMoved_fc (d : Device) : (lineMoved d).fc = { d.fc with incoming := d.fc.incoming ++ [{ source := 1285 }] } := nvEvt_fc _ _

theorem exec_mramScrubGroup_outerCorrected (line : Nat) (f : Bool) (s : State) (ha : s.dev.nv.scrubActive = true)
    (hi : s.dev.nv.inhibit = false) (hp : s.dev.power.applied < 3) (hl : s.dev.nv.scrubLine < 65535) (hr : s.dev.nv.relocs < 16384) : ∃ t,
      exec (.mramScrubGroup .outerCorrected line f) s = .next t ∧ t.dev.nv.rs = min (s.dev.nv.rs + 1) 65535 ∧
      t.dev.nv.relocs = s.dev.nv.relocs + 1 ∧ t.dev.nv.evt = s.dev.nv.evt ||| 0x20 ∧
      t.dev.fc = { s.dev.fc with incoming := s.dev.fc.incoming ++ [{ source := 1281 }, { source := 1285 }] } ∧
      keepsRest [.nv, .fc, .ul, .out] s t := by
  have hd : s.dev.scrubGroup .outerCorrected line f = lineMoved (lineRs s.dev) := congrArg Prod.fst (relocate_of_lt (by exact hr))
  have hnv := lineMoved_nv (lineRs s.dev)
  have hfc := lineMoved_fc (lineRs s.dev)
  obtain ⟨t, e, hd, k⟩ := run_scrub_group ha hi hp (by decide) (by decide) hl hd ((congrArg Nv.scrubLine hnv).trans rfl)
    ((((changesOnly_nv s.dev { s.dev.nv with rs := satAdd 16 s.dev.nv.rs 1 }).then (changesOnly_raiseSrc _ 1281)).then
      (changesOnly_lineMoved _)).mono (qs := [.nv, .fc, .ul, .out]) (by decide))
  have hnv' : t.dev.nv = { (lineMoved (lineRs s.dev)).nv with scrubLine := s.dev.nv.scrubLine + 1 } := congrArg Device.nv hd
  refine ⟨t, e, ?_, ?_, ?_, ?_, k⟩
  · rw [hnv', hnv]
    rfl
  · rw [hnv', hnv]
    rfl
  · rw [hnv', hnv]
    rfl
  · refine (congrArg Device.fc hd).trans (hfc.trans ?_)
    simp [lineRs, Device.raiseSrc]

theorem exec_mramScrubGroup_paused (r : EccResult) (line : Nat) (f : Bool) (s : State) (h : 3 ≤ s.dev.power.applied) :
    exec (.mramScrubGroup r line f) s = .fault .cannotOccur := by
  have can : (s.dev.nv.scrubActive && !s.dev.nv.inhibit && decide (s.dev.power.applied < 3)) = false := by simp [Nat.not_lt.2 h]
  exact (congrArg (run s · _) can).trans (run_false s _)

/-! ### A lost calibration line (R427) -/

theorem eq_nil_of_get?_eq_none {α : Type} {m : Map α} (h : ∀ n, Map.get? m n = none) : m = [] := by
  cases m with
  | nil => rfl
  | cons x r => simpa [Map.get?] using h x.1

theorem loseLine_of_none (line : Nat) (c : Cal) (h : ∀ n, Map.get? c.lines n = none) :
    (c.loseLine true line).overlay = Map.erase c.overlay (line / 2) ∧ (c.loseLine true line).overlayBad = true := by
  simp [Cal.loseLine, Cal.copyOf, eq_nil_of_get?_eq_none h, Map.get?, Map.erase]

/-- Settles O57, clause by clause: reads and writes of the buffer, the groups of a pass by what they find, and a lost calibration line. -/
theorem userFlashAndScrub : Obligations.UserFlashAndScrub :=
  ⟨exec_ufRead, exec_ufRead_lost, exec_ufWrite, exec_ufWrite_waits, exec_ufWrite_goesOn, exec_mramScrubGroup_clean, exec_mramScrubGroup_last,
    exec_mramScrubGroup_corrected, exec_mramScrubGroup_uncorrectable, exec_mramScrubGroup_outerCorrected, exec_mramScrubGroup_paused,
    loseLine_of_none⟩

end Sys2Proof.Safety
end

section
/-! ChipResetLosesVolatileStateOnly (R353, R370, R443, R453), and AlwaysOnIslandFollowsItsSupplies (R420 to R422) clause by clause. -/

namespace Sys2Proof.Safety

open Sys2Proof.Machine

/-! ### What a CHIP reset leaves (R353) -/

/-- The power block after a CHIP reset, but for the thermal limits that calibration loads (R353, R430). -/
def resetPower (p : Power) : Power :=
  let p1 : Power := { off := p.off, core := p.core, sram := p.sram, ucie := p.ucie, io := p.io, vbatOk := p.vbatOk, vbat := p.vbat, mv := p.mv,
                      sensed := p.sensed, applied := p.sensed, thermal := if p.thermal = 4 then 4 else 0, rstN := p.rstN }
  { p1 with boot := b2n p1.released }

theorem settleCommit_power (d : Device) : d.settleCommit.power = d.power := changesOnly_settleCommit d .power (by decide)

theorem chipReset_power (d : Device) (c : ResetCause) : ∃ w k, (d.chipReset c).power = { resetPower d.power with warn := w, crit := k } := by
  have cutoffs (e : Device) : e.loadCutoffs.power = e.power := changesOnly_loadCutoffs e .power (by decide)
  rw [Device.chipReset, cutoffs, ← settleCommit_power d]
  exact ⟨_, _, rfl⟩

/-- With RST_N low the device stays in reset (R409, R443). -/
theorem resetPower_boot_of_low {p : Power} (h : p.rstN = false) : (resetPower p).boot = 0 := by simp [resetPower, Power.released, h, b2n]

@[simp] theorem loadCutoffs_ns_state (d : Device) : d.loadCutoffs.ns.state = d.ns.state := by
  unfold Device.loadCutoffs
  split <;> rfl

@[simp] theorem chipReset_ns_state (d : Device) (c : ResetCause) : (d.chipReset c).ns.state = .starting := loadCutoffs_ns_state _

@[simp] theorem chipReset_beat (d : Device) (c : ResetCause) : (d.chipReset c).sc.beat = 0 := congrArg Sched.beat (changesOnly_calibrated _ .sc (by decide))

@[simp] theorem chipReset_passOpen (d : Device) (c : ResetCause) : (d.chipReset c).lr.passOpen = false :=
  congrArg Ring.passOpen (changesOnly_calibrated _ .lr (by decide))

@[simp] theorem chipReset_gens (d : Device) (c : ResetCause) : (d.chipReset c).nv.gens = d.settleCommit.nv.gens := by
  have h : (d.chipReset c).nv = d.settleCommit.nv.reset (d.settleCommit.power.mv < 685) := changesOnly_calibrated _ .nv (by decide)
  rw [h, Nv.reset]

@[simp] theorem chipReset_vault (d : Device) (c : ResetCause) : (d.chipReset c).vault = d.vault :=
  (changesOnly_calibrated _ .vault (by decide)).trans (changesOnly_settleCommit d .vault (by decide))

@[simp] theorem chipReset_jt (d : Device) (c : ResetCause) : (d.chipReset c).jt = d.jt :=
  (changesOnly_calibrated _ .jt (by decide)).trans (changesOnly_settleCommit d .jt (by decide))

@[simp] theorem chipReset_out (d : Device) (c : ResetCause) : (d.chipReset c).out = d.out :=
  (changesOnly_calibrated _ .out (by decide)).trans (changesOnly_settleCommit d .out (by decide))

theorem exec_chipReset (cause : ResetCause) (s : State) (h : s.dev.power.off = false) : ∃ t, exec (.chipReset cause) s = .next t ∧
    t.pending = s.pending ∧ t.dev.leaves = [] ∧ t.dev.turns = [] ∧ t.dev.sc.beat = 0 ∧ t.dev.ns.state = .starting ∧ t.dev.lr.passOpen = false ∧
    t.dev.fc.cause = resetCode cause ∧ t.dev.fc.sticky = s.dev.fc.sticky ∧ t.dev.fc.shackled = s.dev.fc.shackled ∧
    t.dev.hs.rights = s.dev.hs.rights ∧ t.dev.nv.cuts = s.dev.settleCommit.nv.cuts ∧ t.dev.nv.gens = s.dev.settleCommit.nv.gens ∧
    t.dev.perm = s.dev.perm ∧ t.dev.vault = s.dev.vault ∧ t.dev.aon = s.dev.aon ∧ t.dev.jt = s.dev.jt ∧ t.dev.out = s.dev.out := by
  have may : (!s.dev.power.off) = true := by simp [h]
  have fc := chipReset_fc s.dev cause
  exact ⟨_, congrArg (run s · (s.dev.chipReset cause)) may, rfl, chipReset_leaves _ _, chipReset_turns _ _, chipReset_beat _ _,
    chipReset_ns_state _ _, chipReset_passOpen _ _, congrArg Collector.cause fc, (congrArg Collector.sticky fc).trans rfl,
    (congrArg Collector.shackled fc).trans rfl, chipReset_rights _ _, chipReset_cuts _ _, chipReset_gens _ _, rfl, chipReset_vault _ _,
    chipReset_aon _ _, chipReset_jt _ _, chipReset_out _ _⟩

/-! ### RST_N (R443) -/

/-- RST_N has gone low. -/
def rstNLow (d : Device) : Device := { d with power := { d.power with rstN := false } }

/-- A commit sees of the power block the voltage alone (R370). -/
theorem settleCommit_nv_rstNLow (d : Device) : (rstNLow d).settleCommit.nv = d.settleCommit.nv := by
  have applied (e : Device) (v : CommitVal) : ((rstNLow e).applyCommit v).nv = (e.applyCommit v).nv := by cases v <;> rfl
  unfold Device.settleCommit Device.commitNow
  show (match d.nv.current with
    | some c => if 685 ≤ d.power.mv then (if d.lowers c.val then rstNLow d else (rstNLow d).applyCommit c.val) else rstNLow d
    | none => rstNLow d).nv = _
  cases d.nv.current with
  | none => rfl
  | some c =>
    dsimp only
    split
    · split
      · rfl
      · exact applied d c.val
    · rfl

theorem rstAssert_of_on {d : Device} (h : d.power.off = false) : d.rstAssert = (rstNLow d).chipReset .rstN := if_neg (by simp [h])

theorem rstAssert_of_off {d : Device} (h : d.power.off = true) : d.rstAssert = rstNLow d := if_pos h

theorem exec_rstNAssert (s : State) (hr : s.dev.power.rstN = true) (h : s.dev.power.off = false) : ∃ t, exec .rstNAssert s = .next t ∧
    t.pending = s.pending ∧ t.dev.power.rstN = false ∧ t.dev.power.boot = 0 ∧ t.dev.leaves = [] ∧ t.dev.turns = [] ∧ t.dev.lr.passOpen = false ∧
    t.dev.fc.cause = 1 ∧ t.dev.fc.sticky = s.dev.fc.sticky ∧ t.dev.hs.rights = s.dev.hs.rights ∧
    t.dev.nv.cuts = s.dev.settleCommit.nv.cuts ∧ t.dev.perm = s.dev.perm ∧ t.dev.vault = s.dev.vault ∧ t.dev.aon = s.dev.aon := by
  have e : exec .rstNAssert s = run s true ((rstNLow s.dev).chipReset .rstN) := by rw [← rstAssert_of_on h, ← hr]; rfl
  have fc := chipReset_fc (rstNLow s.dev) .rstN
  obtain ⟨_, _, power⟩ := chipReset_power (rstNLow s.dev) .rstN
  exact ⟨_, e, rfl, congrArg Power.rstN power, (congrArg Power.boot power).trans (resetPower_boot_of_low rfl), chipReset_leaves _ _,
    chipReset_turns _ _, chipReset_passOpen _ _, congrArg Collector.cause fc, (congrArg Collector.sticky fc).trans rfl, chipReset_rights _ _,
    (chipReset_cuts _ _).trans (congrArg Nv.cuts (settleCommit_nv_rstNLow s.dev)), rfl, chipReset_vault _ _, chipReset_aon _ _⟩

theorem exec_rstNAssert_off (s : State) (hr : s.dev.power.rstN = true) (h : s.dev.power.off = true) : ∃ t, exec .rstNAssert s = .next t ∧
    t.dev.power.rstN = false ∧ keepsRest [.power] s t := by
  obtain ⟨e, k⟩ := run_of_changesOnly hr (by decide) (changesOnly_power s.dev { s.dev.power with rstN := false })
  exact ⟨_, (congrArg (run s s.dev.power.rstN) (rstAssert_of_off h)).trans e, rfl, k⟩

/-- Settles O11: a CHIP reset, and RST_N with VDD_CORE present and without. -/
theorem chipResetLosesVolatileStateOnly : Obligations.ChipResetLosesVolatileStateOnly := ⟨exec_chipReset, exec_rstNAssert, exec_rstNAssert_off⟩

/-! ### The always-on island (R420 to R422) -/

theorem mem_insertNew {α : Type} [DecidableEq α] (l : List α) (x : α) : x ∈ insertNew l x := by
  unfold insertNew
  split
  · assumption
  · simp

theorem exec_aonPowerUp (vbat : Bool) (s : State) (h : s.dev.aon.dead = true) : ∃ t, exec (.aonPowerUp vbat) s = .next t ∧ t.dev.aon.por = true ∧
    t.dev.aon.rtc = 0 ∧ t.dev.aon.share = [] ∧ t.dev.aon.dead = false ∧ t.dev.aon.onBackup = vbat ∧ 1435 ∈ t.dev.aon.owed ∧
    t.dev.tp.srcs = tamperDefaults ∧ t.dev.tp.sticky = 0 ∧ keepsRest [.aon, .tp, .power] s t := by
  have frame : changesOnly [.aon, .tp, .power] s.dev (s.dev.aonUp vbat) :=
    ((changesOnly_aon s.dev { tamperIn := s.dev.aon.tamperIn, onBackup := vbat, backupSeen := vbat }).then
      (changesOnly_tp _ { lock := s.dev.tp.lock })).then (changesOnly_power _ _)
  obtain ⟨e, k⟩ := run_of_changesOnly h (by decide) frame
  exact ⟨_, e, rfl, rfl, rfl, rfl, rfl, by simp [Device.aonUp], rfl, rfl, k⟩

/-- Leaving stage 4's reset VDD_IO stays lost; the island's state is that before (R417, R421). -/
theorem stage4_io (d : Device) : d.stage4.power.io = d.power.io := by
  obtain ⟨_, _, h⟩ := chipReset_power d .stage4
  exact (congrArg Power.io h).trans rfl

@[simp] theorem stage4_aon (d : Device) : d.stage4.aon = d.aon := chipReset_aon d .stage4

@[simp] theorem stage4_leaves (d : Device) : d.stage4.leaves = [] := chipReset_leaves d .stage4

@[simp] theorem stage4_turns (d : Device) : d.stage4.turns = [] := chipReset_turns d .stage4

@[simp] theorem stage4_cause (d : Device) : d.stage4.fc.cause = 3 := congrArg Collector.cause (chipReset_fc d .stage4)

/-- VDD_IO has left good. -/
def ioOff (d : Device) : Device := { d with power := { d.power with io := false } }

/-- What the loss of VDD_IO does before the island moves: stage 4 in a device that runs (R409, R417). -/
def ioDown (d : Device) : Device := if d.power.io && !d.power.off then (ioOff d).stage4 else ioOff d

theorem handover_eq (d : Device) : d.handover = (ioDown d).onVbat := rfl

theorem ioDown_of_on {d : Device} (hi : d.power.io = true) (ho : d.power.off = false) : ioDown d = (ioOff d).stage4 := if_pos (by simp [hi, ho])

theorem ioDown_of_no_io {d : Device} (hi : d.power.io = false) : ioDown d = ioOff d := if_neg (by simp [hi])

theorem ioDown_aon (d : Device) : (ioDown d).aon = d.aon := by
  unfold ioDown
  split
  · exact stage4_aon (ioOff d)
  · rfl

theorem ioDown_io (d : Device) : (ioDown d).power.io = false := by
  unfold ioDown
  split
  · exact stage4_io (ioOff d)
  · rfl

theorem exec_handoverToVbat (s : State) (hv : s.dev.power.vbat = true) (hb : s.dev.aon.onBackup = false) (hd : s.dev.aon.dead = false) : ∃ t,
    exec .handoverToVbat s = .next t ∧ t.pending = s.pending ∧ t.dev.aon.onBackup = true ∧ t.dev.aon.backupSeen = true ∧ 1430 ∈ t.dev.aon.owed ∧
    t.dev.power.io = false ∧ t.dev.aon.rtc = s.dev.aon.rtc ∧ t.dev.aon.share = s.dev.aon.share ∧ t.dev.perm = s.dev.perm ∧
    (s.dev.power.io = true → s.dev.power.off = false → t.dev.leaves = [] ∧ t.dev.turns = [] ∧ t.dev.fc.cause = 3) ∧
    (s.dev.power.io = false → keepsRest [.power, .aon] s t) := by
  have may : (s.dev.power.vbat && !s.dev.aon.onBackup && !s.dev.aon.dead) = true := by simp [hv, hb, hd]
  refine ⟨_, congrArg (run s · s.dev.handover) may, rfl, rfl, rfl, mem_insertNew _ _, ioDown_io s.dev, (congrArg Aon.rtc (ioDown_aon s.dev) :),
    (congrArg Aon.share (ioDown_aon s.dev) :), rfl, fun hi ho => ?_, fun hi => ⟨rfl, ?_⟩⟩
  · rw [handover_eq, ioDown_of_on hi ho]
    exact ⟨stage4_leaves _, stage4_turns _, stage4_cause _⟩
  · rw [handover_eq, ioDown_of_no_io hi]
    exact (changesOnly_power s.dev { s.dev.power with io := false }).then (changesOnly_onVbat _)

theorem leaveReset_io (d : Device) : d.leaveReset.power.io = d.power.io := by
  unfold Device.leaveReset
  split <;> rfl

/-- The island runs on VDD_IO again (R421). -/
def ioBack (d : Device) : Device := { d with aon := { d.aon with onBackup := false }, power := { d.power with io := true } }

theorem changesOnly_ioBack (d : Device) : changesOnly [.power, .aon] d (ioBack d) :=
  ((changesOnly_aon d { d.aon with onBackup := false }).then (changesOnly_power _ _)).mono (by decide)

theorem exec_handbackToVddIo (s : State) (h : s.dev.aon.onBackup = true) : ∃ t, exec .handbackToVddIo s = .next t ∧ t.dev.aon.onBackup = false ∧
    t.dev.power.io = true ∧ t.dev.aon.rtc = s.dev.aon.rtc ∧ keepsRest [.power, .aon] s t := by
  have left := changesOnly_leaveReset (ioBack s.dev)
  have aon : (ioBack s.dev).leaveReset.aon = (ioBack s.dev).aon := left .aon (by decide)
  obtain ⟨e, k⟩ := run_of_changesOnly h (by decide) (((changesOnly_ioBack s.dev).then left).mono (qs := [.power, .aon]) (by decide))
  exact ⟨_, e, congrArg Aon.onBackup aon, leaveReset_io _, (congrArg Aon.rtc aon).trans rfl, k⟩

theorem exec_vbatLow (s : State) (hv : s.dev.power.vbatOk = true) (hd : s.dev.aon.dead = false) : ∃ t, exec .vbatLow s = .next t ∧
    t.dev.power.vbatOk = false ∧ t.dev.aon.vbatLow = true ∧ 1434 ∈ t.dev.aon.owed ∧ keepsRest [.power, .aon] s t := by
  obtain ⟨e, k⟩ := run_of_changesOnly (c := s.dev.power.vbatOk && !s.dev.aon.dead) (by simp [hv, hd]) (by decide)
    ((changesOnly_power s.dev { s.dev.power with vbatOk := false }).then
      (changesOnly_aon _ { s.dev.aon with vbatLow := true, owed := insertNew s.dev.aon.owed 1434 }))
  exact ⟨_, e, rfl, rfl, mem_insertNew _ _, k⟩

theorem exec_aonRetentionLoss (s : State) (hd : s.dev.aon.dead = false) : ∃ t, exec .aonRetentionLoss s = .next t ∧ t.pending = s.pending ∧
    t.dev.aon.dead = true ∧ t.dev.aon.share = [] ∧ t.dev.aon.rtc = 0 ∧ t.dev.tp.srcs = tamperDefaults ∧ t.dev.fc.sticky = 0 ∧
    t.dev.fc.shackled = false ∧ t.dev.kw.valid = false ∧ t.dev.perm = s.dev.perm :=
  ⟨_, congrArg (run s · s.dev.retentionLoss) (show (!s.dev.aon.dead) = true by simp [hd]), rfl, rfl, rfl, rfl, rfl, rfl, rfl, rfl, rfl⟩

/-- Settles O13, clause by clause: the first supply, the two moves, a low VBAT, and the loss of every supply. -/
theorem alwaysOnIslandFollowsItsSupplies : Obligations.AlwaysOnIslandFollowsItsSupplies :=
  ⟨exec_aonPowerUp, exec_handoverToVbat, exec_handbackToVddIo, exec_vbatLow, exec_aonRetentionLoss⟩

end Sys2Proof.Safety
end

section
/-! StagesFollowSupplyAndTemperature (R409, R411, R412, R417 to R419) clause by clause. -/

namespace Sys2Proof.Safety

open Sys2Proof.Machine

/-! ### What the operations on supplies leave of the power block -/

theorem leaveReset_power (d : Device) : ∃ b, d.leaveReset.power = { d.power with boot := b } := by
  unfold Device.leaveReset
  split
  · exact ⟨_, rfl⟩
  · exact ⟨d.power.boot, rfl⟩

theorem stage4_power (d : Device) : ∃ w k, d.stage4.power = { resetPower d.power with warn := w, crit := k, boot := 0 } := by
  obtain ⟨w, k, h⟩ := chipReset_power d .stage4
  exact ⟨w, k, congrArg (fun p : Power => { p with boot := 0 }) h⟩

/-- The stages passed on a rise are counted, and change nothing else of the power block (R412). -/
theorem passed_power (ks : List Nat) (f : Nat → List Nat → List Nat) (d : Device) :
    ∃ c, (ks.foldl (fun d k => ({ d with power := { d.power with stageCnt := f k d.power.stageCnt } } : Device).raiseSrc (1424 + k)) d).power =
      { d.power with stageCnt := c } := by
  induction ks generalizing d with
  | nil => exact ⟨d.power.stageCnt, rfl⟩
  | cons k r ih => exact ih _

/-- Outside a wipe the applied stage is the higher of the two, at most 3; of the rest only counts and events change (R412). -/
theorem restage_power {d : Device} (h : d.hs.trans = none) : ∃ c v, d.restage.power =
    { d.power with applied := min 3 (max d.power.sensed d.power.thermal), lifeHold := false, stageCnt := c, evt := v } := by
  have free : d.wiping = false := by simp [Device.wiping, h]
  unfold Device.restage
  simp only [free, Bool.false_and, Bool.false_eq_true, if_false, Device.when_false]
  split
  · exact ⟨d.power.stageCnt, _, powerEvt_power _ _⟩
  · rw [powerEvt_power]
    obtain ⟨c, hc⟩ := passed_power ((List.range 3).filter fun k => d.power.applied < k + 1 ∧ k + 1 ≤ min 3 (max d.power.sensed d.power.thermal))
      (fun k l => modifyAt l k fun c => satAdd 16 c 1)
      { d with power := { d.power with applied := min 3 (max d.power.sensed d.power.thermal), lifeHold := false } }
    exact ⟨c, _, by simp only [Bool.decide_and] at hc; rw [hc]⟩

/-! ### VDD_CORE (R411, R417) -/

/-- VDD_CORE has settled: the sensed stage is known, and MRAM writes are inhibited below 0.685 V (R370, R411). -/
def coreSensed (d : Device) (mv : Nat) : Device :=
  { d with power := { d.power with mv := mv, sensed := sensedAt d.power.sensed mv, core := sensedAt d.power.sensed mv != 4 },
           nv := { d.nv with inhibit := mv < 685 } }

theorem changesOnly_coreSensed (d : Device) (mv : Nat) : changesOnly [.power, .nv] d (coreSensed d mv) :=
  (changesOnly_power d { d.power with mv := mv, sensed := sensedAt d.power.sensed mv, core := sensedAt d.power.sensed mv != 4 }).then
    (changesOnly_nv _ _)

theorem vcore_of_running {d : Device} {mv : Nat} (hb : d.power.boot ≠ 0) (ho : d.power.sensed ≠ 4) (hn : sensedAt d.power.sensed mv ≠ 4) :
    d.vcore mv = (coreSensed d mv).restage := by
  rw [Device.vcore, if_neg (by simp [hn]), if_neg (by simp [ho]), if_neg hb]
  rfl

/-- The sensed stage applies in a device that is held in reset (R411). -/
def coreApplied (d : Device) (mv : Nat) : Device :=
  { coreSensed d mv with power := { (coreSensed d mv).power with applied := sensedAt d.power.sensed mv } }

theorem vcore_of_left {d : Device} {mv : Nat} (ho : d.power.sensed = 4) (hn : sensedAt d.power.sensed mv ≠ 4) :
    d.vcore mv = (coreApplied d mv).leaveReset := by
  rw [Device.vcore, if_neg (by simp [hn]), if_pos ⟨ho, hn⟩]
  rfl

theorem vcore_of_in_reset {d : Device} {mv : Nat} (hb : d.power.boot = 0) (ho : d.power.sensed ≠ 4) (hn : sensedAt d.power.sensed mv ≠ 4) :
    d.vcore mv = coreApplied d mv := by
  rw [Device.vcore, if_neg (by simp [hn]), if_neg (by simp [ho]), if_pos hb]
  rfl

/-- Below 0.685 V the sensed stage is 4 (R411). -/
theorem sensedAt_of_lt (old : Nat) {mv : Nat} (h : mv < 685) : sensedAt old mv = 4 := by simp [sensedAt, stageBelow, h]

/-- The commit under way is cut where VDD_CORE falls to stage 4 (R374, R417). -/
theorem vcore_of_stage4 {d : Device} {mv : Nat} (ho : d.power.sensed ≠ 4) (hn : sensedAt d.power.sensed mv = 4) :
    ∃ e cycle, changesOnly [.fresh] (coreSensed d mv) e ∧ d.vcore mv = (e.cutCommit cycle).stage4 :=
  ⟨_, _, changesOnly_draw (coreSensed d mv) 2, by rw [Device.vcore, if_pos ⟨hn, ho⟩]; rfl⟩

theorem run_on {s : State} (h : s.dev.power.off = false) (d : Device) :
    run s (!s.dev.power.off) d = .next { s with dev := { d with perm := s.dev.perm } } := by rw [h]; rfl

theorem exec_vcoreStageChange (mv : Nat) (s : State) (h : s.dev.power.off = false) (hb : s.dev.power.boot ≠ 0) (ho : s.dev.power.sensed ≠ 4)
    (hn : sensedAt s.dev.power.sensed mv ≠ 4) (ht : s.dev.hs.trans = none) : ∃ t, exec (.vcoreStageChange mv) s = .next t ∧
      t.dev.power.mv = mv ∧ t.dev.power.sensed = sensedAt s.dev.power.sensed mv ∧
      t.dev.power.applied = min 3 (max (sensedAt s.dev.power.sensed mv) s.dev.power.thermal) ∧ t.dev.nv.inhibit = decide (mv < 685) ∧
      keepsRest [.power, .nv, .fc, .ul, .out] s t := by
  have staged := (keepsRaised_restage (coreSensed s.dev mv)).rest
  obtain ⟨c, v, power⟩ := restage_power (d := coreSensed s.dev mv) ht
  obtain ⟨e, k⟩ := run_of_changesOnly (c := !s.dev.power.off) (by simp [h]) (by decide)
    (((changesOnly_coreSensed s.dev mv).then staged).mono (qs := [.power, .nv, .fc, .ul, .out]) (by decide))
  exact ⟨_, (congrArg (run s _) (vcore_of_running hb ho hn)).trans e, congrArg Power.mv power, congrArg Power.sensed power,
    congrArg Power.applied power, congrArg Nv.inhibit (staged .nv (by decide)), k⟩

theorem exec_vcoreStageChange_4 (mv : Nat) (s : State) (h : s.dev.power.off = false) (ho : s.dev.power.sensed ≠ 4) (hm : mv < 685) : ∃ t,
    exec (.vcoreStageChange mv) s = .next t ∧ t.pending = s.pending ∧ t.dev.power.sensed = 4 ∧ t.dev.power.core = false ∧ t.dev.power.boot = 0 ∧
      t.dev.fc.cause = 3 ∧ t.dev.leaves = [] ∧ t.dev.turns = [] ∧ t.dev.perm = s.dev.perm ∧ t.dev.aon = s.dev.aon := by
  have hn := sensedAt_of_lt s.dev.power.sensed hm
  obtain ⟨e, cycle, drawn, hd⟩ := vcore_of_stage4 ho hn
  obtain ⟨w, k, power⟩ := stage4_power (e.cutCommit cycle)
  have cut := changesOnly_cutCommit e cycle
  have before : (e.cutCommit cycle).power = (coreSensed s.dev mv).power := (cut .power (by decide)).trans (drawn .power (by decide))
  rw [before] at power
  refine ⟨_, (congrArg (run s _) hd).trans (run_on h _), rfl, (congrArg Power.sensed power).trans hn, (congrArg Power.core power).trans ?_,
    congrArg Power.boot power, stage4_cause _, stage4_leaves _, stage4_turns _, rfl, ?_⟩
  · simp [resetPower, coreSensed, hn]
  · exact (stage4_aon _).trans ((cut .aon (by decide)).trans (drawn .aon (by decide)))

theorem exec_vcoreStageChange_reset (mv : Nat) (s : State) (h : s.dev.power.off = false) (hn : sensedAt s.dev.power.sensed mv ≠ 4)
    (hr : s.dev.power.sensed = 4 ∨ s.dev.power.boot = 0) : ∃ t, exec (.vcoreStageChange mv) s = .next t ∧ t.dev.power.mv = mv ∧
      t.dev.power.sensed = sensedAt s.dev.power.sensed mv ∧ t.dev.power.applied = sensedAt s.dev.power.sensed mv ∧
      keepsRest [.power, .nv] s t := by
  have applied : changesOnly [.power, .nv] s.dev (coreApplied s.dev mv) :=
    (changesOnly_coreSensed s.dev mv).trans ((changesOnly_power _ _).mono (by decide))
  have may : (!s.dev.power.off) = true := by simp [h]
  by_cases ho : s.dev.power.sensed = 4
  · obtain ⟨b, power⟩ := leaveReset_power (coreApplied s.dev mv)
    obtain ⟨e, k⟩ := run_of_changesOnly may (by decide)
      ((applied.then (changesOnly_leaveReset _)).mono (qs := [.power, .nv]) (by decide))
    exact ⟨_, (congrArg (run s _) (vcore_of_left ho hn)).trans e, congrArg Power.mv power, congrArg Power.sensed power,
      congrArg Power.applied power, k⟩
  · obtain ⟨e, k⟩ := run_of_changesOnly may (by decide) applied
    exact ⟨_, (congrArg (run s _) (vcore_of_in_reset (hr.resolve_left ho) ho hn)).trans e, rfl, rfl, rfl, k⟩

/-! ### Temperature (R417 to R419) -/

/-- The sample is taken, and the thermal stage follows it (R419). -/
def tempTaken (d : Device) (t : Int) : Device :=
  { d with power := { d.power with tempNow := t, tempMax := max d.power.tempMax t, thermal := d.power.thermalAt t } }

/-- Every thermal stage entered between two stages raises its source (R418). -/
def thermalRaised (d : Device) (old new : Nat) : Device :=
  [2, 3, 4].foldl (fun d k => if old < k ∧ k ≤ new then (d.raiseSrc (1429 + k)).when (k ≤ 3) (·.powerEvt 4) else d) d

/-- The device after the sample, before the stage is acted on. -/
def thermalTaken (d : Device) (t : Int) : Device := thermalRaised (tempTaken d t) d.power.thermal (d.power.thermalAt t)

theorem changesOnly_thermalRaised (d : Device) (old new : Nat) : changesOnly [.power, .fc, .ul, .out] d (thermalRaised d old new) :=
  changesOnly_foldl (fun d k => .ite _ (((changesOnly_raiseSrc d _).then (changesOnly_when (changesOnly_powerEvt _ 4))).mono (by decide))
    (.refl _ d)) _ d

theorem thermalRaised_power (d : Device) (old new : Nat) : ∃ v, (thermalRaised d old new).power = { d.power with evt := v } := by
  have one (d : Device) (k : Nat) :
      ∃ v, (if old < k ∧ k ≤ new then (d.raiseSrc (1429 + k)).when (k ≤ 3) (·.powerEvt 4) else d).power = { d.power with evt := v } := by
    split
    · cases decide (k ≤ 3) with
      | true => exact ⟨_, powerEvt_power _ _⟩
      | false => exact ⟨d.power.evt, rfl⟩
    · exact ⟨d.power.evt, rfl⟩
  have all (l : List Nat) (d : Device) : ∃ v, (l.foldl (fun d k =>
      if old < k ∧ k ≤ new then (d.raiseSrc (1429 + k)).when (k ≤ 3) (·.powerEvt 4) else d) d).power = { d.power with evt := v } := by
    induction l generalizing d with
    | nil => exact ⟨d.power.evt, rfl⟩
    | cons k r ih =>
      obtain ⟨v, hv⟩ := one d k
      obtain ⟨w, hw⟩ := ih (if old < k ∧ k ≤ new then (d.raiseSrc (1429 + k)).when (k ≤ 3) (·.powerEvt 4) else d)
      exact ⟨w, by rw [List.foldl_cons, hw, hv]⟩
  exact all _ d

theorem changesOnly_thermalTaken (d : Device) (t : Int) : changesOnly [.power, .fc, .ul, .out] d (thermalTaken d t) :=
  ((changesOnly_power d { d.power with tempNow := t, tempMax := max d.power.tempMax t, thermal := d.power.thermalAt t }).mono (by decide)).trans
    (changesOnly_thermalRaised _ _ _)

theorem thermalTaken_power (d : Device) (t : Int) : ∃ v, (thermalTaken d t).power =
    { d.power with tempNow := t, tempMax := max d.power.tempMax t, thermal := d.power.thermalAt t, evt := v } :=
  thermalRaised_power (tempTaken d t) _ _

theorem thermal_of_trip {d : Device} {t : Int} (ho : d.power.thermal ≠ 4) (hn : d.power.thermalAt t = 4) :
    d.thermal t = (thermalTaken d t).stage4 := if_pos ⟨hn, ho⟩

theorem thermal_of_left {d : Device} {t : Int} (ho : d.power.thermal = 4) (hn : d.power.thermalAt t ≠ 4) :
    d.thermal t = (thermalTaken d t).leaveReset := (if_neg (by simp [hn])).trans (if_pos ⟨ho, hn⟩)

theorem thermal_of_in_reset {d : Device} {t : Int} (hb : d.power.boot = 0) (ho : d.power.thermal ≠ 4) (hn : d.power.thermalAt t ≠ 4) :
    d.thermal t = thermalTaken d t := ((if_neg (by simp [hn])).trans (if_neg (by simp [ho]))).trans (if_pos hb)

theorem thermal_of_running {d : Device} {t : Int} (hb : d.power.boot ≠ 0) (ho : d.power.thermal ≠ 4) (hn : d.power.thermalAt t ≠ 4) :
    d.thermal t = (thermalTaken d t).restage := ((if_neg (by simp [hn])).trans (if_neg (by simp [ho]))).trans (if_neg hb)

/-- At 120 °C the thermal stage is 4 (R419). -/
theorem thermalAt_of_trip (p : Power) {t : Int} (h : 120 ≤ t) : p.thermalAt t = 4 := by simp [Power.thermalAt, Power.limit, h]

theorem exec_thermalSample (c : Int) (s : State) (h : s.dev.power.off = false) (hb : s.dev.power.boot ≠ 0) (ho : s.dev.power.thermal ≠ 4)
    (hn : s.dev.power.thermalAt c ≠ 4) (ht : s.dev.hs.trans = none) : ∃ t, exec (.thermalSample c) s = .next t ∧ t.dev.power.tempNow = c ∧
      t.dev.power.tempMax = max s.dev.power.tempMax c ∧ t.dev.power.thermal = s.dev.power.thermalAt c ∧
      t.dev.power.applied = min 3 (max s.dev.power.sensed (s.dev.power.thermalAt c)) ∧ keepsRest [.power, .fc, .ul, .out] s t := by
  have taken := changesOnly_thermalTaken s.dev c
  obtain ⟨v, before⟩ := thermalTaken_power s.dev c
  obtain ⟨n, w, power⟩ := restage_power (d := thermalTaken s.dev c) ((congrArg Hasp.trans (taken .hs (by decide))).trans ht)
  rw [before] at power
  obtain ⟨e, k⟩ := run_of_changesOnly (c := !s.dev.power.off) (by simp [h]) (by decide) (taken.trans (keepsRaised_restage _).rest)
  exact ⟨_, (congrArg (run s _) (thermal_of_running hb ho hn)).trans e, congrArg Power.tempNow power, congrArg Power.tempMax power,
    congrArg Power.thermal power, congrArg Power.applied power, k⟩

theorem exec_thermalSample_trip (c : Int) (s : State) (h : s.dev.power.off = false) (ho : s.dev.power.thermal ≠ 4) (hc : 120 ≤ c) : ∃ t,
    exec (.thermalSample c) s = .next t ∧ t.pending = s.pending ∧ t.dev.power.thermal = 4 ∧ t.dev.power.boot = 0 ∧ t.dev.fc.cause = 3 ∧
      t.dev.leaves = [] ∧ t.dev.turns = [] ∧ t.dev.perm = s.dev.perm := by
  have hn := thermalAt_of_trip s.dev.power hc
  obtain ⟨v, before⟩ := thermalTaken_power s.dev c
  obtain ⟨w, k, power⟩ := stage4_power (thermalTaken s.dev c)
  rw [before] at power
  exact ⟨_, (congrArg (run s _) (thermal_of_trip ho hn)).trans (run_on h _), rfl, (congrArg Power.thermal power).trans (if_pos hn),
    congrArg Power.boot power, stage4_cause _, stage4_leaves _, stage4_turns _, rfl⟩

theorem exec_thermalSample_reset (c : Int) (s : State) (h : s.dev.power.off = false) (hn : s.dev.power.thermalAt c ≠ 4)
    (hr : s.dev.power.thermal = 4 ∨ s.dev.power.boot = 0) : ∃ t, exec (.thermalSample c) s = .next t ∧ t.dev.power.tempNow = c ∧
      t.dev.power.thermal = s.dev.power.thermalAt c ∧ keepsRest [.power, .fc, .ul, .out] s t := by
  have taken := changesOnly_thermalTaken s.dev c
  obtain ⟨v, before⟩ := thermalTaken_power s.dev c
  have may : (!s.dev.power.off) = true := by simp [h]
  by_cases ho : s.dev.power.thermal = 4
  · obtain ⟨b, power⟩ := leaveReset_power (thermalTaken s.dev c)
    rw [before] at power
    obtain ⟨e, k⟩ := run_of_changesOnly may (by decide) (taken.trans ((changesOnly_leaveReset _).mono (by decide)))
    exact ⟨_, (congrArg (run s _) (thermal_of_left ho hn)).trans e, congrArg Power.tempNow power, congrArg Power.thermal power, k⟩
  · obtain ⟨e, k⟩ := run_of_changesOnly may (by decide) taken
    exact ⟨_, (congrArg (run s _) (thermal_of_in_reset (hr.resolve_left ho) ho hn)).trans e, congrArg Power.tempNow before,
      congrArg Power.thermal before, k⟩

/-! ### The other rails (R340, R409) -/

/-- A rail has left good, before the stage 4 that it means (R409). -/
def railDown (d : Device) : Rail → Device
  | .sram => (({ d with power := { d.power with sram := false } } : Device).raiseSrc 1428).powerEvt 8
  | .ucie => (({ d with power := { d.power with ucie := false } } : Device).raiseSrc 1429).powerEvt 8
  | .io => { d with power := { d.power with io := false } }

theorem railLoss_eq (d : Device) (r : Rail) : d.railLoss r = (railDown d r).stage4 := by cases r <;> rfl

theorem railDown_railGood (d : Device) (r : Rail) : (railDown d r).power.railGood r = false := by
  cases r with
  | sram => exact congrArg Power.sram (powerEvt_power _ 8)
  | ucie => exact congrArg Power.ucie (powerEvt_power _ 8)
  | io => rfl

theorem changesOnly_railDown (d : Device) (r : Rail) : changesOnly [.power, .fc, .ul, .out] d (railDown d r) := by
  cases r with
  | sram => exact changesOnly_power_raiseSrc_powerEvt d _ 1428 8
  | ucie => exact changesOnly_power_raiseSrc_powerEvt d _ 1429 8
  | io => exact (changesOnly_power d _).mono (by decide)

/-- A CHIP reset keeps each rail as it is (R353). -/
theorem stage4_railGood (d : Device) (r : Rail) : d.stage4.power.railGood r = d.power.railGood r := by
  obtain ⟨_, _, h⟩ := stage4_power d
  rw [h]
  cases r <;> rfl

/-- A rail or clock source is disarmed by `arm false` (R340). -/
theorem disarmed_by_arm (t : Tamper) {n : Nat} (h8 : 8 ≤ n) (h18 : n < 18) (hn : n < (t.arm false).srcs.length) :
    (nth (t.arm false).srcs n {}).armed = false := by
  have h : n < t.srcs.length := by simpa [Tamper.arm] using hn
  simp [nth, Tamper.arm, h, h8, h18]

theorem exec_railLoss (r : Rail) (s : State) (h : s.dev.power.off = false) (hr : s.dev.power.railGood r = true) : ∃ t,
    exec (.railLoss r) s = .next t ∧ t.pending = s.pending ∧ t.dev.power.railGood r = false ∧ t.dev.power.boot = 0 ∧ t.dev.fc.cause = 3 ∧
      t.dev.leaves = [] ∧ t.dev.turns = [] ∧ (∀ n, 8 ≤ n → n < 18 → n < t.dev.tp.srcs.length → (nth t.dev.tp.srcs n {}).armed = false) ∧
      t.dev.perm = s.dev.perm ∧ t.dev.aon = s.dev.aon := by
  have may : (!s.dev.power.off && s.dev.power.railGood r) = true := by simp [h, hr]
  have e : exec (.railLoss r) s = run s true (railDown s.dev r).stage4 := (congrArg (run s · (s.dev.railLoss r)) may).trans
    (congrArg (run s true) (railLoss_eq s.dev r))
  exact ⟨_, e, rfl, (stage4_railGood _ r).trans (railDown_railGood s.dev r), rfl, stage4_cause _, stage4_leaves _, stage4_turns _,
    fun _ h8 h18 hn => disarmed_by_arm _ h8 h18 hn, rfl, (stage4_aon _).trans (changesOnly_railDown s.dev r .aon (by decide))⟩

/-- Every rail but VDD_CORE is good (R409). -/
def railsUp (d : Device) : Device := { d with power := { d.power with sram := true, ucie := true, io := true } }

theorem exec_railsGood (s : State) (h : s.dev.power.off = false) (hc : s.dev.power.core = true) (hd : s.dev.aon.dead = false) : ∃ t,
    exec .railsGood s = .next t ∧ t.dev.power.railsGood = true ∧ (s.dev.power.boot ≠ 0 → t.dev.power.boot = s.dev.power.boot) ∧
      (s.dev.power.boot = 0 → s.dev.power.rstN = true → s.dev.power.thermal ≠ 4 → s.dev.power.sensed ≠ 4 → t.dev.power.boot = 1) ∧
      keepsRest [.power, .tp] s t := by
  obtain ⟨e, k⟩ := run_of_changesOnly (c := !s.dev.power.off && s.dev.power.core && !s.dev.aon.dead) (by simp [h, hc, hd]) (by decide)
    ((((changesOnly_power s.dev { s.dev.power with sram := true, ucie := true, io := true }).then (changesOnly_leaveReset _)).then
      (changesOnly_armMain _)).mono (qs := [.power, .tp]) (by decide))
  have good : (railsUp s.dev).power.railsGood = true := by simp [railsUp, Power.railsGood, h, hc]
  have power : (railsUp s.dev).leaveReset.armMain.power = (railsUp s.dev).leaveReset.power := armMain_power _
  have boot := leaveReset_boot (railsUp s.dev)
  obtain ⟨b, left⟩ := leaveReset_power (railsUp s.dev)
  refine ⟨_, e, ?_, fun hb => ?_, fun hb hr ht hs => ?_, k⟩
  · refine (congrArg Power.railsGood (power.trans left)).trans ?_
    exact good
  · refine (congrArg Power.boot power).trans (boot.trans (if_neg fun x => ?_))
    exact hb x.1
  · refine (congrArg Power.boot power).trans (boot.trans (if_pos ⟨hb, ?_⟩))
    exact (released_of_rstN (p := (railsUp s.dev).power) hr).2 ⟨good, ht, hs⟩

/-- Settles O15, clause by clause: VDD_CORE in a running device, into stage 4 and in reset; the same of the temperature; and the other rails. -/
theorem stagesFollowSupplyAndTemperature : Obligations.StagesFollowSupplyAndTemperature :=
  ⟨exec_vcoreStageChange, exec_vcoreStageChange_4, exec_vcoreStageChange_reset, exec_thermalSample, exec_thermalSample_trip,
    exec_thermalSample_reset, exec_railLoss, exec_railsGood⟩

end Sys2Proof.Safety
end

section
/-! SUPPORT. The maintenance interlock (R400 to R403): what an activity's work leaves of requests and tickets, and its parts of the device. -/

namespace Sys2Proof.Safety

open Sys2Proof.Machine

/-! ### Events of the microcode and the entropy block (R51) -/

@[simp] theorem mcEvt_mc (d : Device) (bits : Nat) : (d.mcEvt bits).mc = { d.mc with evt := d.mc.evt ||| bits } :=
  changesOnly_when (d := { d with mc := { d.mc with evt := d.mc.evt ||| bits } }) (changesOnly_hingeMsi _ _) .mc (by decide)

@[simp] theorem mcEvt_fc (d : Device) (bits : Nat) : (d.mcEvt bits).fc = d.fc := changesOnly_mcEvt d bits .fc (by decide)

@[simp] theorem nsEvt_ns (d : Device) (bits : Nat) : (d.nsEvt bits).ns = { d.ns with evt := d.ns.evt ||| bits } :=
  changesOnly_when (d := { d with ns := { d.ns with evt := d.ns.evt ||| bits } }) (changesOnly_hingeMsi _ _) .ns (by decide)

/-! ### The output states of the entropy block (R292, R293) -/

/-- What a change of the output state may reach: the block, the waits of turns, and what tells of it; the pins stay (R292, R293). -/
structure KeepsPins (d e : Device) : Prop where
  rest : changesOnly [.ns, .turns, .fc, .ul, .out] d e
  pins : e.ns.pins = d.ns.pins

namespace KeepsPins

theorem refl (d : Device) : KeepsPins d d := ⟨changesOnly.refl _ d, rfl⟩

section
variable {d e : Device} (h : KeepsPins d e)
include h

theorem trans {f : Device} (g : KeepsPins e f) : KeepsPins d f := ⟨h.rest.trans g.rest, g.pins.trans h.pins⟩

theorem ite {f : Device} (c : Prop) [Decidable c] (g : KeepsPins d f) : KeepsPins d (if c then e else f) := by split <;> assumption

theorem onNs (f : Entropy → Entropy) (k : (f e.ns).pins = e.ns.pins) : KeepsPins d (e.onNs f) :=
  h.trans ⟨(changesOnly_onNs e f).mono (by decide), k⟩

theorem turns (x : Map Turn) : KeepsPins d { e with turns := x } := h.trans ⟨(changesOnly_turns e x).mono (by decide), rfl⟩

theorem nsEvt (bits : Nat) : KeepsPins d (e.nsEvt bits) :=
  h.trans ⟨(changesOnly_nsEvt e bits).mono (by decide), by rw [nsEvt_ns]⟩

theorem raiseSrc (n : Nat) : KeepsPins d (e.raiseSrc n) := h.trans ⟨(changesOnly_raiseSrc e n).mono (by decide), rfl⟩

theorem outputStops : KeepsPins d e.outputStops := by
  have stopped := (h.onNs (fun n => { n.cleared with held := n.held.map fun h => (h.1, h.2.1, 0) }) rfl).turns
    (Map.mapVals e.turns fun _ t => if t.phase == .waitEntropy then { t with entropyWait := e.sc.beat } else t)
  unfold Device.outputStops Device.when
  exact (stopped.nsEvt 0x10).ite _ stopped

theorem nsGo (s : NsState) : KeepsPins d (e.nsGo s) :=
  have gone := h.onNs (fun n => { n with state := s }) rfl
  gone.outputStops.ite _ gone

theorem stopDue : KeepsPins d e.stopDue := (h.onNs _ rfl).ite _ h

theorem nsStep : KeepsPins d e.nsStep := by
  unfold Device.nsStep
  dsimp only
  refine h.ite _ (.ite ((h.nsGo _).ite _ ((h.nsGo _).raiseSrc _)) _ ?_)
  split
  · exact (((h.nsGo _).onNs _ rfl).nsEvt _).ite _ h
  · exact (((h.nsGo _).nsEvt _).raiseSrc _).ite _ h
  · exact (h.nsGo _).ite _ (((h.nsGo _).raiseSrc _).ite _ h)
  · exact (h.nsGo _).ite _ h
  · exact ((h.nsGo _).nsEvt _).ite _ h
  · exact (h.nsGo _).ite _ h
  · exact h

theorem nsEval : KeepsPins d e.nsEval := h.stopDue.nsStep.nsStep

end

end KeepsPins

/-! ### Pins that leave their channel (R284, R298, R400) -/

theorem pin_onPin {n : Entropy} {p : Nat} (h : p < n.pins.length) (f : Pin → Pin) : (n.onPin p f).pin p = f (n.pin p) := by
  simp [Entropy.pin, Entropy.onPin, nth, modifyAt, h]

/-- What a pin that leaves its channel may reach; the pins stay as many and keep their counts of failures (R284). -/
structure KeepsFails (d e : Device) : Prop where
  rest : changesOnly [.ns, .turns, .fc, .ul, .out] d e
  length : e.ns.pins.length = d.ns.pins.length
  fails (p : Nat) : (e.ns.pin p).fails = (d.ns.pin p).fails

theorem KeepsPins.keepsFails {d e : Device} (h : KeepsPins d e) : KeepsFails d e :=
  ⟨h.rest, by rw [h.pins], fun p => by rw [Entropy.pin, h.pins, Entropy.pin]⟩

theorem KeepsFails.trans {d e f : Device} (h : KeepsFails d e) (g : KeepsFails e f) : KeepsFails d f :=
  ⟨h.rest.trans g.rest, g.length.trans h.length, fun p => (g.fails p).trans (h.fails p)⟩

/-- A change of a pin that leaves its count of failures. -/
theorem keepsFails_onPin (d : Device) (p : Nat) (f : Pin → Pin) (h : ∀ x, (f x).fails = x.fails) : KeepsFails d (d.onNs fun n => n.onPin p f) := by
  refine ⟨(changesOnly_onNs d _).mono (by decide), by simp [Device.onNs, Entropy.onPin, modifyAt], fun q => ?_⟩
  by_cases hq : q < d.ns.pins.length
  · by_cases e : p = q
    · simp [Entropy.pin, Device.onNs, Entropy.onPin, nth, modifyAt, e, hq, h]
    · simp [Entropy.pin, Device.onNs, Entropy.onPin, nth, modifyAt, e]
  · simp [Entropy.pin, Device.onNs, Entropy.onPin, nth, modifyAt, hq]

theorem keepsFails_chanDown (d : Device) (c : Nat) : KeepsFails d (d.chanDown c) :=
  ((((KeepsPins.refl d).onNs (fun n => n.onChan c fun x => { x with online := false }) rfl).nsEvt _).raiseSrc _).keepsFails

theorem keepsFails_chanSwitch (d : Device) (c : Nat) : KeepsFails d (d.chanSwitch c) :=
  ((KeepsPins.refl d).onNs (fun n => n.onChan c fun x => { x with sel := !x.sel, switches := satAdd 16 x.switches 1 }) rfl).keepsFails.trans
    (keepsFails_onPin _ _ _ fun _ => rfl)

theorem keepsFails_leaveChan (d : Device) (p : Nat) : KeepsFails d (d.leaveChan p) := by
  have same := (KeepsPins.refl d).keepsFails
  unfold Device.leaveChan
  split
  · exact same
  · dsimp only
    split
    · exact same
    · split
      · exact keepsFails_chanSwitch d _
      · exact keepsFails_chanDown d _

/-- A pin leaves its channel, takes a new state, and the output state follows (R400). -/
theorem pin_left {d : Device} {p : Nat} (h : p < d.ns.pins.length) (f : Pin → Pin) :
    (((d.leaveChan p).onNs fun n => n.onPin p f).nsEval.ns.pin p) = f ((d.leaveChan p).ns.pin p) := by
  have pins := (KeepsPins.refl ((d.leaveChan p).onNs fun n => n.onPin p f)).nsEval.pins
  rw [Entropy.pin, pins]
  exact pin_onPin (n := (d.leaveChan p).ns) ((keepsFails_leaveChan d p).length ▸ h) f

theorem recalPin_pin {d : Device} {p : Nat} (h : p < d.ns.pins.length) :
    ((d.recalPin p).ns.pin p).state = .restarting ∧ ((d.recalPin p).ns.pin p).fails = (d.ns.pin p).fails := by
  have e : (d.recalPin p).ns.pin p = _ := pin_left h fun x => { x with state := .restarting, trimmed := false, startup := false, run := 0 }
  rw [e]
  exact ⟨rfl, (keepsFails_leaveChan d p).fails p⟩

theorem retirePin_pin {d : Device} {p : Nat} (h : p < d.ns.pins.length) : ((d.retirePin p).ns.pin p).state = .retired :=
  congrArg Pin.state (pin_left h fun x => { x with state := .retired, startup := false, trimmed := false })

theorem changesOnly_recalPin (d : Device) (p : Nat) : changesOnly [.ns, .turns, .fc, .ul, .out] d (d.recalPin p) :=
  ((keepsFails_leaveChan d p).rest.trans ((changesOnly_onNs _ _).mono (by decide))).trans (KeepsPins.refl _).nsEval.rest

theorem changesOnly_retirePin (d : Device) (p : Nat) : changesOnly [.ns, .turns, .fc, .ul, .out] d (d.retirePin p) :=
  ((keepsFails_leaveChan d p).rest.trans ((changesOnly_onNs _ _).mono (by decide))).trans (KeepsPins.refl _).nsEval.rest

/-! ### Requests and tickets (R402) -/

/-- What an activity's work leaves of the interlock: the queue, the tickets, who runs, and the answer to the last request (R402). -/
def booked (d : Device) : List Req × Map Ticket × List (Nat × Nat) × Nat × Nat :=
  (d.mi.queue, d.mi.tickets, d.mi.running.map fun r => (r.ticket, r.op), d.mi.cmd.status, d.mi.cmd.res)

theorem booked_of_changesOnly {ps : List Part} {d e : Device} (h : changesOnly ps d e) (hp : Part.mi ∉ ps) : booked e = booked d := by
  have k : e.mi = d.mi := h .mi hp
  rw [booked, k, booked]

theorem booked_onRunning (d : Device) (f : Req → Req) (h : ∀ r, (f r).ticket = r.ticket ∧ (f r).op = r.op) :
    booked (d.onMi fun m => { m with running := m.running.map f }) = booked d := by
  simp [booked, Device.onMi, h]

theorem booked_markEnded (d : Device) (op : Nat) (st : Status) : booked (d.markEnded op st) = booked d :=
  booked_onRunning d _ fun r => by split <;> exact ⟨rfl, rfl⟩

theorem booked_onJob (d : Device) (j : JobId) (f : Job → Job) : booked (d.onJob j f) = booked d := by cases j <;> rfl

theorem booked_begin (d : Device) (j : JobId) (x : Job) : booked (d.begin_ j x) = booked d := by cases j <;> rfl

theorem booked_failWork (d : Device) (p : Job → Bool) : booked (d.failWork p) = booked d := by
  have one (e : Device) (j : JobId) : booked (e.onJob j fun x => if p x then { x with failed := true } else x) = booked e := booked_onJob e j _
  simp only [Device.failWork, jobIds, List.foldl_cons, List.foldl_nil, one]

theorem booked_jobRead (d : Device) (j : JobId) (a n : Nat) : booked (d.jobRead j a n) = booked d := by
  unfold Device.jobRead
  exact (booked_onJob _ j _).trans (booked_of_changesOnly (changesOnly_readParts d 0 none _ _ _) (by decide))

theorem booked_retire (d : Device) (cls n : Nat) : booked (d.retire cls n) = booked d := by
  have aborted (e : EngineId) : booked (d.abortOn e) = booked d := booked_failWork (d.abortTurns _ _) _
  unfold Device.retire
  split
  · exact (booked_of_changesOnly ((changesOnly_onTu (d.abortOn (.tumbler n)) n _).then (changesOnly_raiseSrc _ _)) (by decide)).trans (aborted _)
  · exact (booked_of_changesOnly ((changesOnly_onBo (d.abortOn (.bolt n)) n _).then (changesOnly_raiseSrc _ _)) (by decide)).trans (aborted _)
  · rfl
  · rfl

/-! ### Passes (R395, R396) -/

/-- The version that a class runs after a pass. -/
def passVer (p : Pass) (d : Device) (c : Nat) : Nat := ((nth d.mc.classes c {}).ver p.toB).getD 0

/-- A class has the new bank (R396). -/
def classMoved (p : Pass) (d : Device) (c : Nat) : Device :=
  { d with mc := { d.mc with classes := modifyAt d.mc.classes c fun k => { k with bank := b2n p.toB, run := passVer p d c } } }

/-- A class takes its new bank at the end of a pass, and its counter rises (R394, R396). -/
def classSwitched (p : Pass) (d : Device) (c : Nat) : Device :=
  (classMoved p d c).when (nth d.nv.patchVer c 0 < passVer p d c) fun e => e.commit (.patchVersion c (passVer p d c)) .none

theorem changesOnly_classSwitched (p : Pass) (d : Device) (c : Nat) : changesOnly [.mc, .nv] d (classSwitched p d c) :=
  (changesOnly_mc d (classMoved p d c).mc).then (changesOnly_when (d := classMoved p d c) (changesOnly_commit _ _ _))

theorem classSwitched_pass (p : Pass) (d : Device) (c : Nat) : (classSwitched p d c).mc.pass = d.mc.pass := by
  unfold classSwitched Device.when
  split <;> rfl

/-- No pass runs any more (R396). -/
def passOver (d : Device) : Device := ({ d with mc := { d.mc with pass := none } } : Device).mcEvt 1

theorem passEnd_eq (d : Device) (p : Pass) : d.passEnd p =
    if p.revert then (passOver d).markEnded 0x01 St.engineFault else (p.classes.foldl (classSwitched p) (passOver d)).markEnded 0x01 St.done := rfl

theorem changesOnly_passOver (d : Device) : changesOnly [.mc, .ul, .out] d (passOver d) :=
  ((changesOnly_mc d { d.mc with pass := none }).then (changesOnly_mcEvt _ 1)).mono (by decide)

theorem changesOnly_switched (p : Pass) (d : Device) : changesOnly [.mc, .nv] d (p.classes.foldl (classSwitched p) d) :=
  changesOnly_foldl (changesOnly_classSwitched p) _ d

theorem changesOnly_passEnd (d : Device) (p : Pass) : changesOnly [.mc, .mi, .nv, .ul, .out] d (d.passEnd p) := by
  rw [passEnd_eq]
  exact .ite _ (((changesOnly_passOver d).then (changesOnly_markEnded _ _ _)).mono (by decide))
    ((((changesOnly_passOver d).then (changesOnly_switched p _)).then (changesOnly_markEnded _ _ _)).mono (by decide))

theorem passEnd_pass (d : Device) (p : Pass) : (d.passEnd p).mc.pass = none := by
  have ended : (passOver d).mc.pass = none := congrArg Micro.pass (mcEvt_mc _ 1)
  have switched (l : List Nat) (e : Device) : (l.foldl (classSwitched p) e).mc.pass = e.mc.pass := by
    induction l generalizing e with
    | nil => rfl
    | cons c r ih => exact (ih _).trans (classSwitched_pass p e c)
  rw [passEnd_eq]
  split
  · exact ended
  · exact (switched _ _).trans ended

theorem booked_passEnd (d : Device) (p : Pass) : booked (d.passEnd p) = booked d := by
  have ended : booked (passOver d) = booked d := booked_of_changesOnly (changesOnly_passOver d) (by decide)
  rw [passEnd_eq]
  split
  · rw [booked_markEnded, ended]
  · rw [booked_markEnded, booked_of_changesOnly (changesOnly_switched p _) (by decide), ended]

/-- A pass that goes on keeps which engines it has done (R396). -/
theorem passStep_cases (d : Device) (p : Pass) : d.passStep p = d.passEnd p ∨ ∃ q, q.done = p.done ∧ d.passStep p = { d with mc := { d.mc with pass := some q } } := by
  unfold Device.passStep
  split
  · exact .inl rfl
  · refine .inr ⟨_, ?_, rfl⟩
    rfl

theorem changesOnly_passStep (d : Device) (p : Pass) : changesOnly [.mc, .mi, .nv, .ul, .out] d (d.passStep p) := by
  obtain e | ⟨q, -, e⟩ := passStep_cases d p <;> rw [e]
  · exact changesOnly_passEnd d p
  · exact (changesOnly_mc d _).mono (by decide)

theorem booked_passStep (d : Device) (p : Pass) : booked (d.passStep p) = booked d := by
  obtain e | ⟨q, -, e⟩ := passStep_cases d p <;> rw [e]
  · exact booked_passEnd d p
  · rfl

/-! ### Every activity (R400) -/

theorem changesOnly_recalSource (d : Device) (n : Nat) : changesOnly [.tp, .ca] d (d.recalSource n) :=
  (changesOnly_tp d (d.recalSource n).tp).then (changesOnly_ca _ (d.recalSource n).ca)

theorem changesOnly_recalSources (l : List Nat) (d : Device) : changesOnly [.tp, .ca] d (l.foldl Device.recalSource d) :=
  changesOnly_foldl changesOnly_recalSource l d

/-- The work of an activity leaves the queue, the tickets, who runs, and the answer to the request (R402). -/
theorem booked_startWork (d : Device) (r : Req) : booked (d.startWork r) = booked d := by
  unfold Device.startWork
  dsimp only
  split
  · exact booked_passStep d _
  · exact (booked_markEnded _ _ _).trans (booked_retire d _ _)
  · rfl
  · refine Eq.trans ?_ (booked_of_changesOnly (changesOnly_recalPin d (nth r.args 0 0)) (by decide))
    exact booked_onRunning _ _ fun r => by split <;> exact ⟨rfl, rfl⟩
  · exact (booked_markEnded _ _ _).trans (booked_of_changesOnly (changesOnly_retirePin d _) (by decide))
  · rfl
  · rfl
  · rfl
  · exact booked_markEnded _ _ _
  · exact booked_markEnded _ _ _
  · exact (booked_jobRead _ _ _ _).trans (booked_begin _ _ _)
  · rfl
  · exact (booked_markEnded _ _ _).trans (booked_of_changesOnly (changesOnly_recalSources _ d) (by decide))
  · rfl

/-- The request stands among the running activities, under its ticket (R402). -/
def reqRunning (d : Device) (r : Req) : Device :=
  d.onMi fun m => { m with running := m.running ++ [r], tickets := Map.set m.tickets r.ticket { state := 2, op := r.op } }

theorem startReq_eq (d : Device) (r : Req) : d.startReq r = (reqRunning d r).startWork r := rfl

section
variable (d : Device) (r : Req)

theorem startReq_queue : (d.startReq r).mi.queue = d.mi.queue := (congrArg Prod.fst (booked_startWork (reqRunning d r) r) :)

theorem startReq_ticket : Map.get? (d.startReq r).mi.tickets r.ticket = some { state := 2, op := r.op } := by
  have k : (d.startReq r).mi.tickets = (reqRunning d r).mi.tickets := (congrArg (·.2.1) (booked_startWork (reqRunning d r) r) :)
  rw [k]
  exact Map.get?_set_self _ _ _

theorem startReq_cmd : (d.startReq r).mi.cmd.status = d.mi.cmd.status ∧ (d.startReq r).mi.cmd.res = d.mi.cmd.res :=
  ⟨(congrArg (·.2.2.2.1) (booked_startWork (reqRunning d r) r) :), (congrArg (·.2.2.2.2) (booked_startWork (reqRunning d r) r) :)⟩

theorem startReq_running : ∃ x ∈ (d.startReq r).mi.running, x.ticket = r.ticket ∧ x.op = r.op := by
  have k : (d.startReq r).mi.running.map (fun x => (x.ticket, x.op)) = (d.mi.running ++ [r]).map fun x => (x.ticket, x.op) :=
    (congrArg (·.2.2.1) (booked_startWork (reqRunning d r) r) :)
  have mem : (r.ticket, r.op) ∈ (d.startReq r).mi.running.map fun x => (x.ticket, x.op) := by rw [k]; simp
  obtain ⟨x, hx, e⟩ := List.mem_map.1 mem
  exact ⟨x, hx, congrArg Prod.fst e, congrArg Prod.snd e⟩

end

/-! ### An activity ends (R402) -/

theorem changesOnly_ticketDone (d : Device) (t : Nat) (st : Status) : changesOnly [.mi, .ul, .out] d (d.ticketDone t st) :=
  (changesOnly_onMi d _).then (changesOnly_when (changesOnly_hingeMsi _ _))

/-- The ticket is finished, and its MI_DONE bit is set (R402). -/
def ticketed (d : Device) (t : Nat) (st : Status) : Device :=
  d.onMi fun m => { m with tickets := Map.modify m.tickets t fun x => { x with state := 3, status := st.toNat },
                           done := m.done ||| 2 ^ t, evt := m.evt ||| 1 }

theorem ticketDone_mi (d : Device) (t : Nat) (st : Status) : (d.ticketDone t st).mi =
    { d.mi with tickets := Map.modify d.mi.tickets t fun x => { x with state := 3, status := st.toNat }, done := d.mi.done ||| 2 ^ t,
                evt := d.mi.evt ||| 1 } :=
  changesOnly_when (d := ticketed d t st) (changesOnly_hingeMsi _ _) .mi (by decide)

theorem changesOnly_endReq (d : Device) (r : Req) (st : Status) : changesOnly [.mi, .ul, .out] d (d.endReq r st) :=
  ((changesOnly_onMi d _).then (changesOnly_ticketDone _ _ _)).mono (by decide)

theorem endReq_mi (d : Device) (r : Req) (st : Status) : (d.endReq r st).mi =
    { d.mi with running := d.mi.running.filter fun x => x.ticket != r.ticket,
                tickets := Map.modify d.mi.tickets r.ticket fun x => { x with state := 3, status := st.toNat },
                done := d.mi.done ||| 2 ^ r.ticket, evt := d.mi.evt ||| 1 } := ticketDone_mi _ _ _

theorem endReq_ticket (d : Device) (r : Req) (st : Status) {x : Ticket} (h : Map.get? d.mi.tickets r.ticket = some x) :
    Map.get? (d.endReq r st).mi.tickets r.ticket = some { x with state := 3, status := st.toNat } := by
  rw [endReq_mi, Map.get?_modify_self, h]
  rfl

end Sys2Proof.Safety
end

section
/-! ActivitiesStartAndFinish (R338, R401, R402), and PatchesAndSwapsEnd (R394 to R396, R399, R403, R405) clause by clause. -/

namespace Sys2Proof.Safety

open Sys2Proof.Machine

/-! ### Activities (R338, R402) -/

/-- The queue is empty. -/
def unqueued (d : Device) : Device := d.onMi fun m => { m with queue := [] }

theorem startQueued_of_only {d : Device} {r : Req} (h : d.mi.queue = [r]) (hr : (unqueued d).recheck r = none) :
    d.startQueued r = (unqueued d).startReq r := by
  have taken : (d.onMi fun m => { m with queue := m.queue.filter fun x => x.ticket != r.ticket }) = unqueued d := by
    simp [unqueued, Device.onMi, h]
  rw [Device.startQueued, taken, hr]

theorem scan_of_empty {d : Device} (h : d.mi.queue = []) (n : Nat) : Device.scan n d = d := by
  cases n with
  | zero => rfl
  | succ n => rw [Device.scan, h]; rfl

/-- With one request in the queue that may start, the scan starts it and stops (R402). -/
theorem scan_of_only {d : Device} {r : Req} (h : d.mi.queue = [r]) (hc : d.canStart r.cls = true) (hr : (unqueued d).recheck r = none) (n : Nat) :
    Device.scan (n + 1) d = (unqueued d).startReq r := by
  have first : d.startable d.mi.queue = some r := by rw [h, Device.startable, if_pos hc]
  rw [Device.scan, first]
  dsimp only
  rw [startQueued_of_only h hr]
  exact scan_of_empty (startReq_queue (unqueued d) r) n

theorem exec_activityStart (r : Req) (s : State) (h : s.dev.mi.queue = [r]) (hc : s.dev.canStart r.cls = true)
    (hr : (s.dev.onMi fun m => { m with queue := [] }).recheck r = none) : ∃ t, exec .activityStart s = .next t ∧ t.pending = s.pending ∧
      t.dev.mi.queue = [] ∧ Map.get? t.dev.mi.tickets r.ticket = some { state := 2, op := r.op } := by
  have can : (s.dev.startable s.dev.mi.queue).isSome = true := by rw [h, Device.startable, if_pos hc]; rfl
  have e : exec .activityStart s = run s true ((unqueued s.dev).startReq r) :=
    (congrArg (run s · (Device.scan 8 s.dev)) can).trans (congrArg (run s true) (scan_of_only h hc hr 7))
  exact ⟨_, e, rfl, startReq_queue (unqueued s.dev) r, startReq_ticket (unqueued s.dev) r⟩

theorem exec_activityEnd (c : ActClass) (r : Req) (st : Status) (s : State) (h : s.dev.activityOver c = some (r, st)) : ∃ t,
    exec (.activityEnd c) s = .next t ∧ t.dev.mi.running = s.dev.mi.running.filter (fun x => x.ticket != r.ticket) ∧
      t.dev.mi.done = s.dev.mi.done ||| 2 ^ r.ticket ∧
      (∀ x, Map.get? s.dev.mi.tickets r.ticket = some x → Map.get? t.dev.mi.tickets r.ticket = some { x with state := 3, status := st.toNat }) ∧
      t.dev.mi.evt = s.dev.mi.evt ||| 1 ∧ keepsRest [.mi, .ul, .out] s t := by
  have ends : exec (.activityEnd c) s = run s true (s.dev.endReq r st) := by simp only [exec, execActivityEnd, h]
  obtain ⟨e, k⟩ := run_of_changesOnly (s := s) (c := true) rfl (by decide) (changesOnly_endReq s.dev r st)
  have mi := endReq_mi s.dev r st
  exact ⟨_, ends.trans e, congrArg Inter.running mi, congrArg Inter.done mi, fun _ hx => endReq_ticket s.dev r st hx, congrArg Inter.evt mi, k⟩

theorem length_draw (d : Device) (n : Nat) : (d.draw n).1.length = n := by simp [Device.draw]

theorem exec_wardKeySwitch (s : State) (hw : s.dev.tp.rekeyWanted = true) (hn : s.dev.ns.notReady = false) : ∃ t,
    exec .wardKeySwitch s = .next t ∧ t.dev.tp.wardKey.map List.length = some 16 ∧
      t.dev.tp = { s.dev.tp with rekeyWanted := false, wardKey := t.dev.tp.wardKey, rekeys := min (s.dev.tp.rekeys + 1) 65535 } ∧
      keepsRest [.tp, .fresh] s t := by
  obtain ⟨e, k⟩ := run_of_changesOnly (s := s) (c := s.dev.tp.rekeyWanted && !s.dev.ns.notReady) (by simp [hw, hn]) (by decide)
    (((changesOnly_draw s.dev 16).then (changesOnly_tp _ s.dev.newWardKey.tp)).mono (qs := [.tp, .fresh]) (by decide))
  exact ⟨_, e, congrArg some (length_draw s.dev 16), rfl, k⟩

/-- Settles O36: a request that starts, an activity that ends, and the ward key. -/
theorem activitiesStartAndFinish : Obligations.ActivitiesStartAndFinish := ⟨exec_activityStart, exec_activityEnd, exec_wardKeySwitch⟩

/-! ### The drain of an engine (R395, R403) -/

theorem changesOnly_setStopped_tumbler (d : Device) (n : Nat) (stop : Bool) : changesOnly [.tu] d (d.setStopped 0 n stop) :=
  changesOnly_onTu_clean d n _ fun _ => rfl

theorem exec_engineDrainStop_of_pass {s : State} {p : Pass} (h : s.dev.mc.pass = some p) :
    exec .engineDrainStop s = run s (p.drain && p.step == 0 && s.dev.drained p && decide (s.dev.power.applied < 3))
      { s.dev.setStopped p.cls p.engine true with mc := { s.dev.mc with pass := some { p with drain := false, step := 1 } } } := by
  simp only [exec, execEngineDrainStop, h]

theorem exec_engineDrainStop (n : Nat) (p : Pass) (s : State) (h : s.dev.mc.pass = some p) (hd : p.drain = true) (h0 : p.step = 0)
    (hc : p.cls = 0) (he : p.engine = n) (hn : n < s.dev.tu.length) (hdr : s.dev.drained p = true) (ha : s.dev.power.applied < 3) : ∃ t,
    exec .engineDrainStop s = .next t ∧ (t.dev.tumbler n).stopped = true ∧ (t.dev.tumbler n).inService = false ∧
      t.dev.mc = { s.dev.mc with pass := some { p with drain := false, step := 1 } } ∧ keepsRest [.tu, .mc] s t := by
  obtain ⟨e, k⟩ := run_of_changesOnly (s := s) (c := p.drain && p.step == 0 && s.dev.drained p && decide (s.dev.power.applied < 3))
    (by simp [hd, h0, hdr, ha]) (by decide)
    ((changesOnly_setStopped_tumbler s.dev n true).then (changesOnly_mc _ { s.dev.mc with pass := some { p with drain := false, step := 1 } }))
  have engine := tumbler_onTu hn fun e : Engine => { e with stopped := true, inService := !true }
  have e' := exec_engineDrainStop_of_pass h
  rw [show s.dev.setStopped p.cls p.engine true = s.dev.setStopped 0 n true by rw [hc, he]] at e'
  exact ⟨_, e'.trans e, congrArg Engine.stopped engine, congrArg Engine.inService engine, rfl, k⟩

theorem exec_engineDrainStop_paused (s : State) (h : 3 ≤ s.dev.power.applied) : exec .engineDrainStop s = .fault .cannotOccur := by
  cases hp : s.dev.mc.pass with
  | none => simp only [exec, execEngineDrainStop, hp, run_false]
  | some p => rw [exec_engineDrainStop_of_pass hp, decide_eq_false (by omega), Bool.and_false, run_false]

/-! ### The deadline of a drain (R395) -/

theorem onJob_of_unmoved {d : Device} {j : JobId} {f : Job → Job} (h : ∀ x, d.job j = some x → f x = x) : d.onJob j f = d := by
  have same (o : Option Job) (k : ∀ x, o = some x → f x = x) : o.map f = o := by
    cases o with
    | none => rfl
    | some x => exact congrArg some (k x rfl)
  cases j with
  | hinge => rw [Device.onJob, same d.hg.cmd.job h]
  | keyway => rw [Device.onJob, same d.kw.cmd.job h]
  | hasp => rw [Device.onJob, same d.hs.cmd.job h]
  | interlock => rw [Device.onJob, same d.mi.cmd.job h]

/-- Where no hinge work is of the kind, none loses its working state (R65). -/
theorem failWork_of_none {d : Device} {p : Job → Bool} (h : d.jobs.any p = false) : d.failWork p = d := by
  have free (j : JobId) : d.onJob j (fun x => if p x then { x with failed := true } else x) = d := by
    refine onJob_of_unmoved fun x hx => if_neg fun hp => ?_
    have mem : x ∈ d.jobs := List.mem_filterMap.2 ⟨j, by cases j <;> simp [jobIds], hx⟩
    simp only [List.any_eq_false] at h
    exact h x mem hp
  simp only [Device.failWork, jobIds, List.foldl_cons, List.foldl_nil, free]

theorem changesOnly_drainAbort (d : Device) (p : Pass) : changesOnly [.turns, .hg, .kw, .hs, .mi] d (d.drainAbort p) :=
  (changesOnly_turns d _).then (changesOnly_failWork _ _)

theorem changesOnly_drainAbort_of_no_job {d : Device} {p : Pass} (h : d.jobOn p.cls p.engine = false) : changesOnly [.turns] d (d.drainAbort p) := by
  have alone : d.drainAbort p = d.abortTurns St.engineReset fun t => t.startedOn p.cls p.engine := failWork_of_none h
  rw [alone]
  exact changesOnly_turns d _

/-- The drain is late: its pass keeps that, and source 1471 is raised (R395). -/
def drainLate (d : Device) (p : Pass) : Device :=
  ({ d.drainAbort p with mc := { d.mc with pass := some { p with late := true } } } : Device).raiseSrc 1471

theorem changesOnly_drainLate {ps : List Part} {d : Device} {p : Pass} (h : changesOnly ps d (d.drainAbort p)) :
    changesOnly (ps ++ [.mc] ++ [.fc]) d (drainLate d p) :=
  (h.then (changesOnly_mc _ _)).then (changesOnly_raiseSrc _ 1471)

theorem exec_patchDrainDeadline (p : Pass) (s : State) (h : s.dev.mc.pass = some p) (hd : p.drain = true) (h0 : p.step = 0)
    (hl : p.late = false) (hm : met s.dev.sc.beat p.deadline = true) (hdr : s.dev.drained p = false)
    (hp : (s.dev.engineOf p.cls p.engine).parked = false) : ∃ t, exec .patchDrainDeadline s = .next t ∧
      t.dev.mc = { s.dev.mc with pass := some { p with late := true } } ∧ raisedIn s t 1471 ∧
      (∀ slot x, Map.get? s.dev.turns slot = some x → x.ending = none → x.startedOn p.cls p.engine = true →
        Map.get? t.dev.turns slot = some (x.setDue St.engineReset)) ∧ keepsRest [.mc, .turns, .fc, .hg, .kw, .hs, .mi] s t ∧
      (s.dev.jobOn p.cls p.engine = false → keepsRest [.mc, .turns, .fc] s t) := by
  have can : (p.drain && p.step == 0 && !p.late && met s.dev.sc.beat p.deadline && !s.dev.drained p &&
    !(s.dev.engineOf p.cls p.engine).parked) = true := by simp [hd, h0, hl, hm, hdr, hp]
  have late : exec .patchDrainDeadline s = run s true (drainLate s.dev p) := by
    simp only [exec, execPatchDrainDeadline, h, can]
    rfl
  have abort := changesOnly_drainAbort s.dev p
  have frame := (changesOnly_drainLate abort).mono (qs := [.mc, .turns, .fc, .hg, .kw, .hs, .mi]) (by decide)
  obtain ⟨e, k⟩ := run_of_changesOnly (s := s) (c := true) rfl (by decide) frame
  refine ⟨_, late.trans e, rfl, ?_, fun slot x hx hx' hst => ?_, k, fun hj => ⟨rfl, ?_⟩⟩
  · have fc : (s.dev.drainAbort p).fc = s.dev.fc := abort .fc (by decide)
    exact congrArg (fun c : Collector => ({ c with incoming := c.incoming ++ [{ source := 1471 }] } : Collector)) fc
  · have turns : (s.dev.drainAbort p).turns = (s.dev.abortTurns St.engineReset fun t => t.startedOn p.cls p.engine).turns :=
      changesOnly_failWork _ _ .turns (by decide)
    exact (congrArg (Map.get? · slot) turns).trans (turn_abortTurns (p := fun t => t.startedOn p.cls p.engine) hx hst hx' St.engineReset)
  · exact (changesOnly_drainLate (changesOnly_drainAbort_of_no_job hj)).mono (by decide)

/-! ### The self-test of a patched engine (R395, R396) -/

theorem exec_engineSelftestEnd_of_pass {s : State} {p : Pass} (h : s.dev.mc.pass = some p) (h1 : p.step = 1) (ok : Bool) :
    exec (.engineSelftestEnd ok) s = run s true (s.dev.selftestEnd p ok) := by
  simp only [exec, execEngineSelftestEnd, h, h1, beq_self_eq_true]

/-- A patched tumbler takes strokes again, from its new section (R395). -/
def tumblerBack (d : Device) (n : Nat) (toB : Bool) : Device := (d.setStopped 0 n false).setSect 0 n (some toB)

theorem changesOnly_tumblerBack (d : Device) (n : Nat) (toB : Bool) : changesOnly [.tu] d (tumblerBack d n toB) :=
  (changesOnly_setStopped_tumbler d n false).trans (changesOnly_onTu_clean _ n _ fun _ => rfl)

theorem tumblerBack_tumbler {d : Device} {n : Nat} (h : n < d.tu.length) (toB : Bool) :
    (tumblerBack d n toB).tumbler n = { d.tumbler n with stopped := false, inService := true, sect := some toB } := by
  have h' : n < (d.setStopped 0 n false).tu.length := (tu_length_onTu d n _).symm ▸ h
  exact (tumbler_onTu h' _).trans (congrArg (fun e : Engine => { e with sect := some toB }) (tumbler_onTu h _))

/-- A command that leaves the tumblers leaves each of them, but for what waits to be zeroised. -/
theorem kept_tumbler_of_changesOnly {ps : List Part} {d e : Device} (h : changesOnly ps d e) (hp : Part.tu ∉ ps) (n : Nat) :
    kept (e.tumbler n) = kept (d.tumbler n) := by
  have at_ (x : Device) : kept (x.tumbler n) = nth (x.tu.map kept) n (kept {}) := by
    simp only [Device.tumbler, nth, List.getD_eq_getElem?_getD, List.getElem?_map]
    cases x.tu[n]? <;> rfl
  rw [at_, at_, show e.tu.map kept = d.tu.map kept from h .tu hp]

theorem exec_engineSelftestEnd (n : Nat) (p : Pass) (s : State) (h : s.dev.mc.pass = some p) (h1 : p.step = 1) (hc : p.cls = 0)
    (he : p.engine = n) (hn : n < s.dev.tu.length) (hr : p.revert = false) : ∃ t, exec (.engineSelftestEnd true) s = .next t ∧
      (t.dev.tumbler n).inService = true ∧ (t.dev.tumbler n).stopped = false ∧ (∀ q, t.dev.mc.pass = some q → n ∈ q.done) ∧
      keepsRest [.tu, .mc, .mi, .nv, .ul, .out] s t := by
  have hd : s.dev.selftestEnd p true = (tumblerBack s.dev n p.toB).passStep { p with done := p.done ++ [n] } := by
    simp [Device.selftestEnd, hr, hc, he, tumblerBack]
  obtain ⟨e, k⟩ := run_of_changesOnly (s := s) (c := true) rfl (by decide)
    (((changesOnly_tumblerBack s.dev n p.toB).then (changesOnly_passStep _ { p with done := p.done ++ [n] })).mono
      (qs := [.tu, .mc, .mi, .nv, .ul, .out]) (by decide))
  have engine := (kept_tumbler_of_changesOnly (changesOnly_passStep (tumblerBack s.dev n p.toB) { p with done := p.done ++ [n] }) (by decide) n).trans
    (congrArg kept (tumblerBack_tumbler hn p.toB))
  refine ⟨_, (exec_engineSelftestEnd_of_pass h h1 true).trans ((congrArg (run s true) hd).trans e), congrArg Engine.inService engine,
    congrArg Engine.stopped engine, fun q hq => ?_, k⟩
  obtain x | ⟨q', hq', x⟩ := passStep_cases (tumblerBack s.dev n p.toB) { p with done := p.done ++ [n] }
  · rw [x, passEnd_pass] at hq
    cases hq
  · rw [x] at hq
    cases hq
    rw [hq']
    simp

/-- A patched engine has failed its self-test (R396). -/
def patchFailed (d : Device) : Device := (d.raiseSrc 1461).mcEvt 8

theorem exec_engineSelftestEnd_failed (p : Pass) (s : State) (h : s.dev.mc.pass = some p) (h1 : p.step = 1) (hr : p.revert = false) : ∃ t,
    exec (.engineSelftestEnd false) s = .next t ∧ t.dev.mc.pass = some { p with revert := true, step := 1, drain := false } ∧
      t.dev.mc.evt = s.dev.mc.evt ||| 8 ∧ raisedIn s t 1461 ∧ keepsRest [.mc, .fc, .ul, .out] s t := by
  have hd : s.dev.selftestEnd p false = { patchFailed s.dev with
      mc := { (patchFailed s.dev).mc with pass := some { p with revert := true, step := 1, drain := false } } } := by
    simp [Device.selftestEnd, hr, patchFailed]
  obtain ⟨e, k⟩ := run_of_changesOnly (s := s) (c := true) rfl (by decide)
    ((((changesOnly_raiseSrc s.dev 1461).then (changesOnly_mcEvt _ 8)).then (changesOnly_mc _ _)).mono (qs := [.mc, .fc, .ul, .out]) (by decide))
  exact ⟨_, (exec_engineSelftestEnd_of_pass h h1 false).trans ((congrArg (run s true) hd).trans e), rfl,
    congrArg Micro.evt (mcEvt_mc (s.dev.raiseSrc 1461) 8), mcEvt_fc (s.dev.raiseSrc 1461) 8, k⟩

/-! ### Firmware swaps (R394, R399, R405) -/

/-- The new bank runs (R399). -/
def bankRuns (d : Device) (b : Nat) : Device :=
  ({ d with mc := { d.mc with bank := b, swapping := none, halted := false, healthy := true } } : Device).mcEvt 2

/-- The counter of firmware versions rises behind a commit (R394). -/
def verRises (d : Device) (b : Nat) : Device :=
  (bankRuns d b).when (d.nv.fwVer < (d.mc.ver (b == 1)).getD 0) fun e => e.commit (.fwVersion ((d.mc.ver (b == 1)).getD 0)) .none

theorem fwHealthy_eq (d : Device) (b : Nat) (r : Req) : d.fwHealthy b r = (verRises d b).endReq r St.done := rfl

theorem changesOnly_bankRuns (d : Device) (b : Nat) : changesOnly [.mc, .ul, .out] d (bankRuns d b) :=
  ((changesOnly_mc d { d.mc with bank := b, swapping := none, halted := false, healthy := true }).then (changesOnly_mcEvt _ 2)).mono (by decide)

theorem bankRuns_mc (d : Device) (b : Nat) : (bankRuns d b).mc =
    { d.mc with bank := b, swapping := none, halted := false, healthy := true, evt := d.mc.evt ||| 2 } := mcEvt_mc _ 2

theorem changesOnly_verRises (d : Device) (b : Nat) : changesOnly [.nv] (bankRuns d b) (verRises d b) :=
  changesOnly_when (changesOnly_commit _ _ _)

theorem verRises_queue {d : Device} {b : Nat} (h : d.nv.fwVer < (d.mc.ver (b == 1)).getD 0) :
    (verRises d b).nv.queue = d.nv.queue ++ [{ val := .fwVersion ((d.mc.ver (b == 1)).getD 0) }] := by
  have nv : (bankRuns d b).nv = d.nv := changesOnly_bankRuns d b .nv (by decide)
  rw [verRises, decide_eq_true h, Device.when_true, Device.commit_queue, nv]

theorem exec_fwHealthy (b : Nat) (r : Req) (s : State) (h : s.dev.mc.swapping = some b) (hr : s.dev.swapReq = some r) : ∃ t,
    exec .fwHealthy s = .next t ∧ t.dev.mc.bank = b ∧ t.dev.mc.swapping = none ∧ t.dev.mc.healthy = true ∧ t.dev.mc.evt = s.dev.mc.evt ||| 2 ∧
      (s.dev.nv.fwVer < (s.dev.mc.ver (b == 1)).getD 0 →
        t.dev.nv.queue = s.dev.nv.queue ++ [{ val := .fwVersion ((s.dev.mc.ver (b == 1)).getD 0) }]) ∧
      (∀ x, Map.get? s.dev.mi.tickets r.ticket = some x → Map.get? t.dev.mi.tickets r.ticket = some { x with state := 3, status := 0 }) ∧
      keepsRest [.mc, .nv, .mi, .ul, .out] s t := by
  have hd : exec .fwHealthy s = run s true ((verRises s.dev b).endReq r St.done) := by simp only [exec, execFwHealthy, h, hr, fwHealthy_eq]
  have runs := changesOnly_bankRuns s.dev b
  have rises := changesOnly_verRises s.dev b
  have ended := changesOnly_endReq (verRises s.dev b) r St.done
  obtain ⟨e, k⟩ := run_of_changesOnly (s := s) (c := true) rfl (by decide)
    (((runs.then rises).then ended).mono (qs := [.mc, .nv, .mi, .ul, .out]) (by decide))
  have mc := ((ended .mc (by decide)).trans (rises .mc (by decide))).trans (bankRuns_mc s.dev b)
  have mi : (verRises s.dev b).mi = s.dev.mi := (rises .mi (by decide)).trans (runs .mi (by decide))
  refine ⟨_, hd.trans e, congrArg Micro.bank mc, congrArg Micro.swapping mc, congrArg Micro.healthy mc, congrArg Micro.evt mc, fun hv => ?_,
    fun x hx => ?_, k⟩
  · exact (congrArg Nv.queue (ended .nv (by decide))).trans (verRises_queue hv)
  · exact endReq_ticket _ _ _ (mi ▸ hx)

/-- The old bank runs again (R399). -/
def bankStays (d : Device) : Device :=
  (({ d with mc := { d.mc with swapping := none, halted := false, healthy := true } } : Device).mcEvt 4).raiseSrc 1459

theorem fwRevert_eq (d : Device) (r : Req) : d.fwRevert r = (bankStays d).endReq r St.engineFault := rfl

theorem changesOnly_bankStays (d : Device) : changesOnly [.mc, .fc, .ul, .out] d (bankStays d) :=
  (((changesOnly_mc d { d.mc with swapping := none, halted := false, healthy := true }).then (changesOnly_mcEvt _ 4)).then
    (changesOnly_raiseSrc _ 1459)).mono (by decide)

theorem bankStays_mc (d : Device) : (bankStays d).mc =
    { d.mc with swapping := none, halted := false, healthy := true, evt := d.mc.evt ||| 4 } := mcEvt_mc _ 4

theorem bankStays_fc (d : Device) : (bankStays d).fc = { d.fc with incoming := d.fc.incoming ++ [{ source := 1459 }] } := by
  simp [bankStays, Device.raiseSrc]

theorem exec_fwSwapWatchdog (b : Nat) (r : Req) (s : State) (h : s.dev.mc.swapping = some b) (hr : s.dev.swapReq = some r) : ∃ t,
    exec .fwSwapWatchdog s = .next t ∧ t.dev.mc.bank = s.dev.mc.bank ∧ t.dev.mc.swapping = none ∧ t.dev.mc.evt = s.dev.mc.evt ||| 4 ∧
      raisedIn s t 1459 ∧ (∀ x, Map.get? s.dev.mi.tickets r.ticket = some x →
        Map.get? t.dev.mi.tickets r.ticket = some { x with state := 3, status := St.engineFault.toNat }) ∧
      keepsRest [.mc, .fc, .mi, .ul, .out] s t := by
  have hd : exec .fwSwapWatchdog s = run s true ((bankStays s.dev).endReq r St.engineFault) := by
    simp only [exec, execFwSwapWatchdog, h, hr, fwRevert_eq]
  have stays := changesOnly_bankStays s.dev
  have ended := changesOnly_endReq (bankStays s.dev) r St.engineFault
  obtain ⟨e, k⟩ := run_of_changesOnly (s := s) (c := true) rfl (by decide) ((stays.then ended).mono (qs := [.mc, .fc, .mi, .ul, .out]) (by decide))
  have mc := (ended .mc (by decide)).trans (bankStays_mc s.dev)
  have mi : (bankStays s.dev).mi = s.dev.mi := stays .mi (by decide)
  exact ⟨_, hd.trans e, (congrArg Micro.bank mc).trans rfl, congrArg Micro.swapping mc, congrArg Micro.evt mc,
    (ended .fc (by decide)).trans (bankStays_fc s.dev), fun x hx => endReq_ticket _ _ _ (mi ▸ hx), k⟩

theorem exec_mgmtWatchdogExpiry (s : State) (h : s.dev.mc.swapping = none) (hb : s.dev.power.boot = 4) (hs : s.dev.shackled = false) :
    exec .mgmtWatchdogExpiry s = .next { s with dev := s.dev.raiseSrc 1456 } := by
  have can : (s.dev.mc.swapping.isNone && s.dev.power.boot == 4 && !s.dev.shackled) = true := by simp [h, hb, hs]
  exact (congrArg (run s · (s.dev.raiseSrc 1456)) can).trans (run_keepsPerm rfl)

/-- Settles O37, clause by clause: a drained engine, a late one, both ends of its self-test, both ends of a swap, a watchdog outside one, and
stage 3. -/
theorem patchesAndSwapsEnd : Obligations.PatchesAndSwapsEnd :=
  ⟨exec_engineDrainStop, exec_patchDrainDeadline, exec_engineSelftestEnd, exec_engineSelftestEnd_failed, exec_fwHealthy, exec_fwSwapWatchdog,
    exec_mgmtWatchdogExpiry, exec_engineDrainStop_paused⟩

end Sys2Proof.Safety
end

section
/-! MaintenanceRequestsGetTickets (R400 to R403), and MaintenanceActivitiesDoTheirWork (R297, R298, R338, R373, R378, R392, R395, R397 to R400,
R430) activity by activity. -/

namespace Sys2Proof.Safety

open Sys2Proof.Machine

/-! ### Requests (R400 to R403) -/

/-- A maintenance request of the host reaches the interlock (R400). -/
theorem exec_interlockRow {e : Nat × Instr} (he : e ∈ interlockRows) {s : State} (h : hostOpen s) :
    exec e.2 s = run s true (s.dev.request e.1) := by
  have asked (op : Nat) : run s true (s.dev.hostRequest op) = run s true (s.dev.request op) :=
    congrArg (run s true) (hostDo_of_hostOpen h _)
  have image : run s true s.dev.hostImage = run s true (s.dev.request 0x22) := by
    rw [Device.hostImage, if_neg (by simp [h.2.2.1]), hostDo_of_hostOpen h]
  obtain rfl | rfl | rfl | rfl | rfl | rfl | rfl | rfl | rfl | rfl | rfl | rfl | rfl : e = (0x01, Instr.miPatch) ∨ e = (0x02, .miRetire) ∨
    e = (0x03, .miFwSwap) ∨ e = (0x10, .miPinRecal) ∨ e = (0x11, .miPinRetire) ∨ e = (0x12, .miRawCapture) ∨ e = (0x13, .miReseedAll) ∨
    e = (0x20, .miMramScrub) ∨ e = (0x21, .miWearRelocate) ∨ e = (0x22, .miImageWrite) ∨ e = (0x23, .miJournalCompact) ∨
    e = (0x30, .miWardRekey) ∨ e = (0x31, .miTamperRecal) := by simpa [interlockRows] using he
  case' inr.inr.inr.inr.inr.inr.inr.inr.inr.inl => exact image
  all_goals exact asked _

/-- The request of an opcode under a ticket, as MI_CMD gives it (R400). -/
def reqOf (d : Device) (op k : Nat) : Req := { op := op, cls := reqClass op, ticket := k, args := d.mi.cmd.args }

/-- A request that may start runs under its ticket and is answered DONE, and its work has not begun (R402). -/
def reqStarted (d : Device) (op k : Nat) : Device :=
  reqRunning ((d.onMi fun m => { m with lastTicket := k }).answer .interlock St.done k) (reqOf d op k)

/-- A request that waits behind an activity (R402). -/
def reqQueued (d : Device) (op k : Nat) : Device :=
  (d.onMi fun m => { m with lastTicket := k, queue := m.queue ++ [reqOf d op k], tickets := Map.set m.tickets k { state := 1, op := op } }).answer
    .interlock St.queued k

theorem request_of_passed {d : Device} {op : Nat} (h : d.reqCheck op d.mi.cmd.args = none) :
    d.request op = d.submit .interlock op d.mi.cmd.args 0 := by rw [Device.request, h]

theorem request_of_refused {d : Device} {op : Nat} {st : Status} (h : d.reqCheck op d.mi.cmd.args = some st) (hs : st ≠ St.rightMissing) :
    d.request op = d.answer .interlock st 0 := by
  have known : (st == St.rightMissing) = false := by simpa using hs
  rw [Device.request, h]
  dsimp only
  rw [known, Device.when_false]

theorem submit_of_free {d : Device} {k : Nat} (hk : d.mi.freeTicket = some k) (hq : d.mi.queue.length < 8) (op : Nat) (hc : Bool)
    (e : (d.canStart (reqClass op) && !d.mi.queue.any fun q => exclusive q.cls) = hc) :
    d.submit .interlock op d.mi.cmd.args 0 = if hc then (reqStarted d op k).startWork (reqOf d op k) else reqQueued d op k := by
  rw [Device.submit, hk, decide_eq_false (by omega)]
  dsimp only
  rw [e]
  rfl

/-- The request finds eight in the queue, or no ticket (R402). -/
def interlockFull (d : Device) : Device :=
  (d.onMi fun m => { m with evt := m.evt ||| 2 }).when (rises d.mi.evt 2) (·.hingeMsi 2)

theorem submit_of_full {d : Device} (hq : 8 ≤ d.mi.queue.length) (op : Nat) :
    d.submit .interlock op d.mi.cmd.args 0 = (interlockFull d).answer .interlock St.interlockFull 0 := by
  rw [Device.submit, decide_eq_true hq]
  cases d.mi.freeTicket <;> rfl

theorem changesOnly_reqRunning (d : Device) (r : Req) : changesOnly [.mi] d (reqRunning d r) := changesOnly_onMi d _

theorem changesOnly_reqStarted (d : Device) (op k : Nat) : changesOnly [.mi] d (reqStarted d op k) :=
  ((changesOnly_onMi d _).trans (changesOnly_answer _ .interlock _ _)).trans (changesOnly_reqRunning _ _)

theorem changesOnly_reqQueued (d : Device) (op k : Nat) : changesOnly [.mi] d (reqQueued d op k) :=
  (changesOnly_onMi d _).trans (changesOnly_answer _ .interlock _ _)

section
variable {e : Nat × Instr} (he : e ∈ interlockRows)
include he

theorem exec_starts {k : Nat} {s : State} (h : startsAtOnce s e.1 k) :
    exec e.2 s = run s true ((reqStarted s.dev e.1 k).startWork (reqOf s.dev e.1 k)) := by
  obtain ⟨ho, hr, hk, hq, hc, hx⟩ := h
  have both : (s.dev.canStart (reqClass e.1) && !s.dev.mi.queue.any fun q => exclusive q.cls) = true := by simp [hc, hx]
  rw [exec_interlockRow he ho, request_of_passed hr, submit_of_free hk hq e.1 true both, if_pos rfl]

theorem exec_request_starts (k : Nat) (s : State) (h : startsAtOnce s e.1 k) : ∃ t, exec e.2 s = .next t ∧ t.pending = s.pending ∧
    t.dev.mi.cmd.status = 0 ∧ t.dev.mi.cmd.res = k ∧ Map.get? t.dev.mi.tickets k = some { state := 2, op := e.1 } ∧
    (∃ r ∈ t.dev.mi.running, r.ticket = k ∧ r.op = e.1) := by
  obtain ⟨status, res⟩ := startReq_cmd ((s.dev.onMi fun m => { m with lastTicket := k }).answer .interlock St.done k) (reqOf s.dev e.1 k)
  exact ⟨_, exec_starts he h, rfl, status, res, startReq_ticket _ (reqOf s.dev e.1 k), startReq_running _ (reqOf s.dev e.1 k)⟩

theorem exec_request_waits (k : Nat) (s : State) (h : hostOpen s) (hr : s.dev.reqCheck e.1 s.dev.mi.cmd.args = none)
    (hk : s.dev.mi.freeTicket = some k) (hq : s.dev.mi.queue.length < 8) (hc : s.dev.canStart (reqClass e.1) = false) : ∃ t,
      exec e.2 s = .next t ∧ t.dev.mi.cmd.status = St.queued.toNat ∧ t.dev.mi.cmd.res = k ∧
      Map.get? t.dev.mi.tickets k = some { state := 1, op := e.1 } ∧ t.dev.mi.running = s.dev.mi.running ∧ keepsRest [.mi] s t := by
  have hd : s.dev.request e.1 = reqQueued s.dev e.1 k := by rw [request_of_passed hr, submit_of_free hk hq e.1 false (by simp [hc])]; rfl
  obtain ⟨x, k⟩ := run_of_changesOnly (s := s) (c := true) rfl (by decide) (changesOnly_reqQueued s.dev e.1 k)
  exact ⟨_, (exec_interlockRow he h).trans ((congrArg (run s true) hd).trans x), rfl, rfl, Map.get?_set_self _ _ _, rfl, k⟩

theorem exec_request_full (s : State) (h : hostOpen s) (hr : s.dev.reqCheck e.1 s.dev.mi.cmd.args = none) (hq : 8 ≤ s.dev.mi.queue.length) : ∃ t,
    exec e.2 s = .next t ∧ t.dev.mi.cmd.status = St.interlockFull.toNat ∧ t.dev.mi.evt = s.dev.mi.evt ||| 2 ∧
      t.dev.mi.queue = s.dev.mi.queue ∧ keepsRest [.mi, .ul, .out] s t := by
  have told : changesOnly [.ul, .out] (s.dev.onMi fun m => { m with evt := m.evt ||| 2 }) (interlockFull s.dev) :=
    changesOnly_when (changesOnly_hingeMsi _ _)
  have mi : (interlockFull s.dev).mi = { s.dev.mi with evt := s.dev.mi.evt ||| 2 } := told .mi (by decide)
  obtain ⟨x, k⟩ := run_of_changesOnly (s := s) (c := true) rfl (by decide)
    ((((changesOnly_onMi s.dev _).then told).then (changesOnly_answer _ .interlock St.interlockFull 0)).mono (qs := [.mi, .ul, .out]) (by decide))
  exact ⟨_, (exec_interlockRow he h).trans ((congrArg (run s true) ((request_of_passed hr).trans (submit_of_full hq e.1))).trans x), rfl,
    congrArg Inter.evt mi, (congrArg Inter.queue mi).trans rfl, k⟩

theorem exec_request_refused (st : Status) (s : State) (h : hostOpen s) (hr : s.dev.reqCheck e.1 s.dev.mi.cmd.args = some st)
    (hs : st ≠ St.rightMissing) : ∃ t, exec e.2 s = .next t ∧
      t.dev.mi = { s.dev.mi with cmd := { s.dev.mi.cmd with status := st.toNat, res := 0 } } ∧ keepsRest [.mi] s t := by
  obtain ⟨x, k⟩ := run_of_changesOnly (s := s) (c := true) rfl (by decide) (changesOnly_answer s.dev .interlock st 0)
  exact ⟨_, (exec_interlockRow he h).trans ((congrArg (run s true) (request_of_refused hr hs)).trans x), rfl, k⟩

end

/-- Settles O34: of each request, its start, its wait, a full interlock, and a failed check. -/
theorem maintenanceRequestsGetTickets : Obligations.MaintenanceRequestsGetTickets :=
  fun _ he => ⟨exec_request_starts he, exec_request_waits he, exec_request_full he, exec_request_refused he⟩

/-! ### Activities that start (R402) -/

/-- A request that starts at once answers by what its work makes of the device. -/
theorem exec_starts_frame {ps : List Part} {op k : Nat} {c : Instr} {s : State} {d : Device} (hc : (op, c) ∈ interlockRows)
    (h : startsAtOnce s op k) (hp : Part.perm ∉ ps) (hm : Part.mi ∈ ps) (hd : (reqStarted s.dev op k).startWork (reqOf s.dev op k) = d)
    (frame : changesOnly ps (reqStarted s.dev op k) d) : exec c s = .next { s with dev := d } ∧ keepsRest ps s { s with dev := d } := by
  have k := ((changesOnly_reqStarted s.dev op k).mono (qs := ps) (by simpa using hm)).trans frame
  obtain ⟨x, k⟩ := run_of_changesOnly (s := s) (c := true) rfl hp k
  exact ⟨((exec_starts hc h).trans (congrArg (run s true) hd)).trans x, k⟩

/-! ### Engines (R395, R397) -/

/-- A pass of a class whose first engine may be patched drains that engine first (R395). -/
theorem passNext_of_first {d : Device} {p : Pass} (hv : p.revert = false) (hd : p.done = []) {cs : List Nat} (hc : p.classes = 0 :: cs)
    (hr : (d.tumbler 0).retired = false) (hp : (d.tumbler 0).parked = false) : d.passNext p = some (0, 0) := by
  have left : ((List.range (classSize 0)).filter fun n => !p.done.contains (64 * 0 + n) && !(d.engineOf 0 n).retired) =
      0 :: ((List.range' 1 31).filter fun n => !p.done.contains (64 * 0 + n) && !(d.engineOf 0 n).retired) := by
    rw [show List.range (classSize 0) = 0 :: List.range' 1 31 by decide, List.filter_cons_of_pos (by simp [hd, Device.engineOf, hr])]
  have first : (!(d.engineOf 0 0).parked) = true := by simp [Device.engineOf, hp]
  rw [Device.passNext, hv, hc]
  simp only [Bool.false_eq_true, if_false, List.findSome?_cons, left, List.find?_cons, first]

/-- The classes that MI_ARG0 names, the first among them (R395). -/
theorem classes_of_first {a : Nat} (h : bitOf a 0 = true) :
    ((List.range 4).filter fun c => bitOf a c) = 0 :: ([1, 2, 3].filter fun c => bitOf a c) := by
  rw [show List.range 4 = 0 :: [1, 2, 3] by decide, List.filter_cons_of_pos h]

/-- The pass that PATCH asks for, before its first engine is known (R395). -/
def askedPass (d : Device) (k : Nat) : Pass :=
  let a := nth d.mi.cmd.args 0 0
  { ticket := k, classes := (List.range 4).filter fun c => bitOf a c, cls := 0, engine := 0, toB := bitOf a 8, drain := false, deadline := 0,
    step := 0 }

/-- The pass that PATCH begins with tumbler 0 (R395). -/
def firstPass (d : Device) (k : Nat) : Pass :=
  let a := nth d.mi.cmd.args 0 0
  { ticket := k, classes := (List.range 4).filter fun c => bitOf a c, cls := 0, engine := 0, toB := bitOf a 8, drain := true, step := 0,
    deadline := (d.sc.beat + nth d.mi.cmd.args 1 0 % 2 ^ 24) % 2 ^ 48 }

/-- PATCH gives its deadline in MI_ARG1 (R395, R400). -/
theorem args_of_patch {d : Device} {a : List Nat} (h : d.reqCheck 0x01 a = none) : nth a 1 1 = nth a 1 0 := by
  have present : nth a 1 0 ≠ 0 := fun zero => by simp [Device.reqCheck, zero] at h
  simp only [nth, List.getD_eq_getElem?_getD] at present ⊢
  cases e : a[1]? with
  | none => simp [e] at present
  | some x => rfl

theorem startWork_patch {s : State} {k : Nat} (h : startsAtOnce s 0x01 k) (hn : s.dev.mi.running.any (fun r => r.op == 1) = false)
    (hb : bitOf (nth s.dev.mi.cmd.args 0 0) 0 = true) (hr : (s.dev.tumbler 0).retired = false) (hp : (s.dev.tumbler 0).parked = false) :
    (reqStarted s.dev 0x01 k).startWork (reqOf s.dev 0x01 k) =
      { reqStarted s.dev 0x01 k with mc := { s.dev.mc with pass := some (firstPass s.dev k) } } := by
  have ours : (reqStarted s.dev 0x01 k).mi.running.find? (fun r => r.op == 1) = some (reqOf s.dev 0x01 k) := by
    have others : s.dev.mi.running.find? (fun r => r.op == 1) = none := by simpa using hn
    show (s.dev.mi.running ++ [reqOf s.dev 0x01 k]).find? _ = _
    rw [List.find?_append, others]
    rfl
  have next : (reqStarted s.dev 0x01 k).passNext (askedPass s.dev k) = some (0, 0) := passNext_of_first rfl rfl (classes_of_first hb) hr hp
  show (reqStarted s.dev 0x01 k).passStep (askedPass s.dev k) = _
  rw [Device.passStep, next]
  dsimp only
  rw [ours]
  simp only [Option.map_some, Option.getD_some, reqOf, args_of_patch h.2.1]
  rfl

theorem exec_miPatch (k : Nat) (s : State) (h : startsAtOnce s 0x01 k) (hn : s.dev.mi.running.any (fun r => r.op == 1) = false)
    (hb : bitOf (nth s.dev.mi.cmd.args 0 0) 0 = true) (hr : (s.dev.tumbler 0).retired = false) (hp : (s.dev.tumbler 0).parked = false) : ∃ t p,
      exec .miPatch s = .next t ∧ t.dev.mc.pass = some p ∧ p.cls = 0 ∧ p.engine = 0 ∧ p.drain = true ∧ p.step = 0 ∧
      p.toB = bitOf (nth s.dev.mi.cmd.args 0 0) 8 ∧
      p.deadline = (s.dev.sc.beat + nth s.dev.mi.cmd.args 1 0 % 2 ^ 24) % 2 ^ 48 ∧ keepsRest [.mi, .mc] s t := by
  obtain ⟨e, k⟩ := exec_starts_frame (ps := [.mi, .mc]) (op := 0x01) (c := .miPatch) (by decide) h (by decide) (by decide)
    (startWork_patch h hn hb hr hp) ((changesOnly_mc _ _).mono (by decide))
  exact ⟨_, firstPass s.dev _, e, rfl, rfl, rfl, rfl, rfl, rfl, rfl, k⟩

/-- Retiring a tumbler leaves what waits to be zeroised to the zeroising (R397). -/
theorem changesOnly_retired (d : Device) (n : Nat) : changesOnly [.turns, .hg, .kw, .hs, .mi, .tu, .fc] d (d.retire 0 n) :=
  ((changesOnly_abortOn d (.tumbler n)).then (changesOnly_onTu_clean _ n Engine.retire fun _ => rfl)).then
    (changesOnly_raiseSrc _ 1472)

theorem retired_fc (d : Device) (n : Nat) : (d.retire 0 n).fc = { d.fc with incoming := d.fc.incoming ++ [{ source := 1472 }] } := by
  have fc : (d.abortOn (.tumbler n)).fc = d.fc := changesOnly_abortOn d _ .fc (by decide)
  exact congrArg (fun c : Collector => ({ c with incoming := c.incoming ++ [{ source := 1472 }] } : Collector)) fc

/-- A turn at home on a retired tumbler ends with ENGINE_RESET at the next edge (R117, R397). -/
theorem retired_turn {d : Device} {n slot : Nat} {x : Turn} (hx : Map.get? d.turns slot = some x) (he : x.ending = none) (hb : x.bolt = false)
    (hh : x.home = some n) : Map.get? (d.retire 0 n).turns slot = some (x.setDue St.engineReset) := by
  have home : x.onEngine (.tumbler n) = true := by simp [Turn.onEngine, hh, hb, homeId]
  have turns : (d.retire 0 n).turns = (d.abortTurns St.engineReset fun t => t.onEngine (.tumbler n)).turns :=
    changesOnly_failWork _ (fun j => j.unit == some (.tumbler n) || j.inStroke == some (.tumbler n)) .turns (by decide)
  rw [turns]
  exact turn_abortTurns (p := fun t => t.onEngine (.tumbler n)) hx home he St.engineReset

theorem startWork_retire {d : Device} {r : Req} {n : Nat} (ho : r.op = 0x02) (hn : n < 32) (ha : nth r.args 0 0 = n) :
    d.startWork r = (d.retire 0 n).markEnded 0x02 St.done := by
  have bolt : bitOf n 5 = false := Nat.testBit_lt_two_pow hn
  have number : field n 0 5 = n := by simp [field, Nat.mod_eq_of_lt hn]
  rw [Device.startWork, ho]
  dsimp only
  rw [ha, bolt, number]
  rfl

theorem exec_miRetire (k n : Nat) (s : State) (h : startsAtOnce s 0x02 k) (hn : n < 32) (ha : nth s.dev.mi.cmd.args 0 0 = n)
    (hl : n < s.dev.tu.length) : ∃ t, exec .miRetire s = .next t ∧ (t.dev.tumbler n).retired = true ∧ (t.dev.tumbler n).inService = false ∧
      raisedIn s t 1472 ∧ (∀ slot x, Map.get? s.dev.turns slot = some x → x.ending = none → x.bolt = false → x.home = some n →
        Map.get? t.dev.turns slot = some (x.setDue St.engineReset)) ∧ keepsRest [.mi, .tu, .turns, .fc, .hg, .kw, .hs] s t := by
  have frame := ((changesOnly_retired (reqStarted s.dev 0x02 k) n).then (changesOnly_markEnded _ 0x02 St.done)).mono
    (qs := [.mi, .tu, .turns, .fc, .hg, .kw, .hs]) (by decide)
  obtain ⟨e, k'⟩ := exec_starts_frame (op := 0x02) (c := .miRetire) (by decide) h (by decide) (by decide)
    (startWork_retire (r := reqOf s.dev 0x02 k) rfl hn ha) frame
  obtain ⟨retired, out⟩ := retire_tumbler (d := reqStarted s.dev 0x02 k) hl
  refine ⟨_, e, retired, out, retired_fc (reqStarted s.dev 0x02 k) n, fun slot x hx he hb hh => ?_, k'⟩
  have turn := retired_turn (d := reqStarted s.dev 0x02 k) (n := n) (slot := slot) hx he hb hh
  exact turn

theorem exec_miFwSwap (k : Nat) (s : State) (h : startsAtOnce s 0x03 k) : ∃ t, exec .miFwSwap s = .next t ∧
    t.dev.mc = { s.dev.mc with swapping := some (nth s.dev.mi.cmd.args 0 0), halted := true, healthy := false } ∧ keepsRest [.mi, .mc] s t := by
  obtain ⟨e, k'⟩ := exec_starts_frame (ps := [.mi, .mc]) (op := 0x03) (c := .miFwSwap) (by decide) h (by decide) (by decide) rfl
    ((changesOnly_mc _ _).mono (by decide))
  exact ⟨_, e, rfl, k'⟩

/-! ### The entropy block (R297, R298, R400) -/

/-- A recalibrated pin restarts, its activity notes its count of failures, and its trim is no longer pending (R298, R400, R430). -/
def pinRecalled (d : Device) (p : Nat) : Device :=
  let e := (d.recalPin p).onMi fun m =>
    { m with running := m.running.map fun x => if x.op = 0x10 then { x with args := [p, (d.ns.pin p).fails] } else x }
  { e with ca := { e.ca with pend := e.ca.pend.filter (· != calKey 0x02 p) } }

theorem startWork_pinRecal {d : Device} {r : Req} {p : Nat} (ho : r.op = 0x10) (ha : nth r.args 0 0 = p) : d.startWork r = pinRecalled d p := by
  rw [Device.startWork, ho, ha]
  rfl

theorem changesOnly_pinRecalled (d : Device) (p : Nat) : changesOnly [.ns, .turns, .fc, .ul, .out, .mi, .ca] d (pinRecalled d p) :=
  ((changesOnly_recalPin d p).then (changesOnly_onMi _ _)).then (changesOnly_ca _ _)

theorem pinRecalled_pin {d : Device} {p : Nat} (h : p < d.ns.pins.length) :
    ((pinRecalled d p).ns.pin p).state = .restarting ∧ ((pinRecalled d p).ns.pin p).fails = (d.ns.pin p).fails := by
  have ns : (pinRecalled d p).ns = (d.recalPin p).ns := ((changesOnly_onMi (d.recalPin p) _).then (changesOnly_ca _ _)) .ns (by decide)
  rw [ns]
  exact recalPin_pin h

theorem exec_miPinRecal (k p : Nat) (s : State) (h : startsAtOnce s 0x10 k) (ha : nth s.dev.mi.cmd.args 0 0 = p)
    (hl : p < s.dev.ns.pins.length) : ∃ t, exec .miPinRecal s = .next t ∧ (t.dev.ns.pin p).state = .restarting ∧
      (t.dev.ns.pin p).fails = (s.dev.ns.pin p).fails ∧ keepsRest [.mi, .ns, .ca, .turns, .fc, .ul, .out] s t := by
  obtain ⟨e, k'⟩ := exec_starts_frame (ps := [.mi, .ns, .ca, .turns, .fc, .ul, .out]) (op := 0x10) (c := .miPinRecal) (by decide) h (by decide)
    (by decide) (startWork_pinRecal (r := reqOf s.dev 0x10 k) rfl ha) ((changesOnly_pinRecalled _ _).mono (by decide))
  obtain ⟨state, fails⟩ := pinRecalled_pin (d := reqStarted s.dev 0x10 k) hl
  exact ⟨_, e, state, fails, k'⟩

theorem startWork_pinRetire {d : Device} {r : Req} {p : Nat} (ho : r.op = 0x11) (ha : nth r.args 0 0 = p) :
    d.startWork r = (d.retirePin p).markEnded 0x11 St.done := by
  rw [Device.startWork, ho, ha]
  rfl

theorem exec_miPinRetire (k p : Nat) (s : State) (h : startsAtOnce s 0x11 k) (ha : nth s.dev.mi.cmd.args 0 0 = p)
    (hl : p < s.dev.ns.pins.length) : ∃ t, exec .miPinRetire s = .next t ∧ (t.dev.ns.pin p).state = .retired ∧
      keepsRest [.mi, .ns, .turns, .fc, .ul, .out] s t := by
  obtain ⟨e, k'⟩ := exec_starts_frame (ps := [.mi, .ns, .turns, .fc, .ul, .out]) (op := 0x11) (c := .miPinRetire) (by decide) h (by decide)
    (by decide) (startWork_pinRetire (r := reqOf s.dev 0x11 k) rfl ha)
    (((changesOnly_retirePin _ _).then (changesOnly_markEnded _ 0x11 St.done)).mono (by decide))
  exact ⟨_, e, retirePin_pin (d := reqStarted s.dev 0x11 k) hl, k'⟩

theorem exec_miRawCapture (k : Nat) (s : State) (h : startsAtOnce s 0x12 k) : ∃ t, exec .miRawCapture s = .next t ∧
    t.dev.ns = { s.dev.ns with rawWait := some (nth s.dev.mi.cmd.args 0 0) } ∧ keepsRest [.mi, .ns] s t := by
  obtain ⟨e, k'⟩ := exec_starts_frame (ps := [.mi, .ns]) (op := 0x12) (c := .miRawCapture) (by decide) h (by decide) (by decide) rfl
    ((changesOnly_onNs (reqStarted s.dev 0x12 k) fun n => { n with rawWait := some (nth s.dev.mi.cmd.args 0 0) }).mono (by decide))
  exact ⟨_, e, rfl, k'⟩

/-- Every instantiated DRBG is to reseed (R298). -/
def reseedWanted (n : Entropy) : Entropy := { n with drbgs := n.drbgs.map fun g => if g.inst then { g with reseedAll := true } else g }

theorem exec_miReseedAll (k : Nat) (s : State) (h : startsAtOnce s 0x13 k) : ∃ t, exec .miReseedAll s = .next t ∧
    (∀ g ∈ t.dev.ns.drbgs, g.inst = true → g.reseedAll = true) ∧ t.dev.ns.drbgs.length = s.dev.ns.drbgs.length ∧ keepsRest [.mi, .ns] s t := by
  obtain ⟨e, k'⟩ := exec_starts_frame (ps := [.mi, .ns]) (op := 0x13) (c := .miReseedAll) (by decide) h (by decide) (by decide) rfl
    ((changesOnly_onNs (reqStarted s.dev 0x13 k) reseedWanted).mono (by decide))
  refine ⟨_, e, fun g hg hi => ?_, List.length_map _, k'⟩
  obtain ⟨x, -, rfl⟩ := List.mem_map.1 hg
  by_cases hx : x.inst = true
  · rw [if_pos hx]
  · rw [if_neg hx] at hi
    exact absurd hi hx

/-! ### The NV controller (R373, R378, R392) -/

theorem exec_miMramScrub (k : Nat) (s : State) (h : startsAtOnce s 0x20 k) : ∃ t, exec .miMramScrub s = .next t ∧
    t.dev.nv = { s.dev.nv with scrubActive := true, scrubLine := 0 } ∧ keepsRest [.mi, .nv] s t := by
  obtain ⟨e, k'⟩ := exec_starts_frame (ps := [.mi, .nv]) (op := 0x20) (c := .miMramScrub) (by decide) h (by decide) (by decide) rfl
    ((changesOnly_nv _ _).mono (by decide))
  exact ⟨_, e, rfl, k'⟩

theorem copyForward_counters (fuel : Nat) (n : Nv) : (n.copyForward fuel).cuts = n.cuts ∧ (n.copyForward fuel).gens = n.gens := by
  induction fuel generalizing n with
  | zero => exact ⟨rfl, rfl⟩
  | succ fuel ih =>
    unfold Nv.copyForward
    dsimp only
    split
    · exact ⟨rfl, rfl⟩
    · exact ih _

/-- A line of the journal changes no counter's value (R373). -/
theorem line_counters (n : Nv) (key : Option Nat) (r : JRec) : (n.line key r).cuts = n.cuts ∧ (n.line key r).gens = n.gens :=
  copyForward_counters 4200 n

theorem compact_counters (n : Nv) : n.compact.cuts = n.cuts ∧ n.compact.gens = n.gens := by
  have copies (l : List Nat) (m : Nv) : (l.foldl (fun m k => m.line (some k) (m.copyOf k)) m).cuts = m.cuts ∧
      (l.foldl (fun m k => m.line (some k) (m.copyOf k)) m).gens = m.gens := by
    induction l generalizing m with
    | nil => exact ⟨rfl, rfl⟩
    | cons k r ih =>
      obtain ⟨cuts, gens⟩ := ih (m.line (some k) (m.copyOf k))
      obtain ⟨lineCuts, lineGens⟩ := line_counters m (some k) (m.copyOf k)
      exact ⟨cuts.trans lineCuts, gens.trans lineGens⟩
  exact copies _ n

/-- An activity whose work is marked ended is among the running ones with its status (R402). -/
theorem ended_of_markEnded {d : Device} {r : Req} {op : Nat} (h : r ∈ d.mi.running) (ho : r.op = op) (st : Status) :
    ∃ x ∈ (d.markEnded op st).mi.running, x.ticket = r.ticket ∧ x.ended = some st.toNat :=
  ⟨{ r with ended := some st.toNat }, List.mem_map.2 ⟨r, h, if_pos ho⟩, rfl, rfl⟩

theorem reqOf_mem_running (d : Device) (op k : Nat) : reqOf d op k ∈ (reqStarted d op k).mi.running :=
  List.mem_append_right _ (List.mem_singleton_self _)

/-- The journal is copied forward, and the activity's work is over (R373, R400). -/
def compacted (d : Device) (op : Nat) : Device := ({ d with nv := d.nv.compact } : Device).markEnded op St.done

theorem exec_compacts {op k : Nat} {c : Instr} {s : State} (hc : (op, c) ∈ interlockRows) (h : startsAtOnce s op k)
    (hd : (reqStarted s.dev op k).startWork (reqOf s.dev op k) = compacted (reqStarted s.dev op k) op) : ∃ t, exec c s = .next t ∧
      t.dev.nv.cuts = s.dev.nv.cuts ∧ t.dev.nv.gens = s.dev.nv.gens ∧ (∃ r ∈ t.dev.mi.running, r.ticket = k ∧ r.ended = some 0) ∧
      keepsRest [.mi, .nv] s t := by
  obtain ⟨e, k'⟩ := exec_starts_frame (ps := [.mi, .nv]) hc h (by decide) (by decide) hd
    (((changesOnly_nv _ _).then (changesOnly_markEnded _ op St.done)).mono (by decide))
  obtain ⟨cuts, gens⟩ := compact_counters s.dev.nv
  exact ⟨_, e, cuts, gens, ended_of_markEnded (d := { reqStarted s.dev op k with nv := s.dev.nv.compact }) (reqOf_mem_running s.dev op k) rfl St.done, k'⟩

theorem exec_miCompact (k : Nat) (c : Instr) (s : State)
    (h : (c = .miWearRelocate ∧ startsAtOnce s 0x21 k) ∨ (c = .miJournalCompact ∧ startsAtOnce s 0x23 k)) : ∃ t, exec c s = .next t ∧
      t.dev.nv.cuts = s.dev.nv.cuts ∧ t.dev.nv.gens = s.dev.nv.gens ∧ (∃ r ∈ t.dev.mi.running, r.ticket = k ∧ r.ended = some 0) ∧
      keepsRest [.mi, .nv] s t := by
  obtain ⟨rfl, h⟩ | ⟨rfl, h⟩ := h
  · exact exec_compacts (by decide) h rfl
  · exact exec_compacts (by decide) h rfl

/-- An image is read from the host (R392). -/
def imageAsked (d : Device) (args : List Nat) : Device :=
  (d.begin_ .interlock { op := 0x22, args := args }).jobRead .interlock (nth args 0 0 + 2 ^ 32 * nth args 1 0) (nth args 2 0)

theorem imageAsked_job (d : Device) (args : List Nat) : (imageAsked d args).mi.cmd.job =
    some { op := 0x22, args := args, phase := .reading, awaiting := ceilDiv (nth args 2 0) 4096, parts := [] } :=
  job_readBegun { dev := d, pending := [] } .interlock { op := 0x22, args := args } _ _

theorem exec_miImageWrite (k : Nat) (s : State) (h : startsAtOnce s 0x22 k) : ∃ t j, exec .miImageWrite s = .next t ∧
    t.dev.mi.cmd.job = some j ∧ j.op = 0x22 ∧ j.args = s.dev.mi.cmd.args ∧ j.phase = .reading ∧
    j.awaiting = ceilDiv (nth s.dev.mi.cmd.args 2 0) 4096 ∧ keepsRest [.mi, .dma0, .out] s t := by
  have frame : changesOnly [.mi, .dma0, .out] (reqStarted s.dev 0x22 k) (imageAsked (reqStarted s.dev 0x22 k) s.dev.mi.cmd.args) :=
    ((changesOnly_begin _ .interlock _).then (changesOnly_jobRead _ .interlock _ _)).mono (by decide)
  obtain ⟨e, k'⟩ := exec_starts_frame (op := 0x22) (c := .miImageWrite) (by decide) h (by decide) (by decide) rfl frame
  exact ⟨_, _, e, imageAsked_job (reqStarted s.dev 0x22 k) s.dev.mi.cmd.args, rfl, rfl, rfl, rfl, k'⟩

/-! ### The ward key and the sensors (R338, R430) -/

theorem exec_miWardRekey (k : Nat) (s : State) (h : startsAtOnce s 0x30 k) : ∃ t, exec .miWardRekey s = .next t ∧
    t.dev.tp = { s.dev.tp with rekeyWanted := true } ∧ keepsRest [.mi, .tp] s t := by
  obtain ⟨e, k'⟩ := exec_starts_frame (ps := [.mi, .tp]) (op := 0x30) (c := .miWardRekey) (by decide) h (by decide) (by decide) rfl
    ((changesOnly_tp _ _).mono (by decide))
  exact ⟨_, e, rfl, k'⟩

theorem nth_modifyAt_of_ne {α : Type} (l : List α) {i j : Nat} (f : α → α) (h : i ≠ j) (a : α) : nth (modifyAt l i f) j a = nth l j a := by
  simp [nth, modifyAt, h]

/-- A source that is not recalibrated keeps its configuration (R430). -/
theorem recalSources_srcs {l : List Nat} {n : Nat} (h : n ∉ l) (d : Device) : nth (l.foldl Device.recalSource d).tp.srcs n {} = nth d.tp.srcs n {} := by
  induction l generalizing d with
  | nil => rfl
  | cons i r ih =>
    obtain ⟨hi, hr⟩ := not_or.1 (mt List.mem_cons.2 h)
    exact (ih hr _).trans (nth_modifyAt_of_ne _ _ (Ne.symm hi) _)

/-- The sources that MI_ARG0 names (R430). -/
def recalled (d : Device) (a : Nat) : Device := ((List.range 32).filter fun n => bitOf a n).foldl Device.recalSource d

theorem startWork_tamperRecal {d : Device} {r : Req} (ho : r.op = 0x31) :
    d.startWork r = (recalled d (nth r.args 0 0)).markEnded 0x31 St.done := by
  rw [Device.startWork, ho]
  rfl

theorem exec_miTamperRecal (k : Nat) (s : State) (h : startsAtOnce s 0x31 k) : ∃ t, exec .miTamperRecal s = .next t ∧
    (∃ r ∈ t.dev.mi.running, r.ticket = k ∧ r.ended = some 0) ∧
    (∀ n, bitOf (nth s.dev.mi.cmd.args 0 0) n = false → nth t.dev.tp.srcs n {} = nth s.dev.tp.srcs n {}) ∧ keepsRest [.mi, .tp, .ca] s t := by
  have sources := changesOnly_recalSources ((List.range 32).filter fun n => bitOf (nth s.dev.mi.cmd.args 0 0) n) (reqStarted s.dev 0x31 k)
  obtain ⟨e, k'⟩ := exec_starts_frame (ps := [.mi, .tp, .ca]) (op := 0x31) (c := .miTamperRecal) (by decide) h (by decide) (by decide)
    (startWork_tamperRecal (r := reqOf s.dev 0x31 k) rfl) ((sources.then (changesOnly_markEnded _ 0x31 St.done)).mono (by decide))
  have mi : (recalled (reqStarted s.dev 0x31 k) (nth s.dev.mi.cmd.args 0 0)).mi = (reqStarted s.dev 0x31 k).mi := sources .mi (by decide)
  have ours := mi ▸ reqOf_mem_running s.dev 0x31 k
  exact ⟨_, e, ended_of_markEnded ours rfl St.done, fun n hn => recalSources_srcs (by simp [reqOf, hn]) _, k'⟩

/-- Settles O35, activity by activity. -/
theorem maintenanceActivitiesDoTheirWork : Obligations.MaintenanceActivitiesDoTheirWork :=
  ⟨exec_miPatch, exec_miRetire, exec_miFwSwap, exec_miPinRecal, exec_miPinRetire, exec_miRawCapture, exec_miReseedAll, exec_miMramScrub,
    exec_miCompact, exec_miImageWrite, exec_miWardRekey, exec_miTamperRecal⟩

end Sys2Proof.Safety
end

section
/-! CalibrationCommands (R425 to R431, R439) clause by clause. -/

namespace Sys2Proof.Safety

open Sys2Proof.Machine

/-! ### What the engine does with a command that it finds alone (R429) -/

/-- The engine holds one command. -/
def withJob (d : Device) (j : CalJob) : Device := d.onCa fun c => { c with jobs := [j] }

theorem calGive_of_idle {d : Device} (h : d.ca.jobs = []) (j : CalJob) : d.calGive j = (withJob d j).calPoll := by
  simp [Device.calGive, h, withJob, Device.onCa]

theorem calPoll_of_refused {d : Device} {j : CalJob} {st : Status} (h : d.calCheck j = some st) :
    (withJob d j).calPoll = (withJob d j).calFinish j st := by
  have check : (withJob d j).calCheck j = some st := h
  simp only [Device.calPoll, show (withJob d j).ca.jobs = [j] from rfl, check]

theorem calPoll_of_restored {d : Device} {j : CalJob} (h : d.calCheck j = none) (ho : j.op = 4) (hv : d.ca.overlay = []) :
    (withJob d j).calPoll = (withJob d j).calRestored j := by
  have check : (withJob d j).calCheck j = none := h
  have empty : (withJob d j).ca.overlay = [] := hv
  simp only [Device.calPoll, show (withJob d j).ca.jobs = [j] from rfl, check, ho, empty, and_self, if_true]

theorem calPoll_of_waiting {d : Device} {j : CalJob} (h : d.calCheck j = none) (ho : j.op ≠ 4) (hw : d.calMayWrite = false) :
    (withJob d j).calPoll = withJob d j := by
  have check : (withJob d j).calCheck j = none := h
  have may : (withJob d j).calMayWrite = false := hw
  simp only [Device.calPoll, show (withJob d j).ca.jobs = [j] from rfl, check, ho, may, false_and, if_false, Bool.not_false, if_true]

/-- A line write that verifies moves nothing (R367). -/
theorem lineWrite_of_verified {d : Device} {fails : List Bool} (hf : fails.headD false = false) : d.lineWrite (fails.headD false) = (d, true) := by
  rw [hf]
  rfl

theorem calPoll_of_written {d : Device} {j : CalJob} (h : d.calCheck j = none) (ho : j.op ≠ 4) (hw : d.calMayWrite = true)
    (hf : j.fails.headD false = false) : (withJob d j).calPoll = (withJob d j).calStored j := by
  have check : (withJob d j).calCheck j = none := h
  have may : (withJob d j).calMayWrite = true := hw
  simp only [Device.calPoll, show (withJob d j).ca.jobs = [j] from rfl, check, ho, may, lineWrite_of_verified hf, false_and, if_false,
    Bool.not_true, Bool.false_eq_true, ne_eq, not_false_eq_true, if_true]

/-- RESTORE_FACTORY has dropped the one overlay (R431). -/
def lastDropped (d : Device) (j : CalJob) (k : Nat) : Device :=
  d.onCa fun c => { c.store 3 (k / 64) (k % 64) [] with jobs := [{ j with fails := j.fails.tail }] }

theorem calPoll_of_last {d : Device} {j : CalJob} {k : Nat} {r : CalRec} (h : d.calCheck j = none) (ho : j.op = 4) (hv : d.ca.overlay = [(k, r)])
    (hw : d.calMayWrite = true) (hf : j.fails.headD false = false) :
    (withJob d j).calPoll = (lastDropped (withJob d j) j k).calRestored { j with fails := j.fails.tail } := by
  have check : (withJob d j).calCheck j = none := h
  have may : (withJob d j).calMayWrite = true := hw
  have one : (withJob d j).ca.overlay = [(k, r)] := hv
  simp only [Device.calPoll, show (withJob d j).ca.jobs = [j] from rfl, check, ho, may, one, lineWrite_of_verified hf, and_false, if_false,
    Bool.not_true, Bool.false_eq_true, ne_eq, not_true_eq_false, List.isEmpty_nil, if_true, lastDropped, Device.onCa, List.tail_cons, reduceCtorEq]

/-! ### How a command ends (R429, R433) -/

/-- The hinge reads the status of its command in CA_CMD_STAT (R429). -/
theorem calAnswer_of_host {d : Device} {j : CalJob} {st : Status} (hm : j.monitor = false) (hs : st ≠ St.rightMissing) :
    d.calAnswer j st = d.onCa fun c => { c with cmd := { c.cmd with status := st.toNat } } := by
  have known : (st == St.rightMissing) = false := by simpa using hs
  simp only [Device.calAnswer, known, Device.when_false, hm, Bool.not_false, if_true]

theorem calAnswer_of_host_denied {d : Device} {j : CalJob} (hm : j.monitor = false) :
    d.calAnswer j St.rightMissing = d.denied.onCa fun c => { c with cmd := { c.cmd with status := St.rightMissing.toNat } } := by
  simp only [Device.calAnswer, beq_self_eq_true, Device.when_true, hm, Bool.not_false, if_true]

/-- The line of a command is written, and the thermal limits are loaded where it was theirs (R430). -/
def lineStored (d : Device) (j : CalJob) : Device :=
  (d.onCa fun c => (let c1 := c.store j.op j.code j.inst j.value; if j.op = 5 then c1 else { c1 with evt := c1.evt ||| 1 })).when
    (j.code == 0x08 && j.op != 5) Device.loadThermal

theorem calStored_eq (d : Device) (j : CalJob) : d.calStored j = (lineStored d j).calFinish j St.done := rfl

theorem changesOnly_lineStored (d : Device) (j : CalJob) : changesOnly [.ca, .power] d (lineStored d j) :=
  (changesOnly_onCa d _).then (changesOnly_when (changesOnly_loadThermal _))

theorem lineStored_ca (d : Device) (j : CalJob) : (lineStored d j).ca =
    (let c1 := d.ca.store j.op j.code j.inst j.value; if j.op = 5 then c1 else { c1 with evt := c1.evt ||| 1 }) := by
  unfold lineStored
  cases j.code == 0x08 && j.op != 5 <;> rfl

/-- Outside the thermal limits a line changes calibration only (R430). -/
theorem lineStored_of_other {d : Device} {j : CalJob} (h : j.code ≠ 0x08 ∨ j.op = 5) : changesOnly [.ca] d (lineStored d j) := by
  have other : (j.code == 0x08 && j.op != 5) = false := by
    obtain hc | ho := h
    · simp [hc]
    · simp [ho]
  rw [lineStored, other, Device.when_false]
  exact changesOnly_onCa d _

/-- The thermal limits come from the overlay that was written (R430). -/
theorem lineStored_power_of_set {d : Device} {v : Bytes} {fails : List Bool} {m : Bool} :
    (lineStored d { op := 2, code := 0x08, inst := 0, value := v, fails := fails, monitor := m }).power =
      { d.power with warn := u8 (fit 32 v) 0, crit := u8 (fit 32 v) 1 } := by
  simp [lineStored, Device.loadThermal, Device.onCa, Cal.store, Cal.effective]

section
variable (c : Cal) (code inst : Nat) (v : Bytes)

theorem store_set : Map.get? (c.store 2 code inst v).overlay (calKey code inst) = some { value := v } ∧ (c.store 2 code inst v).factory = c.factory ∧
    (c.store 2 code inst v).evt = c.evt ∧ (code ≠ 0x08 → calKey code inst ∈ (c.store 2 code inst v).pend) := by
  refine ⟨Map.get?_set_self _ _ _, rfl, rfl, fun h => ?_⟩
  have later : (true && (code != 0x08 || (2 : Nat) == 5)) = true := by simp [h]
  simp only [Cal.store, later, if_true]
  exact mem_insertNew _ _

theorem store_drop : (c.store 3 code inst v).overlay = Map.erase c.overlay (calKey code inst) ∧ (c.store 3 code inst v).factory = c.factory ∧
    (c.store 3 code inst v).evt = c.evt := ⟨rfl, rfl, rfl⟩

theorem store_factory : Map.get? (c.store 5 code inst v).factory (calKey code inst) = some { value := v } ∧
    (c.store 5 code inst v).overlay = c.overlay ∧ (c.store 5 code inst v).evt = c.evt := ⟨Map.get?_set_self _ _ _, rfl, rfl⟩

end

/-! ### Commands of the hinge (R429) -/

/-- A command of the hinge reaches an idle engine. -/
theorem calCommand_of_idle {s : State} (h : calIdle s) (f : Device → Device) : s.dev.calCommand f = f s.dev := by
  obtain ⟨ho, hj⟩ := h
  rw [Device.calCommand, hostDo_of_hostOpen ho, Device.calIssue, hj]
  rfl

/-- A write command of the hinge that the engine finds alone. -/
theorem calWrite_of_idle {s : State} (h : calIdle s) (op : Nat) :
    s.dev.calCommand (fun d => d.calWrite op [false]) = (withJob s.dev (calJob s op)).calPoll :=
  (calCommand_of_idle h _).trans (calGive_of_idle h.2 (calJob s op))

/-- The command of the hinge has left the engine with its status (R429). -/
def hingeEnded (d : Device) (st : Status) : Device :=
  d.onCa fun c => { c with jobs := c.jobs.tail, cmd := { c.cmd with status := st.toNat } }

theorem calFinish_of_host {d : Device} {j : CalJob} {st : Status} (hm : j.monitor = false) (hs : st ≠ St.rightMissing) :
    d.calFinish j st = hingeEnded d st := by
  rw [Device.calFinish, calAnswer_of_host hm hs]
  rfl

theorem changesOnly_hingeEnded (d : Device) (st : Status) : changesOnly [.ca] d (hingeEnded d st) := changesOnly_onCa d _

theorem changesOnly_withJob (d : Device) (j : CalJob) : changesOnly [.ca] d (withJob d j) := changesOnly_onCa d _

/-- What READ loads (R439). -/
def readValue (c : Cal) : Bytes :=
  match c.which with
  | 1 => c.factoryValue c.code c.inst
  | 2 => (match Map.get? c.overlay (calKey c.code c.inst) with
    | some r => fit 32 r.value
    | none => zeros 32)
  | _ => c.effective c.code c.inst

/-- READ has loaded CA_VALUE (R439). -/
def valueRead (d : Device) : Device :=
  d.onCa fun c => { c with value := calWords (readValue d.ca), cmd := { c.cmd with status := St.done.toNat } }

theorem calRead_of_known {d : Device} (h : calKnown d.ca.code d.ca.inst = true) : d.calRead = valueRead d := by
  rw [Device.calRead, if_neg (by simp [h]), calAnswer_of_host rfl (by decide)]
  rfl

theorem calRead_of_unknown {d : Device} (h : calKnown d.ca.code d.ca.inst = false) :
    d.calRead = d.onCa fun c => { c with cmd := { c.cmd with status := St.badArgument.toNat } } := by
  rw [Device.calRead, if_pos (by simp [h]), calAnswer_of_host rfl (by decide)]

theorem readValue_of_other {c : Cal} (h1 : c.which ≠ 1) (h2 : c.which ≠ 2) : readValue c = c.effective c.code c.inst := by
  unfold readValue
  split
  · exact absurd ‹_› h1
  · exact absurd ‹_› h2
  · rfl

theorem readValue_of_factory {c : Cal} (h : c.which = 1) : readValue c = c.factoryValue c.code c.inst := by simp only [readValue, h]

theorem exec_caRead (s : State) (h : calIdle s) (hk : calKnown s.dev.ca.code s.dev.ca.inst = true) : ∃ t, exec .caRead s = .next t ∧
    calEnded t St.done ∧ (s.dev.ca.which ≠ 1 → s.dev.ca.which ≠ 2 → t.dev.ca.value = calWords (s.dev.ca.effective s.dev.ca.code s.dev.ca.inst)) ∧
    (s.dev.ca.which = 1 → t.dev.ca.value = calWords (s.dev.ca.factoryValue s.dev.ca.code s.dev.ca.inst)) ∧ keepsRest [.ca] s t := by
  obtain ⟨e, k⟩ := run_of_changesOnly (s := s) (c := true) rfl (by decide) (changesOnly_onCa s.dev _)
  exact ⟨_, (congrArg (run s true) ((calCommand_of_idle h _).trans (calRead_of_known hk))).trans e, ⟨h.2, rfl⟩,
    fun h1 h2 => congrArg calWords (readValue_of_other h1 h2), fun h1 => congrArg calWords (readValue_of_factory h1), k⟩

theorem exec_caRead_unknown (s : State) (h : calIdle s) (hk : calKnown s.dev.ca.code s.dev.ca.inst = false) : ∃ t, exec .caRead s = .next t ∧
    calEnded t St.badArgument ∧ t.dev.ca.value = s.dev.ca.value ∧ keepsRest [.ca] s t := by
  obtain ⟨e, k⟩ := run_of_changesOnly (s := s) (c := true) rfl (by decide) (changesOnly_onCa s.dev _)
  exact ⟨_, (congrArg (run s true) ((calCommand_of_idle h _).trans (calRead_of_unknown hk))).trans e, ⟨h.2, rfl⟩, rfl, k⟩

/-! ### The writes of the hinge (R426, R428 to R431) -/

/-- The device after a write command of the hinge whose line was written (R429). -/
def lineEnded (s : State) (op : Nat) : Device := hingeEnded (lineStored (withJob s.dev (calJob s op)) (calJob s op)) St.done

theorem calWrite_of_written {s : State} (h : calIdle s) {op : Nat} (ho : op ≠ 4) (hc : s.dev.calCheck (calJob s op) = none)
    (hw : s.dev.calMayWrite = true) : s.dev.calCommand (fun d => d.calWrite op [false]) = lineEnded s op := by
  rw [calWrite_of_idle h, calPoll_of_written hc ho hw rfl, calStored_eq, calFinish_of_host rfl (by decide)]
  rfl

theorem changesOnly_lineEnded (s : State) (op : Nat) : changesOnly [.ca, .power] s.dev (lineEnded s op) :=
  (((changesOnly_withJob _ _).then (changesOnly_lineStored _ _)).then (changesOnly_hingeEnded _ _)).mono (by decide)

theorem changesOnly_lineEnded_of_other (s : State) {op : Nat} (h : s.dev.ca.code ≠ 0x08 ∨ op = 5) : changesOnly [.ca] s.dev (lineEnded s op) :=
  (((changesOnly_withJob _ _).then (lineStored_of_other h)).then (changesOnly_hingeEnded _ _)).mono (by decide)

/-- The records that a command's line holds (R426), the event set where SET or DROP wrote it (R439). -/
def recordsStored (s : State) (op : Nat) : Cal :=
  (let c1 := (withJob s.dev (calJob s op)).ca.store op s.dev.ca.code s.dev.ca.inst s.dev.ca.bytes; if op = 5 then c1 else { c1 with evt := c1.evt ||| 1 })

theorem lineEnded_ca (s : State) (op : Nat) : (lineEnded s op).ca =
    (let c := recordsStored s op; { c with jobs := c.jobs.tail, cmd := { c.cmd with status := St.done.toNat } }) :=
  congrArg (fun c : Cal => ({ c with jobs := c.jobs.tail, cmd := { c.cmd with status := St.done.toNat } } : Cal)) (lineStored_ca _ _)

theorem store_jobs (c : Cal) (op code inst : Nat) (v : Bytes) : (c.store op code inst v).jobs = c.jobs := by
  unfold Cal.store
  split <;> rfl

theorem lineEnded_ended (s : State) (op : Nat) : (lineEnded s op).ca.jobs = [] ∧ (lineEnded s op).ca.cmd.status = St.done.toNat := by
  have left : (recordsStored s op).jobs = [calJob s op] := by
    unfold recordsStored
    by_cases ho : op = 5
    · simp only [ho, if_true, store_jobs]
      rfl
    · simp only [ho, if_false, store_jobs]
      rfl
  rw [lineEnded_ca]
  exact ⟨congrArg List.tail left, rfl⟩

/-- Thermal limits have one entry (R425). -/
theorem inst_of_thermal {d : Device} {j : CalJob} (ho : j.op = 2) (hc : d.calCheck j = none) (h8 : j.code = 0x08) : j.inst = 0 := by
  have args : d.ca.argsOk j = true := by
    by_contra bad
    have wrong : (!d.ca.argsOk j) = true := by simpa using bad
    simp only [Device.calCheck, wrong, if_true] at hc
    split_ifs at hc
  have known : calKnown j.code j.inst = true := by
    simp only [Cal.argsOk, ho, Bool.and_eq_true] at args
    exact args.1.1
  rw [h8] at known
  simpa [calKnown, calInstances, nth] using known

theorem exec_caSet (s : State) (h : calIdle s) (hc : s.dev.calCheck (calJob s 2) = none) (hw : s.dev.calMayWrite = true) : ∃ t,
    exec (.caSet false) s = .next t ∧
    calEnded t St.done ∧ Map.get? t.dev.ca.overlay (calKey s.dev.ca.code s.dev.ca.inst) = some { value := s.dev.ca.bytes } ∧
    t.dev.ca.evt = s.dev.ca.evt ||| 1 ∧ t.dev.ca.factory = s.dev.ca.factory ∧
    (s.dev.ca.code ≠ 0x08 → calKey s.dev.ca.code s.dev.ca.inst ∈ t.dev.ca.pend ∧ t.dev.power = s.dev.power) ∧
    (s.dev.ca.code = 0x08 → t.dev.power = { s.dev.power with warn := u8 (fit 32 s.dev.ca.bytes) 0, crit := u8 (fit 32 s.dev.ca.bytes) 1 }) ∧
    keepsRest [.ca, .power] s t := by
  obtain ⟨e, k⟩ := run_of_changesOnly (s := s) (c := true) rfl (by decide) (changesOnly_lineEnded s 2)
  obtain ⟨held, factory, evt, later⟩ := store_set (withJob s.dev (calJob s 2)).ca s.dev.ca.code s.dev.ca.inst s.dev.ca.bytes
  have ca := lineEnded_ca s 2
  refine ⟨_, (congrArg (run s true) (calWrite_of_written h (by decide) hc hw)).trans e, lineEnded_ended s 2,
    (congrArg (fun c : Cal => Map.get? c.overlay _) ca :).trans held,
    (congrArg Cal.evt ca :).trans (congrArg (· ||| 1) evt :), (congrArg Cal.factory ca :).trans factory, fun h8 => ⟨?_, ?_⟩, fun h8 => ?_, k⟩
  · exact (congrArg (fun c : Cal => calKey s.dev.ca.code s.dev.ca.inst ∈ c.pend) ca).mpr (later h8)
  · exact changesOnly_lineEnded_of_other s (.inl h8) .power (by decide)
  · have job : calJob s 2 = { op := 2, code := 0x08, inst := 0, value := s.dev.ca.bytes, fails := [false] } := by
      rw [← h8, ← show (calJob s 2).inst = 0 from inst_of_thermal rfl hc h8]
      rfl
    have power : (lineStored (withJob s.dev (calJob s 2)) (calJob s 2)).power =
        { s.dev.power with warn := u8 (fit 32 s.dev.ca.bytes) 0, crit := u8 (fit 32 s.dev.ca.bytes) 1 } := by
      rw [job]
      exact lineStored_power_of_set
    exact power

theorem exec_caDrop (s : State) (h : calIdle s) (hc : s.dev.calCheck (calJob s 3) = none) (hw : s.dev.calMayWrite = true) : ∃ t,
    exec (.caDrop false) s = .next t ∧
    calEnded t St.done ∧ t.dev.ca.overlay = Map.erase s.dev.ca.overlay (calKey s.dev.ca.code s.dev.ca.inst) ∧
    t.dev.ca.factory = s.dev.ca.factory ∧ t.dev.ca.evt = s.dev.ca.evt ||| 1 ∧ keepsRest [.ca, .power] s t := by
  obtain ⟨e, k⟩ := run_of_changesOnly (s := s) (c := true) rfl (by decide) (changesOnly_lineEnded s 3)
  obtain ⟨gone, factory, evt⟩ := store_drop (withJob s.dev (calJob s 3)).ca s.dev.ca.code s.dev.ca.inst s.dev.ca.bytes
  have ca := lineEnded_ca s 3
  exact ⟨_, (congrArg (run s true) (calWrite_of_written h (by decide) hc hw)).trans e, lineEnded_ended s 3, (congrArg Cal.overlay ca :).trans gone,
    (congrArg Cal.factory ca :).trans factory, (congrArg Cal.evt ca :).trans (congrArg (· ||| 1) evt :), k⟩

theorem exec_caFactorySet (s : State) (h : calIdle s) (hc : s.dev.calCheck (calJob s 5) = none) (hw : s.dev.calMayWrite = true) : ∃ t,
    exec (.caFactorySet false) s = .next t ∧
    calEnded t St.done ∧ Map.get? t.dev.ca.factory (calKey s.dev.ca.code s.dev.ca.inst) = some { value := s.dev.ca.bytes } ∧
    t.dev.ca.overlay = s.dev.ca.overlay ∧ t.dev.ca.evt = s.dev.ca.evt ∧ keepsRest [.ca] s t := by
  obtain ⟨e, k⟩ := run_of_changesOnly (s := s) (c := true) rfl (by decide) (changesOnly_lineEnded_of_other s (op := 5) (.inr rfl))
  obtain ⟨held, overlay, evt⟩ := store_factory (withJob s.dev (calJob s 5)).ca s.dev.ca.code s.dev.ca.inst s.dev.ca.bytes
  have ca := lineEnded_ca s 5
  exact ⟨_, (congrArg (run s true) (calWrite_of_written h (by decide) hc hw)).trans e, lineEnded_ended s 5,
    (congrArg (fun c : Cal => Map.get? c.factory _) ca :).trans held, (congrArg Cal.overlay ca :).trans overlay,
    (congrArg Cal.evt ca :).trans evt, k⟩

theorem exec_caSet_waiting (s : State) (h : calIdle s) (hc : s.dev.calCheck (calJob s 2) = none) (hw : s.dev.calMayWrite = false) : ∃ t,
    exec (.caSet false) s = .next t ∧ t.dev.ca = { s.dev.ca with jobs := [calJob s 2] } ∧ keepsRest [.ca] s t := by
  obtain ⟨e, k⟩ := run_of_changesOnly (s := s) (c := true) rfl (by decide) (changesOnly_withJob s.dev (calJob s 2))
  exact ⟨_, (congrArg (run s true) ((calWrite_of_idle h 2).trans (calPoll_of_waiting hc (by decide : (2 : Nat) ≠ 4) hw))).trans e, rfl, k⟩

/-! ### RESTORE_FACTORY (R431) -/

/-- RESTORE_FACTORY as the hinge gives it. -/
def restoreJob (s : State) : CalJob := { op := 4, code := s.dev.ca.code, inst := s.dev.ca.inst, value := s.dev.ca.bytes }

/-- The restore is complete: its event is set and the thermal limits are the factory's (R430, R431). -/
def restored (d : Device) : Device := (d.onCa fun c => { c with evt := c.evt ||| 2 }).loadThermal

theorem changesOnly_restored (d : Device) : changesOnly [.ca, .power] d (restored d) := (changesOnly_onCa d _).then (changesOnly_loadThermal _)

theorem calRestore_of_idle {s : State} (h : calIdle s) :
    s.dev.calCommand (fun d => d.calWrite 4 []) = (withJob s.dev (restoreJob s)).calPoll :=
  (calCommand_of_idle h _).trans (calGive_of_idle h.2 (restoreJob s))

theorem calRestored_of_host {d : Device} {j : CalJob} (hm : j.monitor = false) : d.calRestored j = hingeEnded (restored d) St.done :=
  calFinish_of_host hm (by decide)

theorem exec_caRestoreFactory_empty (s : State) (h : calIdle s) (hc : s.dev.calCheck { op := 4 } = none) (hv : s.dev.ca.overlay = []) : ∃ t,
    exec (.caRestoreFactory []) s = .next t ∧
    calEnded t St.done ∧ t.dev.ca.overlay = [] ∧ t.dev.ca.evt = s.dev.ca.evt ||| 2 ∧ keepsRest [.ca, .power] s t := by
  have poll := (calPoll_of_restored (d := s.dev) (j := restoreJob s) hc rfl hv).trans (calRestored_of_host rfl)
  obtain ⟨e, k⟩ := run_of_changesOnly (s := s) (ps := [.ca, .power]) (c := true) rfl (by decide)
    ((((changesOnly_withJob s.dev (restoreJob s)).then (changesOnly_restored _)).then (changesOnly_hingeEnded _ St.done)).mono (by decide))
  exact ⟨_, (congrArg (run s true) ((calRestore_of_idle h).trans poll)).trans e, ⟨rfl, rfl⟩, hv, rfl, k⟩

theorem calKey_split (k : Nat) : calKey (k / 64) (k % 64) = k := by
  unfold calKey
  omega

theorem exec_caRestoreFactory_last (k : Nat) (r : CalRec) (s : State) (h : calIdle s) (hc : s.dev.calCheck { op := 4 } = none)
    (hv : s.dev.ca.overlay = [(k, r)]) (hw : s.dev.calMayWrite = true) : ∃ t,
    exec (.caRestoreFactory []) s = .next t ∧ calEnded t St.done ∧ t.dev.ca.overlay = [] ∧ t.dev.ca.evt = s.dev.ca.evt ||| 2 ∧
    t.dev.ca.factory = s.dev.ca.factory ∧ keepsRest [.ca, .power] s t := by
  have poll := (calPoll_of_last (d := s.dev) (j := restoreJob s) hc rfl hv hw rfl).trans (calRestored_of_host rfl)
  have frame := ((changesOnly_withJob s.dev (restoreJob s)).then (changesOnly_onCa _ fun c =>
    { c.store 3 (k / 64) (k % 64) [] with jobs := [restoreJob s] })).then (changesOnly_restored _) |>.then (changesOnly_hingeEnded _ St.done)
  obtain ⟨e, kept⟩ := run_of_changesOnly (s := s) (ps := [.ca, .power]) (c := true) rfl (by decide) (frame.mono (by decide))
  have empty : Map.erase s.dev.ca.overlay (calKey (k / 64) (k % 64)) = [] := by
    rw [hv, calKey_split]
    simp [Map.erase]
  exact ⟨_, (congrArg (run s true) ((calRestore_of_idle h).trans poll)).trans e, ⟨rfl, rfl⟩, empty, rfl, rfl, kept⟩

/-! ### Commands that are refused (R429) -/

theorem calWrite_of_refused {s : State} (h : calIdle s) {op : Nat} {st : Status} (hc : s.dev.calCheck (calJob s op) = some st) :
    s.dev.calCommand (fun d => d.calWrite op [false]) = (withJob s.dev (calJob s op)).calFinish (calJob s op) st :=
  (calWrite_of_idle h op).trans (calPoll_of_refused hc)

/-- A refused command of the hinge: its status, no record changed, and the missing right raised (R429, R333). -/
theorem calFinish_refused (d : Device) {j : CalJob} (hm : j.monitor = false) (st : Status) : ∃ d',
    (withJob d j).calFinish j st = d' ∧ d'.ca.jobs = [] ∧ d'.ca.cmd.status = st.toNat ∧ d'.ca.overlay = d.ca.overlay ∧ d'.ca.factory = d.ca.factory ∧
    (st = St.rightMissing → { source := 1492 } ∈ d'.fc.incoming) ∧ changesOnly [.ca, .hs, .ul, .out, .fc] d d' := by
  refine ⟨_, rfl, ?_⟩
  have frame : changesOnly [.ca, .hs, .ul, .out, .fc] d ((withJob d j).calFinish j st) :=
    ((changesOnly_withJob d j).then (changesOnly_calFinish _ j st)).mono (by decide)
  by_cases hs : st = St.rightMissing
  · have ca : ((withJob d j).calFinish j st).ca =
        { d.ca with jobs := [], cmd := { d.ca.cmd with status := St.rightMissing.toNat } } := by
      rw [hs, Device.calFinish, calAnswer_of_host_denied hm, Device.onCa, changesOnly_denied _ .ca (by decide)]
      rfl
    have raised : ((withJob d j).calFinish j st).fc.incoming = d.fc.incoming ++ [{ source := 1492 }] := by
      rw [hs, Device.calFinish, calAnswer_of_host_denied hm]
      exact congrArg Collector.incoming (denied_fc _)
    rw [ca, raised, hs]
    exact ⟨rfl, rfl, rfl, rfl, fun _ => List.mem_append_right _ (List.mem_singleton.mpr rfl), hs ▸ frame⟩
  · rw [calFinish_of_host hm hs] at frame ⊢
    exact ⟨rfl, rfl, rfl, rfl, fun bad => absurd bad hs, frame⟩

theorem exec_calWrite_refused (op : Nat) (c : Instr) (st : Status) (s : State)
    (hmem : (op, c) ∈ [(2, Instr.caSet false), (3, .caDrop false), (5, .caFactorySet false)]) (h : calIdle s)
    (hc : s.dev.calCheck (calJob s op) = some st) : ∃ t, exec c s = .next t ∧ calEnded t st ∧
    t.dev.ca.overlay = s.dev.ca.overlay ∧ t.dev.ca.factory = s.dev.ca.factory ∧ (st = St.rightMissing → { source := 1492 } ∈ t.dev.fc.incoming) ∧
    keepsRest [.ca, .hs, .fc, .ul, .out] s t := by
  have issued : exec c s = run s true (s.dev.calCommand fun d => d.calWrite op [false]) := by
    simp only [List.mem_cons, List.not_mem_nil, or_false, Prod.mk.injEq] at hmem
    obtain ⟨rfl, rfl⟩ | ⟨rfl, rfl⟩ | ⟨rfl, rfl⟩ := hmem
    all_goals rfl
  obtain ⟨d', hd, jobs, status, overlay, factory, raised, frame⟩ := calFinish_refused s.dev (j := calJob s op) rfl st
  obtain ⟨e, k⟩ := run_of_changesOnly (s := s) (ps := [.ca, .hs, .fc, .ul, .out]) (c := true) rfl (by decide) (frame.mono (by decide))
  exact ⟨_, issued.trans ((congrArg (run s true) ((calWrite_of_refused h hc).trans hd)).trans e), ⟨jobs, status⟩, overlay, factory, raised, k⟩

/-- A command that meets one still running (R429). -/
theorem calCommand_of_busy {s : State} (h : hostOpen s) (hj : s.dev.ca.jobs ≠ []) (f : Device → Device) :
    s.dev.calCommand f = s.dev.onCa fun a => { a with cmd := { a.cmd with overrun := true } } := by
  have busy : s.dev.ca.jobs.isEmpty = false := by simpa using hj
  rw [Device.calCommand, hostDo_of_hostOpen h, Device.calIssue, busy]
  rfl

theorem exec_calRows_overrun (c : Instr) (hmem : c ∈ calRows) (s : State) (h : hostOpen s) (hj : s.dev.ca.jobs ≠ []) :
    exec c s = .next { s with dev := s.dev.onCa fun a => { a with cmd := { a.cmd with overrun := true } } } := by
  have issued : ∃ f, exec c s = run s true (s.dev.calCommand f) := by
    simp only [calRows, List.mem_cons, List.not_mem_nil, or_false] at hmem
    obtain rfl | rfl | rfl | rfl | rfl := hmem
    all_goals exact ⟨_, rfl⟩
  obtain ⟨f, hf⟩ := issued
  rw [hf, calCommand_of_busy h hj]
  exact (run_of_changesOnly (s := s) (c := true) rfl (by decide) (changesOnly_onCa s.dev _)).1

/-- Settles O49: each clause is what the engine does with a command that it finds alone, or a busy engine's OVERRUN. -/
theorem calibrationCommands : Obligations.CalibrationCommands :=
  ⟨exec_caRead, exec_caRead_unknown, exec_caSet, exec_caDrop, exec_caRestoreFactory_empty, exec_caRestoreFactory_last, exec_caFactorySet,
    exec_caSet_waiting, exec_calWrite_refused, exec_calRows_overrun⟩

end Sys2Proof.Safety
end

section
/-! MonitorReports (R432, R434, R435): a line that is heard is answered by its values and `ok`; one that is not does nothing. -/

namespace Sys2Proof.Safety

open Sys2Proof.Machine

/-! ### A line is heard (R434, R438) -/

/-- A valid line confirms the rate (R438). -/
def lineHeard (d : Device) : Device := d.onCa fun c => { c with baudTrial := false }

theorem changesOnly_lineHeard (d : Device) : changesOnly [.ca] d (lineHeard d) := changesOnly_onCa d _

/-- A monitor that answers acts on every line that it may answer in the state (R434). -/
theorem monitor_of_on {d : Device} (h : d.monitorOn = true) {always : Bool} (ha : d.scrapped = false ∨ always = true) (f : Device → Device) :
    d.monitor always f = f (lineHeard d) := by
  refine if_neg ?_
  obtain hs | hs := ha
  · simp [h, hs]
  · simp [h, hs]

theorem monitor_of_heard {s : State} (h : monitorHeard s) (always : Bool) (f : Device → Device) : s.dev.monitor always f = f (lineHeard s.dev) :=
  monitor_of_on h.1.1 (.inl h.1.2) f

/-- A silent monitor does nothing (R434). -/
theorem monitor_of_off {d : Device} (h : d.monitorOn = false) (always : Bool) (f : Device → Device) : d.monitor always f = d :=
  if_pos (by simp [h])

/-- In Scrapped the monitor does nothing for most lines (R434). -/
theorem monitor_of_scrapped {d : Device} (h : d.scrapped = true) (f : Device → Device) : d.monitor false f = d := if_pos (by simp [h])

/-! ### What a reply sends (R433) -/

theorem monEnd_done {d : Device} (h : d.jt.holds = false) : d.monEnd St.done = d.emit okLine :=
  (if_pos rfl).trans (pinOut_of_free h _)

theorem monEnd_err {d : Device} (h : d.jt.holds = false) {st : Status} (hs : st ≠ St.done) : d.monEnd st = d.emit (errLine st) :=
  (if_neg hs).trans (pinOut_of_free h _)

theorem monOk_of_free {d : Device} (h : d.jt.holds = false) (text : String) (vs : List Nat) :
    d.monOk text vs = (d.emit (.monitor text vs)).emit okLine := by
  rw [Device.monOk, Device.monLine, pinOut_of_free h]
  exact monEnd_done h

/-- A heard line that only reads is answered with its values and `ok` (R433, R435). -/
theorem run_report {s : State} (on : s.dev.monitorOn = true) (free : s.dev.jt.holds = false) {always : Bool}
    (ha : s.dev.scrapped = false ∨ always = true) (text : String) (vs : Device → List Nat) : ∃ t,
    run s true (s.dev.monitor always fun d => d.monOk text (vs d)) = .next t ∧ monReplied s t [.monitor text (vs (lineHeard s.dev)), okLine] := by
  have said : s.dev.monitor always (fun d => d.monOk text (vs d)) = ((lineHeard s.dev).emit (.monitor text (vs (lineHeard s.dev)))).emit okLine :=
    (monitor_of_on on ha _).trans (monOk_of_free (d := lineHeard s.dev) free text _)
  obtain ⟨e, k⟩ := run_of_changesOnly (s := s) (ps := [.ca, .out]) (c := true) rfl (by decide)
    ((((changesOnly_lineHeard s.dev).then (changesOnly_emit _ (.monitor text (vs (lineHeard s.dev))))).then (changesOnly_emit _ okLine)).mono (by decide))
  exact ⟨_, (congrArg (run s true) said).trans e, rfl, List.append_assoc _ _ _, k⟩

theorem run_report_heard {s : State} (h : monitorHeard s) (always : Bool) (text : String) (vs : Device → List Nat)
    (hv : vs (lineHeard s.dev) = vs s.dev) : ∃ t,
    run s true (s.dev.monitor always fun d => d.monOk text (vs d)) = .next t ∧ monReplied s t [.monitor text (vs s.dev), okLine] := by
  rw [← hv]
  exact run_report h.1.1 h.2 (.inl h.1.2) text vs

/-- A heard line that is refused is answered by its error alone (R433). -/
theorem run_refused {s : State} (h : monitorHeard s) {f : Device → Device} {st : Status} (hs : st ≠ St.done)
    (hf : f (lineHeard s.dev) = (lineHeard s.dev).monEnd st) : ∃ t, run s true (s.dev.monitor false f) = .next t ∧ monReplied s t [errLine st] := by
  have said : s.dev.monitor false f = (lineHeard s.dev).emit (errLine st) :=
    (monitor_of_heard h false f).trans (hf.trans (monEnd_err (d := lineHeard s.dev) h.2 hs))
  obtain ⟨e, k⟩ := run_of_changesOnly (s := s) (ps := [.ca, .out]) (c := true) rfl (by decide)
    ((changesOnly_lineHeard s.dev).then (changesOnly_emit _ (errLine st)))
  exact ⟨_, (congrArg (run s true) said).trans e, rfl, rfl, k⟩

/-! ### The reports (R435) -/

theorem exec_monHelp (s : State) (h : monitorHeard s) : ∃ t, exec .monHelp s = .next t ∧ monReplied s t [.monitor "help" [], okLine] :=
  run_report_heard h false "help" (fun _ => []) rfl

theorem exec_monVer (s : State) (h : monitorHeard s) : ∃ t, exec .monVer s = .next t ∧
    monReplied s t [.monitor "ver" [s.dev.readId 0, s.dev.readId 4, Config.serial, s.dev.mc.bank, ((s.dev.mc.ver (s.dev.mc.bank == 1)).getD 0)],
      okLine] :=
  run_report_heard h true "ver" (fun d => [d.readId 0x00, d.readId 0x04, Config.serial, d.mc.bank, ((d.mc.ver (d.mc.bank == 1)).getD 0)]) rfl

theorem exec_monHasp (s : State) (h : monitorHeard s) : ∃ t, exec .monHasp s = .next t ∧
    monReplied s t [.monitor "hasp" [s.dev.hasp, s.dev.hs.rights, s.dev.hs.boot], okLine] :=
  run_report_heard h true "hasp" (fun d => [d.hasp, d.hs.rights, d.hs.boot]) rfl

theorem exec_monBeats (s : State) (h : monitorHeard s) : ∃ t, exec .monBeats s = .next t ∧
    monReplied s t [.monitor "beats" [s.dev.sc.beat, s.dev.power.applied, s.dev.turns.length], okLine] :=
  run_report_heard h false "beats" (fun d => [d.sc.beat, d.power.applied, d.turns.length]) rfl

theorem exec_monFaults (s : State) (h : monitorHeard s) : ∃ t, exec .monFaults s = .next t ∧
    monReplied s t [.monitor "faults" (s.dev.readFc 0x08 :: (List.range 1536).filter fun n => s.dev.fc.sticky.getLsbD n), okLine] :=
  run_report_heard h true "faults" (fun d => d.readFc 0x08 :: (List.range 1536).filter fun n => d.fc.sticky.getLsbD n) rfl

theorem exec_monWard (s : State) (h : monitorHeard s) : ∃ t, exec .monWard s = .next t ∧
    monReplied s t [.monitor "ward" [s.dev.tp.sticky, s.dev.tp.wardLast, s.dev.tp.rekeys], okLine] :=
  run_report_heard h false "ward" (fun d => [d.tp.sticky, d.tp.wardLast, d.tp.rekeys]) rfl

theorem exec_monNoise (s : State) (h : monitorHeard s) : ∃ t, exec .monNoise s = .next t ∧
    monReplied s t [.monitor "noise" (s.dev.readNs 0 :: (List.range 32).flatMap fun p => [(s.dev.ns.pin p).state.code, (s.dev.ns.pin p).consec]),
      okLine] :=
  run_report_heard h false "noise" (fun d => d.readNs 0 :: (List.range 32).flatMap fun p => [(d.ns.pin p).state.code, (d.ns.pin p).consec]) rfl

theorem exec_monPatch (s : State) (h : monitorHeard s) : ∃ t, exec .monPatch s = .next t ∧
    monReplied s t [.monitor "patch" (s.dev.readMc 0 ::
      (List.range 4).flatMap fun k => [s.dev.readMc (0x20 + 4 * k), s.dev.readMc (0x30 + 4 * k), s.dev.readMc (0x40 + 4 * k)]), okLine] :=
  run_report_heard h false "patch"
    (fun d => d.readMc 0 :: (List.range 4).flatMap fun k => [d.readMc (0x20 + 4 * k), d.readMc (0x30 + 4 * k), d.readMc (0x40 + 4 * k)]) rfl

theorem exec_monCal (code inst : Nat) (s : State) (h : monitorHeard s) (hk : calKnown code inst = true) : ∃ t,
    exec (.monCal code inst) s = .next t ∧
    monReplied s t [.monitor "cal" (s.dev.ca.source code inst :: calWords (s.dev.ca.effective code inst)), okLine] := by
  obtain ⟨t, e, replied⟩ := run_report_heard h false "cal" (fun d => d.ca.source code inst :: calWords (d.ca.effective code inst)) rfl
  refine ⟨t, Eq.trans ?_ e, replied⟩
  have known : (fun d : Device => if calKnown code inst then
      d.monOk "cal" (d.ca.source code inst :: calWords (d.ca.effective code inst)) else d.monEnd St.badArgument) =
      fun d => d.monOk "cal" (d.ca.source code inst :: calWords (d.ca.effective code inst)) := funext fun d => if_pos hk
  exact congrArg (fun f => run s true (s.dev.monitor false f)) known

theorem exec_monCal_unknown (code inst : Nat) (s : State) (h : monitorHeard s) (hk : calKnown code inst = false) : ∃ t,
    exec (.monCal code inst) s = .next t ∧ monReplied s t [errLine St.badArgument] :=
  run_refused h (by decide) (if_neg (by simp [hk]))

/-! ### Lines that are not heard (R434) -/

/-- A command that does nothing in a silent monitor, nor in Scrapped unless it is one of the three lines answered there (R434). -/
def unheard (s : State) (c : Instr) : Prop :=
  (s.dev.monitorOn = false → exec c s = .next s) ∧ (s.dev.scrapped = true → c ∉ [Instr.monVer, .monHasp, .monFaults] → exec c s = .next s)

section
variable {s : State} {c : Instr}

theorem unheard_of_line (f : Device → Device) (he : exec c s = run s true (s.dev.monitor false f)) : unheard s c :=
  ⟨fun h => he.trans (congrArg (run s true) (monitor_of_off h false f)), fun h _ => he.trans (congrArg (run s true) (monitor_of_scrapped h f))⟩

theorem unheard_of_always (f : Device → Device) (hm : c ∈ [Instr.monVer, .monHasp, .monFaults])
    (he : exec c s = run s true (s.dev.monitor true f)) : unheard s c :=
  ⟨fun h => he.trans (congrArg (run s true) (monitor_of_off h true f)), fun _ hn => absurd hm hn⟩

theorem unheard_of_bad (he : exec c s = run s true (if s.dev.monitorOn && !s.dev.scrapped then s.dev.monEnd St.badArgument else s.dev)) :
    unheard s c :=
  ⟨fun h => he.trans (congrArg (run s true) (if_neg (by simp [h]))), fun h _ => he.trans (congrArg (run s true) (if_neg (by simp [h])))⟩

end

theorem unheard_monRows (s : State) : ∀ c ∈ monRows, unheard s c := by
  simp only [monRows, List.forall_mem_cons]
  exact ⟨unheard_of_line _ rfl, unheard_of_always _ (by simp) rfl, unheard_of_always _ (by simp) rfl, unheard_of_line _ rfl,
    unheard_of_always _ (by simp) rfl, unheard_of_line _ rfl, unheard_of_line _ rfl, unheard_of_line _ rfl, unheard_of_line _ rfl,
    unheard_of_line _ rfl, unheard_of_line _ rfl, unheard_of_line _ rfl, unheard_of_line _ rfl, unheard_of_line _ rfl, unheard_of_line _ rfl,
    unheard_of_line _ rfl, unheard_of_line _ rfl, unheard_of_bad rfl, unheard_of_line _ rfl, unheard_of_line _ rfl, unheard_of_bad rfl,
    List.forall_mem_nil _⟩

/-- The hasp value of a scrapped device is that of Scrapped (R316). -/
theorem hasp_of_scrapped {d : Device} (h : d.scrapped = true) : d.hasp = 8 := by simpa [Device.scrapped] using h

theorem exec_monHasp_scrapped (s : State) (on : s.dev.monitorOn = true) (free : s.dev.jt.holds = false) (h : s.dev.scrapped = true) : ∃ t,
    exec .monHasp s = .next t ∧ monReplied s t [.monitor "hasp" [8, s.dev.hs.rights, s.dev.hs.boot], okLine] := by
  rw [← hasp_of_scrapped h]
  exact run_report on free (.inr rfl) "hasp" fun d => [d.hasp, d.hs.rights, d.hs.boot]

/-- Settles O50, clause by clause: the reports, and the lines that nothing answers. -/
theorem monitorReports : Obligations.MonitorReports :=
  ⟨exec_monHelp, exec_monVer, exec_monHasp, exec_monBeats, exec_monFaults, exec_monWard, exec_monNoise, exec_monCal, exec_monCal_unknown, exec_monPatch,
    fun c hc s => (unheard_monRows s c hc).1, fun c hc s => (unheard_monRows s c hc).2, exec_monHasp_scrapped⟩

end Sys2Proof.Safety
end

section
/-! MonitorCommands (R333, R429 to R431, R433, R435 to R438): the accesses with their rights and without them, the certificate, the rate, and the
calibration commands that the monitor gives. -/

namespace Sys2Proof.Safety

open Sys2Proof.Machine

/-! ### A heard line that does one thing and answers (R433, R435) -/

/-- A heard line whose work keeps the TAP's hold off the pins ends with `ok`. -/
theorem run_done {s : State} (h : monitorHeard s) {f g : Device → Device} {ps qs : List Part}
    (hf : f (lineHeard s.dev) = (g (lineHeard s.dev)).monEnd St.done)
    (frame : changesOnly ps (lineHeard s.dev) (g (lineHeard s.dev))) (hj : Part.jt ∉ ps) (hp : Part.perm ∉ qs)
    (hq : ∀ p ∈ [.ca] ++ ps ++ [.out], p ∈ qs) :
    run s true (s.dev.monitor false f) = .next { s with dev := (g (lineHeard s.dev)).emit okLine } ∧
      keepsRest qs s { s with dev := (g (lineHeard s.dev)).emit okLine } := by
  have free : (g (lineHeard s.dev)).jt.holds = false := (congrArg Tap.holds (frame .jt hj)).trans h.2
  have said : s.dev.monitor false f = (g (lineHeard s.dev)).emit okLine := (monitor_of_heard h false f).trans (hf.trans (monEnd_done free))
  obtain ⟨e, k⟩ := run_of_changesOnly (s := s) (c := true) rfl hp
    ((((changesOnly_lineHeard s.dev).then frame).then (changesOnly_emit _ okLine)).mono hq)
  exact ⟨(congrArg (run s true) said).trans e, k⟩

/-! ### Rights (R333, R439) -/

theorem monRight_of_right {d : Device} {bit : Nat} (h : d.right bit = true) (f : Device → Device) : d.monRight bit f = f d := if_pos h

/-- A command of the monitor without its right (R333, R439). -/
def monRefused (d : Device) : Device := d.denied.onCa fun c => { c with evt := c.evt ||| 4 }

theorem monRight_of_no_right {d : Device} {bit : Nat} (h : d.right bit = false) (f : Device → Device) :
    d.monRight bit f = (monRefused d).monEnd St.rightMissing := if_neg (by simp [h])

theorem changesOnly_monRefused (d : Device) : changesOnly [.hs, .ul, .out, .fc, .ca] d (monRefused d) :=
  (changesOnly_denied d).then (changesOnly_onCa _ _)

/-- A heard command that lacks its right is answered by `err 60a0` and raises the debug-access fault (R333, R433). -/
theorem run_no_right {s : State} (h : monitorHeard s) {bit : Nat} (hr : s.dev.right bit = false) (f : Device → Device) : ∃ t,
    run s true (s.dev.monitor false fun d => d.monRight bit f) = .next t ∧ deniedIn s t ∧ t.dev.ca.evt = s.dev.ca.evt ||| 4 ∧
    t.dev.out.getLast? = some (errLine St.rightMissing) ∧ keepsRest [.hs, .fc, .ca, .ul, .out] s t := by
  have frame := changesOnly_monRefused (lineHeard s.dev)
  have free : (monRefused (lineHeard s.dev)).jt.holds = false := (congrArg Tap.holds (frame .jt (by decide))).trans h.2
  have said : s.dev.monitor false (fun d => d.monRight bit f) = (monRefused (lineHeard s.dev)).emit (errLine St.rightMissing) :=
    (monitor_of_heard h false _).trans ((monRight_of_no_right (d := lineHeard s.dev) hr f).trans (monEnd_err free (by decide)))
  obtain ⟨e, k⟩ := run_of_changesOnly (s := s) (ps := [.hs, .fc, .ca, .ul, .out]) (c := true) rfl (by decide)
    ((((changesOnly_lineHeard s.dev).then frame).then (changesOnly_emit _ (errLine St.rightMissing))).mono (by decide))
  exact ⟨_, (congrArg (run s true) said).trans e, ⟨denied_hs (lineHeard s.dev), denied_fc (lineHeard s.dev)⟩,
    (congrArg (fun c : Cal => c.evt ||| 4) (changesOnly_denied (lineHeard s.dev) .ca (by decide)) :), List.getLast?_concat, k⟩

theorem exec_monWrite_denied (c : Instr) (s : State) (h : monitorHeard s) (hr : s.dev.right 1 = false)
    (hc : (∃ src, c = .monFaultsClear src) ∨ (∃ off v, c = .monPoke off v)) : ∃ t, exec c s = .next t ∧
    deniedIn s t ∧ t.dev.ca.evt = s.dev.ca.evt ||| 4 ∧ t.dev.out.getLast? = some (errLine St.rightMissing) ∧
    keepsRest [.hs, .fc, .ca, .ul, .out] s t := by
  obtain ⟨src, rfl⟩ | ⟨off, v, rfl⟩ := hc
  · exact run_no_right h hr _
  · exact run_no_right h hr _

theorem exec_monRead_denied (c : Instr) (s : State) (h : monitorHeard s) (hr : s.dev.right 0 = false)
    (hc : (∃ off, c = .monPeek off) ∨ (∃ off n, c = .monDump off n)) : ∃ t, exec c s = .next t ∧
    deniedIn s t ∧ t.dev.ca.evt = s.dev.ca.evt ||| 4 ∧ t.dev.out.getLast? = some (errLine St.rightMissing) ∧
    keepsRest [.hs, .fc, .ca, .ul, .out] s t := by
  obtain ⟨off, rfl⟩ | ⟨off, n, rfl⟩ := hc
  · exact run_no_right h hr _
  · exact run_no_right h hr _

/-! ### Faults are cleared (R435) -/

/-- FC_STICKY of a source (R350). -/
theorem clearFc_sticky (d : Device) {src : Nat} (h : src < 1536) (v : Nat) :
    d.clearFc (0x100 + src / 32 * 4) v = { d with fc := d.fc.clearSticky (src / 32) v } := by
  have word : (0x100 + src / 32 * 4 - 0x100) / 4 = src / 32 := by omega
  unfold Device.clearFc
  rw [if_pos (by omega), word]

theorem exec_monFaultsClear (src : Nat) (s : State) (h : monitorHeard s) (hr : s.dev.right 1 = true) (hs : src < 1536) : ∃ t,
    exec (.monFaultsClear src) s = .next t ∧
    t.dev.fc = s.dev.fc.clearSticky (src / 32) (2 ^ (src % 32)) ∧ t.dev.out = s.dev.out ++ [okLine] ∧ keepsRest [.ca, .fc, .out] s t := by
  obtain ⟨e, k⟩ := run_done h (f := fun d => d.monRight 1 fun d => (d.clearFc (0x100 + src / 32 * 4) (2 ^ (src % 32))).monEnd St.done)
    (g := fun d => { d with fc := d.fc.clearSticky (src / 32) (2 ^ (src % 32)) }) (ps := [.fc]) (qs := [.ca, .fc, .out])
    ((monRight_of_right (d := lineHeard s.dev) hr _).trans (congrArg (Device.monEnd · St.done) (clearFc_sticky _ hs _)))
    (changesOnly_fc _ _) (by decide) (by decide) (by decide)
  exact ⟨_, e, rfl, rfl, k⟩

/-! ### Reads of BAR0 (R436) -/

/-- Every block of BAR0 answers the monitor (R321, R360, R393). -/
theorem blockServed_of_monitorOpen {s : State} (h : monitorOpen s) (b : Nat) : s.dev.blockServed b = true := by
  obtain ⟨on, free⟩ := h
  simp only [Device.monitorOn, Bool.and_eq_true, Bool.not_eq_true'] at on
  obtain ⟨⟨⟨⟨-, unshackled⟩, -⟩, -⟩, full⟩ := on
  simp [Device.blockServed, unshackled, full, free]

/-- A register outside the vault with no effect of its own, in a block that serves and that no reset holds, is read as it stands (R25). -/
theorem regRead_of_served {d : Device} (hb : ∀ b, d.blockServed b = true) {off : Nat} (hv : inVault off = false) (hh : d.held off = false)
    (hx : off ≠ 0x60028 ∧ off ≠ 0xC0064 ∧ off ≠ 0xE0024) : d.regRead off = (d.live off, d) := by
  obtain ⟨h1, h2, h3⟩ := hx
  simp [Device.regRead, hb, hv, hh, h1, h2, h3]

theorem changesOnly_rawCore (d : Device) : changesOnly [.ns, .hs, .ul, .out, .fc] d d.rawCore.2 := by
  unfold Device.rawCore
  split
  · exact (changesOnly_denied d).mono (by decide)
  · exact (changesOnly_onNs d fun n => { n with rawAddr := (n.rawAddr + 1) % 2 ^ 18 }).mono (by decide)

/-- A read of a word changes no more than the ports of raw data and trace, the debug-access fault and what the pins answer (R27, R333). -/
theorem changesOnly_regRead (d : Device) (off : Nat) : changesOnly [.ns, .mc, .hs, .fc, .ul, .fresh, .out] d (d.regRead off).2 := by
  unfold Device.regRead
  split
  · exact changesOnly.refl _ d
  split
  · unfold Device.vaultRead
    split
    · exact (changesOnly_denied d).mono (by decide)
    · exact changesOnly.refl _ d
  split
  · exact changesOnly.refl _ d
  split
  · exact (changesOnly_rawCore d).mono (by decide)
  split
  · exact (changesOnly_mc d _).mono (by decide)
  split
  · exact (changesOnly_fresh d _).mono (by decide)
  · exact changesOnly.refl _ d

theorem changesOnly_pairRead (d : Device) (base off : Nat) : changesOnly [.ns, .mc, .hs, .fc, .ul, .fresh, .out, .pairs] d (d.pairRead base off).2 := by
  unfold Device.pairRead
  have read := changesOnly_regRead d off
  simp only
  split
  · exact read.then (changesOnly_pairs _ _)
  split
  · exact read.then (changesOnly_pairs _ _)
  · exact read.mono (by decide)

theorem monAccess_of_word (d : Device) {off : Nat} (ho : off % 4 = 0) (hm : off < 0x4000000) (f : Device → Device) : d.monAccess off f = f d := by
  rw [Device.monAccess, if_neg (by omega), if_neg (by omega)]

/-- A peek at a word that the monitor may name (R436). -/
theorem monPeek_heard {s : State} (h : monitorHeard s) (hr : s.dev.right 0 = true) {off : Nat} (ho : off % 4 = 0) (hm : off < 0x4000000) :
    exec (.monPeek off) s = run s true ((((lineHeard s.dev).monRead off).2).monOk "peek" [((lineHeard s.dev).monRead off).1]) :=
  congrArg (run s true) ((monitor_of_heard h false _).trans ((monRight_of_right (d := lineHeard s.dev) hr _).trans (monAccess_of_word _ ho hm _)))

theorem exec_monPeek (off : Nat) (s : State) (h : monitorHeard s) (hr : s.dev.right 0 = true) (ho : off % 4 = 0) (hm : off < 0x4000000) : ∃ t v,
    exec (.monPeek off) s = .next t ∧
    t.dev.out.dropLast.getLast? = some (.monitor "peek" [v]) ∧ t.dev.out.getLast? = some okLine ∧
    keepsRest [.ca, .ns, .mc, .hs, .fc, .ul, .pairs, .fresh, .out] s t := by
  have frame : changesOnly [.ns, .mc, .hs, .fc, .ul, .fresh, .out, .pairs] (lineHeard s.dev) ((lineHeard s.dev).monRead off).2 :=
    changesOnly_pairRead (lineHeard s.dev) 0x4000000 off
  have free : ((lineHeard s.dev).monRead off).2.jt.holds = false := (congrArg Tap.holds (frame .jt (by decide))).trans h.2
  obtain ⟨e, k⟩ := run_of_changesOnly (s := s) (ps := [.ca, .ns, .mc, .hs, .fc, .ul, .pairs, .fresh, .out]) (c := true) rfl (by decide)
    (((((changesOnly_lineHeard s.dev).then frame).then (changesOnly_emit _ (.monitor "peek" [((lineHeard s.dev).monRead off).1]))).then
      (changesOnly_emit _ okLine)).mono (by decide))
  refine ⟨_, ((lineHeard s.dev).monRead off).1, (monPeek_heard h hr ho hm).trans ((congrArg (run s true) (monOk_of_free free _ _)).trans e), ?_,
    List.getLast?_concat, k⟩
  exact (congrArg List.getLast? (List.dropLast_concat)).trans List.getLast?_concat

/-- A register of the identity page that no high half shadows is read as it stands by the monitor (R436). -/
theorem monRead_id {s : State} (h : monitorHeard s) {off : Nat} (hp : off / 65536 = 0) (hl : pairLo off = false)
    (hn : noShadow s (0x4000000 + off)) : (lineHeard s.dev).monRead off = ((lineHeard s.dev).live off, lineHeard s.dev) := by
  have small : off < 65536 := by omega
  have read : (lineHeard s.dev).regRead off = ((lineHeard s.dev).live off, lineHeard s.dev) :=
    regRead_of_served (d := lineHeard s.dev) (blockServed_of_monitorOpen h.1) (inVault_of_page (by omega)) (held_of_page (.inl hp)) (by omega)
  exact (pairRead_plain hl (by rw [read]; exact hn)).trans read

theorem exec_monPeek_scratch (s : State) (h : monitorHeard s) (hr : s.dev.right 0 = true) (hn : noShadow s (0x4000000 + 0x24)) : ∃ t,
    exec (.monPeek 0x24) s = .next t ∧ monReplied s t [.monitor "peek" [s.dev.hg.scratch], okLine] := by
  obtain ⟨t, e, replied⟩ := run_report_heard h false "peek" (fun d => [d.hg.scratch]) rfl
  refine ⟨t, (monPeek_heard h hr (by decide) (by decide)).trans ?_, replied⟩
  rw [monRead_id h (by decide) (by decide) hn, ← e, monitor_of_heard h]
  rfl

theorem exec_monPeek_misaligned (off : Nat) (s : State) (h : monitorHeard s) (hr : s.dev.right 0 = true) (ho : off % 4 ≠ 0) : ∃ t,
    exec (.monPeek off) s = .next t ∧
    raisedIn s t 1232 ∧ t.dev.out = s.dev.out ++ [errLine St.badArgument] ∧ keepsRest [.ca, .fc, .out] s t := by
  have said : s.dev.monitor false (fun d => d.monRight 0 fun d => d.monAccess off fun d => ((d.monRead off).2).monOk "peek" [(d.monRead off).1]) =
      ((lineHeard s.dev).raiseSrc 1232).emit (errLine St.badArgument) :=
    (monitor_of_heard h false _).trans ((monRight_of_right (d := lineHeard s.dev) hr _).trans
      ((if_pos ho).trans (monEnd_err (d := (lineHeard s.dev).raiseSrc 1232) h.2 (by decide))))
  obtain ⟨e, k⟩ := run_of_changesOnly (s := s) (ps := [.ca, .fc, .out]) (c := true) rfl (by decide)
    (((changesOnly_lineHeard s.dev).then (changesOnly_raiseSrc _ 1232)).then (changesOnly_emit _ (errLine St.badArgument)))
  exact ⟨_, (congrArg (run s true) said).trans e, rfl, rfl, k⟩

theorem monWords_two (d : Device) {off v w : Nat} (h1 : d.monRead off = (v, d)) (h2 : d.monRead (off + 4) = (w, d)) :
    d.monWords off 2 = ([v, w], d) := by
  simp only [Device.monWords, h1, h2]

theorem exec_monDump_two (s : State) (h : monitorHeard s) (hr : s.dev.right 0 = true) (h0 : noShadow s (0x4000000 + 0x20))
    (h4 : noShadow s (0x4000000 + 0x24)) : ∃ t,
    exec (.monDump 0x20 2) s = .next t ∧ monReplied s t [.monitor "dump" [s.dev.live 0x20, s.dev.hg.scratch], okLine] := by
  obtain ⟨t, e, replied⟩ := run_report_heard h false "dump" (fun d => [d.live 0x20, d.hg.scratch]) rfl
  have words : (lineHeard s.dev).monWords 0x20 2 = ([(lineHeard s.dev).live 0x20, (lineHeard s.dev).hg.scratch], lineHeard s.dev) :=
    monWords_two _ (monRead_id h (by decide) (by decide) h0) (monRead_id (off := 0x24) h (by decide) (by decide) h4)
  have dumped : (lineHeard s.dev).monAccess 0x20 (fun d => ((d.monWords 0x20 2).2).monOk "dump" (d.monWords 0x20 2).1) =
      (lineHeard s.dev).monOk "dump" [(lineHeard s.dev).live 0x20, (lineHeard s.dev).hg.scratch] := by
    rw [monAccess_of_word _ (by decide) (by decide), words]
  refine ⟨t, Eq.trans (congrArg (run s true) ?_) e, replied⟩
  exact (monitor_of_heard h false _).trans ((monRight_of_right (d := lineHeard s.dev) hr _).trans
    ((if_neg (by decide)).trans (dumped.trans
      (monitor_of_heard h false fun d => d.monOk "dump" [d.live 0x20, d.hg.scratch]).symm)))

theorem exec_monDump_bad (off n : Nat) (s : State) (h : monitorHeard s) (hr : s.dev.right 0 = true) (hn : n = 0 ∨ 256 < n) : ∃ t,
    exec (.monDump off n) s = .next t ∧ monReplied s t [errLine St.badArgument] :=
  run_refused h (by decide) ((monRight_of_right (d := lineHeard s.dev) hr _).trans (if_pos (by omega)))

/-! ### A write of BAR0 (R436) -/

theorem exec_monPoke_scratch (v : Word) (s : State) (h : monitorHeard s) (hr : s.dev.right 1 = true) : ∃ t, exec (.monPoke 0x24 v) s = .next t ∧
    t.dev.hg = { s.dev.hg with scratch := v.toNat } ∧ t.dev.out = s.dev.out ++ [okLine] ∧ keepsRest [.hg, .ca, .out] s t := by
  have unshackled : s.dev.shackled = false := by
    have on := h.1.1
    simp only [Device.monitorOn, Bool.and_eq_true, Bool.not_eq_true'] at on
    exact on.1.1.1.2
  have poked : (lineHeard s.dev).regWrite 0x24 v.toNat =
      { lineHeard s.dev with hg := { (lineHeard s.dev).hg with scratch := v.toNat } } := by
    have served : (lineHeard s.dev).blockServed (0x24 / 65536) = true := blockServed_of_monitorOpen h.1 _
    have unlocked : (lineHeard s.dev).shackled = false := unshackled
    have held : (lineHeard s.dev).held 0x24 = false := held_of_page (.inl (by decide))
    rw [Device.regWrite, served, unlocked, held, show inVault 0x24 = false from by decide]
    exact blockWrite_scratch _ _
  obtain ⟨e, k⟩ := run_done h (f := fun d => d.monRight 1 fun d => d.monAccess 0x24 fun d => (d.regWrite 0x24 v.toNat).monEnd St.done)
    (g := fun d => { d with hg := { d.hg with scratch := v.toNat } }) (ps := [.hg]) (qs := [.hg, .ca, .out])
    ((monRight_of_right (d := lineHeard s.dev) hr _).trans ((monAccess_of_word _ (by decide) (by decide) _).trans
      (congrArg (Device.monEnd · St.done) poked)))
    (changesOnly_hg _ _) (by decide) (by decide) (by decide)
  exact ⟨_, e, rfl, rfl, k⟩

/-! ### A certificate (R330, R437) -/

theorem openCert_of_accepted {d : Device} {c : Bytes} (h : (d.certEarly c false).or (d.certLate c false) = none) :
    d.openCert c = (St.done, d.grant c) := by
  rw [Device.openCert, h]

theorem openCert_of_refused {d : Device} {c : Bytes} {st : Status} (h : (d.certEarly c false).or (d.certLate c false) = some st) :
    d.openCert c = (st, d.certRefused) := by
  rw [Device.openCert, h]

theorem certChecks_lineHeard (d : Device) (c : Bytes) :
    ((lineHeard d).certEarly c false).or ((lineHeard d).certLate c false) = (d.certEarly c false).or (d.certLate c false) := rfl

/-- What the certificate leaves: its answer's status and the device. -/
theorem run_monOpen {s : State} (h : monitorHeard s) {cert : Bytes} {st : Status} {d' : Device} (ho : (lineHeard s.dev).openCert cert = (st, d')) :
    exec (.monOpen cert) s = run s true (d'.monEnd st) := by
  refine congrArg (run s true) ((monitor_of_heard h false _).trans ?_)
  simp only [ho]

theorem exec_monOpen (cert : Bytes) (s : State) (h : monitorHeard s) : ∃ t, exec (.monOpen cert) s = .next t ∧
    ((s.dev.certEarly cert false).or (s.dev.certLate cert false) = none →
      t.dev.hs.rights = s.dev.hs.rights ||| u8 cert 4 ∧ raisedIn s t 1494 ∧ t.dev.out.getLast? = some okLine) ∧
    (∀ st, (s.dev.certEarly cert false).or (s.dev.certLate cert false) = some st → st ≠ St.done →
      t.dev.hs.rights = s.dev.hs.rights ∧ raisedIn s t 1493 ∧ t.dev.out.getLast? = some (errLine st)) ∧
    keepsRest [.hs, .fc, .ca, .ul, .out] s t := by
  have told {e : Device} (he : changesOnly [.hs, .ul, .out, .fc] (lineHeard s.dev) e) (st : Status) :
      changesOnly [.hs, .fc, .ca, .ul, .out] s.dev (e.monEnd st) :=
    (((changesOnly_lineHeard s.dev).then he).then (changesOnly_monEnd e st)).mono (by decide)
  have free {e : Device} (he : changesOnly [.hs, .ul, .out, .fc] (lineHeard s.dev) e) : e.jt.holds = false :=
    (congrArg Tap.holds (he .jt (by decide))).trans h.2
  cases hc : (s.dev.certEarly cert false).or (s.dev.certLate cert false) with
  | none =>
    have granted := changesOnly_grant (lineHeard s.dev) cert
    obtain ⟨e, k⟩ := run_of_changesOnly (s := s) (c := true) rfl (by decide) (monEnd_done (free granted) ▸ told granted St.done)
    refine ⟨_, (run_monOpen h (openCert_of_accepted ((certChecks_lineHeard _ _).trans hc))).trans
      ((congrArg (run s true) (monEnd_done (free granted))).trans e), fun _ => ?_, nofun, k⟩
    exact ⟨congrArg Hasp.rights (grant_hs (lineHeard s.dev) cert), grant_fc (lineHeard s.dev) cert, List.getLast?_concat⟩
  | some st =>
    have refused := changesOnly_certRefused (lineHeard s.dev)
    obtain ⟨e, k⟩ := run_of_changesOnly (s := s) (c := true) rfl (by decide) (told refused st)
    refine ⟨_, (run_monOpen h (openCert_of_refused ((certChecks_lineHeard _ _).trans hc))).trans e, nofun, ?_, k⟩
    rintro _ ⟨⟩ bad
    rw [monEnd_err (free refused) bad]
    exact ⟨(congrArg Hasp.rights (certRefused_hs (lineHeard s.dev))).trans rfl, certRefused_fc (lineHeard s.dev), List.getLast?_concat⟩

/-! ### Lines that are not commands; rights dropped; the rate (R433, R435, R438) -/

theorem exec_monBad (c : Instr) (hc : c ∈ [Instr.monOpenTimeout, .monBadLine true, .monBadLine false]) (s : State) (h : monitorHeard s) :
    exec c s = .next { s with dev := s.dev.emit (errLine St.badArgument) } := by
  have issued : exec c s = run s true (if s.dev.monitorOn && !s.dev.scrapped then s.dev.monEnd St.badArgument else s.dev) := by
    obtain rfl | rfl | rfl : c = .monOpenTimeout ∨ c = .monBadLine true ∨ c = .monBadLine false := by simpa using hc
    all_goals rfl
  have said : (if s.dev.monitorOn && !s.dev.scrapped then s.dev.monEnd St.badArgument else s.dev) = s.dev.emit (errLine St.badArgument) :=
    (if_pos (by simp [h.1.1, h.1.2])).trans (monEnd_err h.2 (by decide))
  rw [issued, said]
  exact run_keepsPerm rfl

theorem exec_monDrop (s : State) (h : monitorHeard s) : ∃ t, exec .monDrop s = .next t ∧ t.dev.hs = { s.dev.hs with rights := 0 } ∧
    t.dev.out = s.dev.out ++ [okLine] ∧ keepsRest [.hs, .ca, .out] s t := by
  obtain ⟨e, k⟩ := run_done h (f := fun d => ({ d with hs := { d.hs with rights := 0 } } : Device).monEnd St.done)
    (g := fun d => { d with hs := { d.hs with rights := 0 } }) (ps := [.hs]) (qs := [.hs, .ca, .out]) rfl
    (changesOnly_hs _ _) (by decide) (by decide) (by decide)
  exact ⟨_, e, rfl, rfl, k⟩

theorem exec_monBaud (rate : Nat) (s : State) (h : monitorHeard s) (hr : rate < 8) : ∃ t, exec (.monBaud rate) s = .next t ∧
    t.dev.ca = { s.dev.ca with baud := rate, baudTrial := true } ∧ t.dev.out = s.dev.out ++ [okLine] ∧ keepsRest [.ca, .out] s t := by
  have said : s.dev.monitor false (fun d =>
      if rate < 8 then (d.monEnd St.done).onCa fun c => { c with baud := rate, baudTrial := true } else d.monEnd St.badArgument) =
      ((lineHeard s.dev).emit okLine).onCa fun c => { c with baud := rate, baudTrial := true } :=
    (monitor_of_heard h false _).trans ((if_pos hr).trans
      (congrArg (Device.onCa · fun c => { c with baud := rate, baudTrial := true }) (monEnd_done (d := lineHeard s.dev) h.2)))
  obtain ⟨e, k⟩ := run_of_changesOnly (s := s) (ps := [.ca, .out]) (c := true) rfl (by decide)
    ((((changesOnly_lineHeard s.dev).then (changesOnly_emit _ okLine)).then
      (changesOnly_onCa _ fun c => { c with baud := rate, baudTrial := true })).mono (by decide))
  exact ⟨_, (congrArg (run s true) said).trans e, rfl, rfl, k⟩

theorem exec_monBaudTimeout (s : State) (h : s.dev.ca.baudTrial = true) : ∃ t, exec .monBaudTimeout s = .next t ∧
    t.dev.ca = { s.dev.ca with baud := 0, baudTrial := false } ∧ keepsRest [.ca] s t := by
  obtain ⟨e, k⟩ := run_of_changesOnly (s := s) (c := s.dev.ca.baudTrial) h (by decide)
    (changesOnly_onCa s.dev fun c => { c with baud := 0, baudTrial := false })
  exact ⟨_, e, rfl, k⟩

/-! ### The calibration commands of the monitor (R429, R431, R433) -/

/-- A line write keeps the monitor as it answers. -/
theorem monitorOn_lineStored (d : Device) (j : CalJob) : (lineStored d j).monitorOn = d.monitorOn := by
  have frame := changesOnly_lineStored d j
  have boot : (lineStored d j).power.boot = d.power.boot := by
    unfold lineStored
    cases j.code == 0x08 && j.op != 5 <;> rfl
  have enabled : (lineStored d j).ca.monEn = d.ca.monEn := by
    rw [lineStored_ca]
    have stored : (d.ca.store j.op j.code j.inst j.value).monEn = d.ca.monEn := by
      unfold Cal.store
      split <;> rfl
    split
    · exact stored
    · exact stored
  rw [Device.monitorOn, Device.monitorOn, boot, enabled, frame .mc (by decide), Device.shackled, frame .fc (by decide)]
  rfl

/-- The command has left the engine (R429). -/
def jobDone (d : Device) : Device := d.onCa fun c => { c with jobs := c.jobs.tail }

theorem changesOnly_jobDone (d : Device) : changesOnly [.ca] d (jobDone d) := changesOnly_onCa d _

/-- A command of the monitor that ends with DONE is answered by `ok` (R433). -/
theorem calFinish_of_monitor {d : Device} {j : CalJob} (hm : j.monitor = true) (on : d.monitorOn = true) (free : d.jt.holds = false) :
    d.calFinish j St.done = (jobDone d).emit okLine := by
  have answers : (jobDone d).monitorOn = true := on
  have known : (St.done == St.rightMissing) = false := by decide
  rw [Device.calFinish, Device.calAnswer, known, hm]
  simp only [Device.when_false, Bool.not_true, Bool.false_eq_true, if_false]
  rw [show (d.onCa fun c => { c with jobs := c.jobs.tail }) = jobDone d from rfl, answers, Device.when_true]
  exact monEnd_done free

/-- The device after a write command of the monitor whose line was written (R429, R433). -/
def monLineEnded (d : Device) (j : CalJob) : Device := (jobDone (lineStored (withJob d j) j)).emit okLine

theorem calGive_of_monitor {d : Device} {j : CalJob} (hj : d.ca.jobs = []) (hc : d.calCheck j = none) (ho : j.op ≠ 4) (hw : d.calMayWrite = true)
    (hf : j.fails.headD false = false) (hm : j.monitor = true) (on : d.monitorOn = true) (free : d.jt.holds = false) :
    d.calGive j = monLineEnded d j := by
  rw [calGive_of_idle hj, calPoll_of_written hc ho hw hf, calStored_eq]
  exact calFinish_of_monitor hm ((monitorOn_lineStored _ j).trans on)
    ((congrArg Tap.holds (changesOnly_lineStored (withJob d j) j .jt (by decide))).trans free)

theorem changesOnly_monLineEnded (d : Device) (j : CalJob) : changesOnly [.ca, .power, .out] d (monLineEnded d j) :=
  ((((changesOnly_withJob d j).then (changesOnly_lineStored _ j)).then (changesOnly_onCa _ _)).then (changesOnly_emit _ okLine)).mono (by decide)

theorem changesOnly_monLineEnded_of_other (d : Device) {j : CalJob} (h : j.code ≠ 0x08 ∨ j.op = 5) :
    changesOnly [.ca, .out] d (monLineEnded d j) :=
  ((((changesOnly_withJob d j).then (lineStored_of_other h)).then (changesOnly_onCa _ _)).then (changesOnly_emit _ okLine)).mono (by decide)

theorem monLineEnded_out (d : Device) (j : CalJob) : (monLineEnded d j).out = d.out ++ [okLine] :=
  congrArg (· ++ [okLine]) (changesOnly_lineStored (withJob d j) j .out (by decide))

/-- A line write leaves the queue of commands as it is. -/
theorem monLineEnded_jobs (d : Device) {j : CalJob} (ho : j.op ≠ 5) : (monLineEnded d j).ca.jobs = [] := by
  have left : (lineStored (withJob d j) j).ca.jobs = [j] := by
    simp only [lineStored_ca, ho, if_false, store_jobs]
    rfl
  exact congrArg List.tail left

theorem monLineEnded_overlay (d : Device) {j : CalJob} (ho : j.op ≠ 5) :
    (monLineEnded d j).ca.overlay = ((withJob d j).ca.store j.op j.code j.inst j.value).overlay := by
  have stored : (lineStored (withJob d j) j).ca.overlay = ((withJob d j).ca.store j.op j.code j.inst j.value).overlay := by
    simp only [lineStored_ca, ho, if_false]
  exact stored

/-- A heard calibration command that the engine finds alone and whose line may be written at once. -/
theorem run_monCal {s : State} (h : monitorHeard s) (hj : s.dev.ca.jobs = []) (hw : s.dev.calMayWrite = true) {j : CalJob}
    (hc : (lineHeard s.dev).calCheck j = none) (ho : j.op ≠ 4) (hf : j.fails.headD false = false) (hm : j.monitor = true) :
    run s true (s.dev.monitor false fun d => d.calGive j) = run s true (monLineEnded (lineHeard s.dev) j) :=
  congrArg (run s true) ((monitor_of_heard h false _).trans (calGive_of_monitor (d := lineHeard s.dev) hj hc ho hw hf hm h.1.1 h.2))

/-- A write command of the monitor whose line verifies (R429). -/
def monJob (op code inst : Nat) (v : Bytes) : CalJob := { op := op, code := code, inst := inst, value := v, fails := [false], monitor := true }

theorem exec_monCalSet (code inst : Nat) (v : Bytes) (s : State) (h : monitorHeard s) (hj : s.dev.ca.jobs = []) (hw : s.dev.calMayWrite = true)
    (h8 : code ≠ 0x08) (hc : s.dev.calCheck { op := 2, code := code, inst := inst, value := fit 32 v } = none) : ∃ t,
    exec (.monCalSet code inst v false) s = .next t ∧
    Map.get? t.dev.ca.overlay (calKey code inst) = some { value := fit 32 v } ∧ t.dev.ca.jobs = [] ∧ t.dev.out = s.dev.out ++ [okLine] ∧
    keepsRest [.ca, .out] s t := by
  obtain ⟨e, k⟩ := run_of_changesOnly (s := s) (ps := [.ca, .out]) (c := true) rfl (by decide) (((changesOnly_lineHeard s.dev).then
    (changesOnly_monLineEnded_of_other (lineHeard s.dev) (j := monJob 2 code inst (fit 32 v)) (.inl h8))).mono (by decide))
  refine ⟨_, (run_monCal (j := monJob 2 code inst (fit 32 v)) h hj hw hc (by decide : (2 : Nat) ≠ 4) rfl rfl).trans e, ?_,
    monLineEnded_jobs _ (by decide : (2 : Nat) ≠ 5), monLineEnded_out _ _, k⟩
  exact (congrArg (fun m => Map.get? m (calKey code inst)) (monLineEnded_overlay _ (by decide : (2 : Nat) ≠ 5))).trans
    (store_set _ code inst (fit 32 v)).1

theorem exec_monCalDrop (code inst : Nat) (s : State) (h : monitorHeard s) (hj : s.dev.ca.jobs = []) (hw : s.dev.calMayWrite = true)
    (hc : s.dev.calCheck { op := 3, code := code, inst := inst } = none) : ∃ t, exec (.monCalDrop code inst false) s = .next t ∧
    t.dev.ca.overlay = Map.erase s.dev.ca.overlay (calKey code inst) ∧ t.dev.ca.jobs = [] ∧ t.dev.out = s.dev.out ++ [okLine] ∧
    keepsRest [.ca, .power, .out] s t := by
  obtain ⟨e, k⟩ := run_of_changesOnly (s := s) (ps := [.ca, .power, .out]) (c := true) rfl (by decide) (((changesOnly_lineHeard s.dev).then
    (changesOnly_monLineEnded (lineHeard s.dev) (monJob 3 code inst []))).mono (by decide))
  exact ⟨_, (run_monCal (j := monJob 3 code inst []) h hj hw hc (by decide : (3 : Nat) ≠ 4) rfl rfl).trans e,
    monLineEnded_overlay _ (by decide : (3 : Nat) ≠ 5), monLineEnded_jobs _ (by decide : (3 : Nat) ≠ 5), monLineEnded_out _ _, k⟩

theorem calRestored_eq (d : Device) (j : CalJob) : d.calRestored j = (restored d).calFinish j St.done := rfl

/-- The device after a restore of the monitor that finds no overlay (R431, R433). -/
def monRestored (d : Device) (j : CalJob) : Device := (jobDone (restored (withJob d j))).emit okLine

theorem changesOnly_monRestored (d : Device) (j : CalJob) : changesOnly [.ca, .power, .out] d (monRestored d j) :=
  ((((changesOnly_withJob d j).then (changesOnly_restored _)).then (changesOnly_jobDone _)).then (changesOnly_emit _ okLine)).mono (by decide)

theorem monRestored_ca (d : Device) (j : CalJob) : (monRestored d j).ca = { d.ca with jobs := [], evt := d.ca.evt ||| 2 } := rfl

theorem monRestored_out (d : Device) (j : CalJob) : (monRestored d j).out = d.out ++ [okLine] := rfl

theorem calGive_restore {d : Device} {j : CalJob} (hj : d.ca.jobs = []) (hc : d.calCheck j = none) (ho : j.op = 4) (hv : d.ca.overlay = [])
    (hm : j.monitor = true) (on : d.monitorOn = true) (free : d.jt.holds = false) : d.calGive j = monRestored d j := by
  rw [calGive_of_idle hj, calPoll_of_restored hc ho hv, calRestored_eq]
  exact calFinish_of_monitor hm on free

theorem exec_monCalRestore (s : State) (h : monitorHeard s) (hj : s.dev.ca.jobs = []) (hv : s.dev.ca.overlay = [])
    (hc : s.dev.calCheck { op := 4 } = none) : ∃ t,
    exec (.monCalRestore []) s = .next t ∧ t.dev.ca.overlay = [] ∧ t.dev.ca.jobs = [] ∧ t.dev.ca.evt = s.dev.ca.evt ||| 2 ∧
    t.dev.out = s.dev.out ++ [okLine] ∧ keepsRest [.ca, .power, .out] s t := by
  have given := calGive_restore (d := lineHeard s.dev) (j := { op := 4, monitor := true }) hj hc rfl hv rfl h.1.1 h.2
  obtain ⟨e, k⟩ := run_of_changesOnly (s := s) (ps := [.ca, .power, .out]) (c := true) rfl (by decide)
    (((changesOnly_lineHeard s.dev).then (changesOnly_monRestored (lineHeard s.dev) { op := 4, monitor := true })).mono (by decide))
  have ca := monRestored_ca (lineHeard s.dev) { op := 4, monitor := true }
  exact ⟨_, (congrArg (run s true) ((monitor_of_heard h false _).trans given)).trans e, (congrArg Cal.overlay ca :).trans hv, congrArg Cal.jobs ca,
    congrArg Cal.evt ca, monRestored_out _ _, k⟩

/-- Settles O51, clause by clause. -/
theorem monitorCommands : Obligations.MonitorCommands :=
  ⟨exec_monFaultsClear, exec_monWrite_denied, exec_monRead_denied, exec_monPeek_scratch, exec_monPeek, exec_monPeek_misaligned, exec_monDump_two,
    exec_monDump_bad, exec_monPoke_scratch, exec_monOpen, exec_monBad, exec_monDrop, exec_monBaud, exec_monBaudTimeout, exec_monCalSet, exec_monCalDrop,
    exec_monCalRestore⟩

end Sys2Proof.Safety
end

section
/-! CommitsAndEvidenceAreWritten (R54, R307, R370): a CREATE whose module is disabled while its commit is under way. -/

namespace Sys2Proof.Safety

open Sys2Proof.Machine

/-- CREATE of leaf 5 whose binding word names module 1 (R54, R62). -/
def createOnModuleOne : Job := { op := 1, leaf := 5, args := [0, 0, 2 ^ 24], phase := .committing }

/-- The commit of that CREATE is under way, and the host has disabled module 1 meanwhile (R54, log entry 94). -/
def createLosesModule : State :=
  { dev := { link1 := { enable := false, state := .disabled }, nv := { current := some { val := .leafGen 5 2 true 3, why := .job .hinge } },
             hg := { cmd := { job := some createOnModuleOne } } } }

/-- The binding is checked again after the commit, and a disabled module ends the command with BAD_ARGUMENT (R54, log entry 94). -/
theorem status_of_createLosesModule (t : State) (h : exec .commitDurable createLosesModule = .next t) :
    (t.dev.unit .hinge).status = St.badArgument.toNat := by
  have ended : (match exec .commitDurable createLosesModule with
      | .next t => (t.dev.unit .hinge).status == St.badArgument.toNat
      | _ => true) = true := by decide
  rw [h] at ended
  simpa using ended

/-- Refutes O55, in its fifth clause: the clause ends every CREATE whose commit is durable with DONE, and does not ask that the binding word still be
good. Where the host has disabled the module that it names while the commit was under way, the command ends with BAD_ARGUMENT (R54, log entry 94). -/
theorem not_commitsAndEvidenceAreWritten : ¬ Obligations.CommitsAndEvidenceAreWritten := by
  rintro ⟨_, _, _, _, created, _⟩
  obtain ⟨t, answers, ⟨_, done⟩, _⟩ := created 5 2 3 createOnModuleOne createLosesModule rfl rfl rfl rfl
  have refused := status_of_createLosesModule t answers
  rw [refused] at done
  exact absurd done (by decide)

end Sys2Proof.Safety
end

section
/-! What the entry to the shackle state leaves (R359), and what a collector message and a stop of ALIVE keep (R358, R363). -/

namespace Sys2Proof.Safety

open Sys2Proof.Machine

/-! ### ALIVE stops (R358) -/

theorem stopAlive_fc (d : Device) (level : Nat) : (d.stopAlive level).fc = { d.fc with alive := false, aliveStopped := true } := by
  unfold Device.stopAlive
  split <;> rfl

theorem changesOnly_stopAlive (d : Device) (level : Nat) : changesOnly [.fc, .lr] d (d.stopAlive level) := by
  unfold Device.stopAlive
  split
  · exact (changesOnly_fc d _).then (changesOnly_lr _ _)
  · exact (changesOnly_fc d _).mono (by decide)

/-! ### The shackle state (R359) -/

/-- The entropy output stops at the entry to the shackle state (R293, R359). -/
def entropyStops (d : Device) : Device := if d.ns.notReady then d.onNs fun n => n.cleared else d.nsGo .stopped

/-- NOT_READY has become 1, and its event is not told yet (R291, R293). -/
def outputCut (d : Device) : Device :=
  let d1 := d.onNs fun n => { n.cleared with held := n.held.map fun h => (h.1, h.2.1, 0) }
  { d1 with turns := Map.mapVals d1.turns fun _ t => if t.phase == .waitEntropy then { t with entropyWait := d.sc.beat } else t }

theorem outputStops_eq (d : Device) : d.outputStops = (outputCut d).when d.ns.wasReady (·.nsEvt 0x10) := rfl

theorem changesOnly_outputCut (d : Device) : changesOnly [.ns, .turns] d (outputCut d) := (changesOnly_onNs d _).then (changesOnly_turns _ _)

theorem changesOnly_outputStops (d : Device) : changesOnly [.ns, .turns, .ul, .out] d d.outputStops := by
  rw [outputStops_eq]
  exact ((changesOnly_outputCut d).then (changesOnly_when (changesOnly_nsEvt _ 0x10))).mono (by decide)

theorem changesOnly_nsGo (d : Device) (s : NsState) : changesOnly [.ns, .turns, .ul, .out] d (d.nsGo s) := by
  have gone := changesOnly_onNs d fun n => { n with state := s }
  unfold Device.nsGo
  dsimp only
  split
  · exact (gone.then (changesOnly_outputStops _)).mono (by decide)
  · exact gone.mono (by decide)

theorem outputStops_turns {d : Device} (h : d.turns = []) : d.outputStops.turns = [] := by
  rw [outputStops_eq, changesOnly_when (changesOnly_nsEvt _ 0x10) .turns (by decide)]
  exact congrArg (fun m : Map Turn => Map.mapVals m fun _ t => if t.phase == .waitEntropy then { t with entropyWait := d.sc.beat } else t) h

theorem nsGo_turns {d : Device} (h : d.turns = []) (s : NsState) : (d.nsGo s).turns = [] := by
  unfold Device.nsGo
  dsimp only
  split
  · exact outputStops_turns h
  · exact h

theorem changesOnly_entropyStops (d : Device) : changesOnly [.ns, .turns, .ul, .out] d (entropyStops d) :=
  changesOnly.ite _ ((changesOnly_onNs d _).mono (by decide)) (changesOnly_nsGo d _)

theorem entropyStops_turns {d : Device} (h : d.turns = []) : (entropyStops d).turns = [] := by
  unfold entropyStops
  split
  · exact h
  · exact nsGo_turns h _

/-- FC_SHACKLE and ALIVE of an entry to the shackle state by a source (R359, R360). -/
def enteredFc (c : Collector) (src : Nat) : Collector :=
  { c with shValid := true, shSrc := if c.shValid then c.shSrc else src, shackled := true, alive := false, aliveStopped := true }

/-- The device at the entry to the shackle state by a source: ALIVE, the activities and the traffic of turns have stopped (R359). -/
def entered (d : Device) (src : Nat) : Device :=
  (({ d with fc := { d.fc with shValid := true, shSrc := if d.fc.shValid then d.fc.shSrc else src, shackled := true } } : Device).stopAlive
    3).stopActivities.dropTraffic

/-- What the entry to the shackle state zeroises, but for the entropy output, and its evidence record (R359, R360). -/
def zeroised (d : Device) : Device :=
  ({ d with turns := [], leaves := [], vault := [], slots := {}, tu := d.tu.map Engine.emptied, bo := d.bo.map Engine.emptied,
            sc := { d.sc with plan := [], fetchList := [], entering := [] },
            hg := { d.hg with cmd := { d.hg.cmd with job := none }, blobs := [] },
            kw := { d.kw with cmd := { d.kw.cmd with job := none }, valid := false, root := [], seeds := [] },
            hs := { d.hs with cmd := { d.hs.cmd with job := none } },
            nv := { d.nv with queue := [], evq := d.nv.evq.filter Evidence.stays, scrubActive := false, ufBusy := 0 },
            ca := { d.ca with jobs := [] }, mc := { d.mc with traceEn := false } } : Device).evidence
    0x04 d.fc.shSrc [2 ^ 31 * b2n d.fc.shValid + d.fc.shSrc]

theorem shackle_eq (d : Device) (src : Nat) : d.shackle src = entropyStops (zeroised (entered d src)) := rfl

theorem entered_fc (d : Device) (src : Nat) : (entered d src).fc = enteredFc d.fc src := stopAlive_fc _ 3

theorem entered_aon (d : Device) (src : Nat) : (entered d src).aon = d.aon := changesOnly_stopAlive _ 3 .aon (by decide)

section
variable (d : Device) (src : Nat)

theorem shackle_fc : (d.shackle src).fc = enteredFc d.fc src :=
  (changesOnly_entropyStops (zeroised (entered d src)) .fc (by decide)).trans (entered_fc d src)

theorem shackle_turns : (d.shackle src).turns = [] := entropyStops_turns (d := zeroised (entered d src)) rfl

theorem shackle_leaves : (d.shackle src).leaves = [] := changesOnly_entropyStops (zeroised (entered d src)) .leaves (by decide)

theorem shackle_vault : (d.shackle src).vault = [] := changesOnly_entropyStops (zeroised (entered d src)) .vault (by decide)

theorem shackle_aon : (d.shackle src).aon = d.aon :=
  (changesOnly_entropyStops (zeroised (entered d src)) .aon (by decide)).trans (entered_aon d src)

end

end Sys2Proof.Safety
end

section
/-! TamperSourcesCountAndRespond (R337, R339 to R349, R445, R446): one event of one source, below its threshold and at it, by its response level. -/

namespace Sys2Proof.Safety

open Sys2Proof.Machine

/-! ### Lists -/

theorem modifyAt_of_get? {α : Type} {l : List α} {n : Nat} {x : α} (h : l[n]? = some x) {f g : α → α} (he : f x = g x) :
    modifyAt l n f = modifyAt l n g := by
  refine List.ext_getElem? fun i => ?_
  simp only [modifyAt, List.getElem?_modify]
  by_cases hi : n = i
  · subst hi
    simp [h, he]
  · simp [hi]

theorem nth_of_get? {α : Type} {l : List α} {n : Nat} {x : α} (h : l[n]? = some x) (a : α) : nth l n a = x := by
  simp [nth, List.getD_eq_getElem?_getD, h]

theorem nth_modifyAt_self {α : Type} {l : List α} {n : Nat} {x : α} (h : l[n]? = some x) (f : α → α) (a : α) : nth (modifyAt l n f) n a = f x := by
  simp [nth, modifyAt, List.getD_eq_getElem?_getD, h]

theorem get?_modifyAt_of_ne {α : Type} (l : List α) {n i : Nat} (f : α → α) (h : n ≠ i) : (modifyAt l n f)[i]? = l[i]? := by
  simp [modifyAt, h]

theorem foldl_of_absent {β : Type} {f : β → Nat → β} {n : Nat} (h : ∀ b k, k ≠ n → f b k = b) : ∀ (l : List Nat) (a : β), n ∉ l → l.foldl f a = a
  | [], _, _ => rfl
  | k :: l, a, hn => by
    rw [List.foldl_cons, h a k fun hk => hn (hk ▸ List.mem_cons_self), foldl_of_absent h l a fun hl => hn (List.mem_cons_of_mem k hl)]

/-- A fold that one entry alone changes is the step of that entry. -/
theorem foldl_of_only {β : Type} {f : β → Nat → β} {n : Nat} (h : ∀ b k, k ≠ n → f b k = b) :
    ∀ (l : List Nat) (a : β), n ∈ l → l.Nodup → l.foldl f a = f a n
  | k :: l, a, hn, hd => by
    obtain ⟨hk, hl⟩ := List.nodup_cons.mp hd
    rw [List.foldl_cons]
    by_cases e : k = n
    · subst e
      exact foldl_of_absent h l _ hk
    · rw [h a k e]
      exact foldl_of_only h l a ((List.mem_cons.mp hn).resolve_left fun bad => e bad.symm) hl

/-! ### One event of one source (R341) -/

theorem event_of_below {x : TSrc} {now : Nat} (hw : x.openW = true) (ha : x.age now < x.ticks) (hc : x.count + 1 < x.need) :
    x.event now = ({ x with count := x.count + 1 }, false) := by
  have live : (x.openW && decide (x.age now < x.ticks)) = true := by simp [hw, ha]
  simp only [TSrc.event, live, if_true, if_neg (Nat.not_le.mpr hc), ← hw]

theorem event_of_opening {x : TSrc} {now : Nat} (hw : x.openW = false ∨ x.ticks ≤ x.age now) (hc : 1 < x.need) :
    x.event now = ({ x with count := 1, openW := true, opened := now }, false) := by
  have dead : (x.openW && decide (x.age now < x.ticks)) = false := by
    obtain h | h := hw
    · simp [h]
    · simp [Nat.not_lt.mpr h]
  simp only [TSrc.event, dead, Bool.false_eq_true, if_false, if_neg (Nat.not_le.mpr hc)]

theorem event_of_need_one {x : TSrc} (now : Nat) (hc : x.need ≤ 1) : x.event now = ({ x with count := 0, openW := false }, true) := by
  have reached : x.need ≤ if x.openW && x.age now < x.ticks then x.count + 1 else 1 := by
    split
    · exact hc.trans (Nat.le_add_left _ _)
    · exact hc
  exact if_pos reached

/-- The block with the event of source `n` counted; `w` is the ward's last mismatch (R337, R341). -/
def sourceCounted (t : Tamper) (n w : Nat) (x : TSrc) : Tamper := { t with wardLast := w, srcs := modifyAt t.srcs n fun _ => x }

/-- The ward's last mismatch after an event of one source (R337). -/
def wardAfter (t : Tamper) (n : Nat) : Nat := (t.ward [n]).wardLast

theorem ward_single (t : Tamper) (n : Nat) : t.ward [n] = { t with wardLast := wardAfter t n } := by
  unfold wardAfter Tamper.ward
  split <;> rfl

theorem wardAfter_of_sensor (t : Tamper) {n : Nat} (h : 8 ≤ n) : wardAfter t n = t.wardLast := by
  have sensor : [n].any (· < 8) = false := by simp [h]
  simp [wardAfter, Tamper.ward, sensor]

theorem take_single {t : Tamper} {n : Nat} {x : TSrc} (hn : n < 32) (hx : t.srcs[n]? = some x) (hc : t.counts n = true) (now : Nat) :
    t.take [n] now = ({ t with srcs := modifyAt t.srcs n fun _ => (x.event now).1 }, if (x.event now).2 then [n] else []) := by
  have step := foldl_of_only (n := n) (l := List.range 32) (a := (t, ([] : List Nat)))
    (f := fun b s => if [n].contains s && b.1.counts s then
      ({ b.1 with srcs := modifyAt b.1.srcs s fun _ => ((nth b.1.srcs s {}).event now).1 },
        if ((nth b.1.srcs s {}).event now).2 then b.2 ++ [s] else b.2) else b)
    (fun b k hk => if_neg (by simp [hk])) (List.mem_range.mpr hn) List.nodup_range
  refine Eq.trans ?_ (step.trans ?_)
  · rfl
  · simp only [List.contains_cons, beq_self_eq_true, Bool.true_or, Bool.true_and, hc, if_true, nth_of_get? hx, List.nil_append]

/-- A tamper event of one source that counts (R341, R343 to R345). -/
theorem tamper_single {d : Device} {n : Nat} {x y : TSrc} {hit : Bool} (hn : n < 32) (hx : d.tp.srcs[n]? = some x) (hc : d.tp.counts n = true)
    (he : x.event d.aon.rtc = (y, hit)) : d.tamper [n] =
      (let d1 : Device := { d with tp := sourceCounted d.tp n (wardAfter d.tp n) y }
       if hit then if d.aon.onBackup || d.power.off then d1.respondBackup [n] else d1.respond [n] else d1) := by
  have taken : (d.tp.ward [n]).take [n] d.aon.rtc = (sourceCounted d.tp n (wardAfter d.tp n) y, if hit then [n] else []) := by
    rw [ward_single, take_single hn (t := { d.tp with wardLast := wardAfter d.tp n }) hx hc, he]
    rfl
  unfold Device.tamper
  rw [taken]
  cases hit <;> rfl

/-! ### Events below the threshold (R341) -/

theorem exec_tamperEvent_counted {s : State} {n : Nat} {x y : TSrc} {f : TSrc → TSrc} (hd : s.dev.aon.dead = false) (h8 : 8 ≤ n) (hn : n < 32)
    (hx : s.dev.tp.srcs[n]? = some x) (hc : s.dev.tp.counts n = true) (he : x.event s.dev.aon.rtc = (y, false)) (hf : y = f x) : ∃ t,
    exec (.tamperEvent [n]) s = .next t ∧ t.dev.tp = { s.dev.tp with srcs := modifyAt s.dev.tp.srcs n f } ∧ keepsRest [.tp] s t := by
  obtain ⟨e, k⟩ := run_of_changesOnly (s := s) (c := !s.dev.aon.dead) (by simp [hd]) (by decide)
    (changesOnly_tp s.dev (sourceCounted s.dev.tp n (wardAfter s.dev.tp n) y))
  refine ⟨_, (congrArg (run s _) (tamper_single hn hx hc he)).trans e, ?_, k⟩
  rw [← modifyAt_of_get? hx (f := fun _ => y) hf]
  exact congrArg (fun w => sourceCounted s.dev.tp n w y) (wardAfter_of_sensor _ h8)

theorem exec_tamperEvent_below (n : Nat) (x : TSrc) (s : State) (hd : s.dev.aon.dead = false) (h8 : 8 ≤ n) (hn : n < 32)
    (hx : s.dev.tp.srcs[n]? = some x) (hc : s.dev.tp.counts n = true) (hw : x.openW = true) (ha : x.age s.dev.aon.rtc < x.ticks)
    (hb : x.count + 1 < x.need) : ∃ t, exec (.tamperEvent [n]) s = .next t ∧
    t.dev.tp = { s.dev.tp with srcs := modifyAt s.dev.tp.srcs n fun y => { y with count := y.count + 1 } } ∧ keepsRest [.tp] s t :=
  exec_tamperEvent_counted hd h8 hn hx hc (event_of_below hw ha hb) rfl

theorem exec_tamperEvent_opening (n : Nat) (x : TSrc) (s : State) (hd : s.dev.aon.dead = false) (h8 : 8 ≤ n) (hn : n < 32)
    (hx : s.dev.tp.srcs[n]? = some x) (hc : s.dev.tp.counts n = true) (hw : x.openW = false ∨ x.ticks ≤ x.age s.dev.aon.rtc)
    (hb : 1 < x.need) : ∃ t, exec (.tamperEvent [n]) s = .next t ∧
    t.dev.tp = { s.dev.tp with srcs := modifyAt s.dev.tp.srcs n fun y => { y with count := 1, openW := true, opened := s.dev.aon.rtc } } ∧
    keepsRest [.tp] s t :=
  exec_tamperEvent_counted hd h8 hn hx hc (event_of_opening hw hb) rfl

/-! ### Triggers on main power (R343, R344) -/

/-- A source that triggers keeps its configuration (R341). -/
def triggeredSrc (x : TSrc) : TSrc := { x with count := 0, openW := false }

/-- The device whose source `n` has just triggered, before its response (R341). -/
def countedOut (d : Device) (n : Nat) (x : TSrc) : Device := { d with tp := sourceCounted d.tp n (wardAfter d.tp n) (triggeredSrc x) }

theorem countedOut_level {d : Device} {n : Nat} {x : TSrc} (hx : d.tp.srcs[n]? = some x) : (countedOut d n x).tp.level n = d.tp.level n := by
  have cfg : (nth (countedOut d n x).tp.srcs n {}).cfg = (nth d.tp.srcs n {}).cfg := by
    rw [nth_of_get? hx]
    exact (congrArg TSrc.cfg (nth_modifyAt_self hx (fun _ => triggeredSrc x) {}) :)
  exact congrArg (field · 29 2) cfg

/-- The trigger of source `n` is recorded and raised, with its evidence (R344). -/
def recorded (d : Device) (n : Nat) : Device :=
  (({ d with tp := { d.tp with sticky := d.tp.sticky ||| 2 ^ n } } : Device).raiseSrc (1392 + n)).evidence 0x01 (1392 + n) [d.tp.level n]

/-- The interrupt of a response level from 1 on (R343). -/
def told (d : Device) : Device :=
  ({ d with tp := { d.tp with evt := d.tp.evt ||| 1 } } : Device).when (rises d.tp.evt 1) (·.hingeMsi 1)

/-- The key share is zeroised at a response level from 2 on (R343). -/
def shareGone (d : Device) : Device :=
  ({ d with tp := { d.tp with evt := d.tp.evt ||| (4 * b2n (!d.aon.share.isEmpty)) } } : Device).zeroiseShare

theorem respond_single (d : Device) (n : Nat) : d.respond [n] =
    (let d3 := if 1 ≤ d.tp.level n then told (recorded d n) else recorded d n
     let d4 := if 2 ≤ d.tp.level n then shareGone d3 else d3
     if 3 ≤ d.tp.level n ∧ !d4.shackled then d4.shackle (1392 + (([n].find? fun s => d.tp.level s == 3).getD 0)) else d4) := by
  have top : d.tp.top [n] = d.tp.level n := Nat.zero_max _
  have mask : maskOf [n] = 2 ^ n := Nat.zero_or _
  unfold Device.respond
  rw [top, mask]
  rfl

section
variable (d : Device)

theorem changesOnly_recorded (n : Nat) : changesOnly [.tp, .fc, .nv] d (recorded d n) :=
  ((changesOnly_tp d _).then (changesOnly_raiseSrc _ _)).then (changesOnly_evidence _ _ _ _)

theorem changesOnly_told : changesOnly [.tp, .ul, .out] d (told d) := (changesOnly_tp d _).then (changesOnly_when (changesOnly_hingeMsi _ _))

theorem changesOnly_shareGone : changesOnly [.tp, .aon, .kw, .fc] d (shareGone d) := (changesOnly_tp d _).then (changesOnly_zeroiseShare _)

theorem told_tp : (told d).tp = { d.tp with evt := d.tp.evt ||| 1 } := changesOnly_when (changesOnly_hingeMsi _ 1) .tp (by decide)

theorem told_fc : (told d).fc = d.fc := changesOnly_told d .fc (by decide)

theorem told_aon : (told d).aon = d.aon := changesOnly_told d .aon (by decide)

theorem shareGone_share : (shareGone d).aon.share = [] := by
  unfold shareGone Device.zeroiseShare
  split
  · next empty => exact List.isEmpty_iff.mp empty
  · rfl

end

theorem exec_tamperEvent_of_main {s : State} {n : Nat} {x : TSrc} (hb : s.dev.aon.onBackup = false)
    (ho : s.dev.power.off = false) (hn : n < 32) (hx : s.dev.tp.srcs[n]? = some x) (hc : s.dev.tp.counts n = true) (hneed : x.need ≤ 1) :
    exec (.tamperEvent [n]) s = run s (!s.dev.aon.dead) ((countedOut s.dev n x).respond [n]) := by
  refine congrArg (run s _) ((tamper_single hn hx hc (event_of_need_one _ hneed)).trans ?_)
  have main : (s.dev.aon.onBackup || s.dev.power.off) = false := by simp [hb, ho]
  simp only [if_true, main, Bool.false_eq_true, if_false]
  rfl

theorem changesOnly_countedOut (d : Device) (n : Nat) (x : TSrc) : changesOnly [.tp] d (countedOut d n x) := changesOnly_tp d _

/-- At response level 0 or 1 the trigger is recorded, and told from level 1 on (R343). -/
theorem respond_of_low {d : Device} {n : Nat} (h : d.tp.level n ≤ 1) :
    d.respond [n] = if d.tp.level n = 1 then told (recorded d n) else recorded d n := by
  have low : ¬ 2 ≤ d.tp.level n := by omega
  have unshackled : ¬ 3 ≤ d.tp.level n := by omega
  have one : (1 ≤ d.tp.level n) = (d.tp.level n = 1) := propext ⟨fun h1 => le_antisymm h h1, fun h1 => h1.ge⟩
  rw [respond_single]
  simp only [low, unshackled, one, if_false, false_and]

theorem exec_tamperEvent_low (n : Nat) (x : TSrc) (s : State) (hd : s.dev.aon.dead = false) (hb : s.dev.aon.onBackup = false)
    (ho : s.dev.power.off = false) (hn : n < 32) (hx : s.dev.tp.srcs[n]? = some x) (hc : s.dev.tp.counts n = true) (hneed : x.need ≤ 1)
    (hl : s.dev.tp.level n ≤ 1) : ∃ t, exec (.tamperEvent [n]) s = .next t ∧
    t.dev.tp.sticky = s.dev.tp.sticky ||| 2 ^ n ∧ (nth t.dev.tp.srcs n {}).count = 0 ∧ raisedIn s t (1392 + n) ∧
    t.dev.tp.evt = (if s.dev.tp.level n = 1 then s.dev.tp.evt ||| 1 else s.dev.tp.evt) ∧ keepsRest [.tp, .fc, .nv, .ul, .out] s t := by
  have level := countedOut_level hx
  have answer := respond_of_low (d := countedOut s.dev n x) (level.le.trans hl)
  rw [level] at answer
  have taken := (changesOnly_countedOut s.dev n x).then (changesOnly_recorded _ n)
  have count : (nth (modifyAt s.dev.tp.srcs n fun _ => triggeredSrc x) n {}).count = 0 := congrArg TSrc.count (nth_modifyAt_self hx _ _)
  by_cases h1 : s.dev.tp.level n = 1
  · rw [if_pos h1] at answer
    obtain ⟨e, k⟩ := run_of_changesOnly (s := s) (ps := [.tp, .fc, .nv, .ul, .out]) (c := !s.dev.aon.dead) (by simp [hd]) (by decide)
      ((taken.then (changesOnly_told _)).mono (by decide))
    have tp := told_tp (recorded (countedOut s.dev n x) n)
    exact ⟨_, (exec_tamperEvent_of_main hb ho hn hx hc hneed).trans ((congrArg (run s _) answer).trans e), congrArg Tamper.sticky tp,
      (congrArg (fun t : Tamper => (nth t.srcs n {}).count) tp).trans count, told_fc _, (congrArg Tamper.evt tp).trans (if_pos h1).symm, k⟩
  · rw [if_neg h1] at answer
    obtain ⟨e, k⟩ := run_of_changesOnly (s := s) (ps := [.tp, .fc, .nv, .ul, .out]) (c := !s.dev.aon.dead) (by simp [hd]) (by decide)
      (taken.mono (by decide))
    exact ⟨_, (exec_tamperEvent_of_main hb ho hn hx hc hneed).trans ((congrArg (run s _) answer).trans e), rfl, count, rfl, (if_neg h1).symm, k⟩

/-- At response level 2 the share is zeroised too (R343). -/
theorem respond_of_two {d : Device} {n : Nat} (h : d.tp.level n = 2) : d.respond [n] = shareGone (told (recorded d n)) := by
  rw [respond_single]
  simp only [h, (by decide : 1 ≤ 2), (by decide : 2 ≤ 2), (by decide : ¬ 3 ≤ 2), if_true, false_and, if_false]

/-- A share that is there is zeroised with the event set, the root keys gone and source 1506 raised (R343). -/
theorem shareGone_of_share {d : Device} (h : d.aon.share ≠ []) : (shareGone d).tp = { d.tp with evt := d.tp.evt ||| 4 } ∧
    (shareGone d).aon = { d.aon with share := [] } ∧ (shareGone d).kw.valid = false ∧
    (shareGone d).fc = { d.fc with incoming := d.fc.incoming ++ [{ source := 1506 }] } := by
  have held : d.aon.share.isEmpty = false := by simpa using h
  unfold shareGone
  rw [held]
  unfold Device.zeroiseShare
  dsimp only
  rw [if_neg (by simp [held])]
  exact ⟨rfl, rfl, rfl, rfl⟩

theorem exec_tamperEvent_two (n : Nat) (x : TSrc) (s : State) (hd : s.dev.aon.dead = false) (hb : s.dev.aon.onBackup = false)
    (ho : s.dev.power.off = false) (hn : n < 32) (hx : s.dev.tp.srcs[n]? = some x) (hc : s.dev.tp.counts n = true) (hneed : x.need ≤ 1)
    (hl : s.dev.tp.level n = 2) (hs : s.dev.aon.share ≠ []) : ∃ t,
    exec (.tamperEvent [n]) s = .next t ∧ t.dev.aon = { s.dev.aon with share := [] } ∧ t.dev.kw.valid = false ∧
    t.dev.tp.evt = s.dev.tp.evt ||| 5 ∧ { source := 1392 + n } ∈ t.dev.fc.incoming ∧ { source := 1506 } ∈ t.dev.fc.incoming ∧
    keepsRest [.tp, .aon, .kw, .fc, .nv, .ul, .out] s t := by
  have answer := respond_of_two (d := countedOut s.dev n x) ((countedOut_level hx).trans hl)
  have aonTold : (told (recorded (countedOut s.dev n x) n)).aon = s.dev.aon := told_aon _
  have tpTold := told_tp (recorded (countedOut s.dev n x) n)
  obtain ⟨tp, aon, valid, fc⟩ := shareGone_of_share (d := told (recorded (countedOut s.dev n x) n)) (aonTold ▸ hs)
  rw [aonTold] at aon
  rw [tpTold] at tp
  rw [told_fc] at fc
  obtain ⟨e, k⟩ := run_of_changesOnly (s := s) (ps := [.tp, .aon, .kw, .fc, .nv, .ul, .out]) (c := !s.dev.aon.dead) (by simp [hd]) (by decide)
    (((((changesOnly_countedOut s.dev n x).then (changesOnly_recorded _ n)).then (changesOnly_told _)).then (changesOnly_shareGone _)).mono
      (by decide))
  have incoming := congrArg Collector.incoming fc
  refine ⟨_, (exec_tamperEvent_of_main hb ho hn hx hc hneed).trans ((congrArg (run s _) answer).trans e), aon, valid, ?_, ?_, ?_, k⟩
  · exact (congrArg Tamper.evt tp).trans (Nat.lor_assoc _ 1 4)
  · refine incoming ▸ ?_
    exact List.mem_append_left _ (List.mem_append_right _ (List.mem_singleton.mpr rfl))
  · refine incoming ▸ ?_
    exact List.mem_append_right _ (List.mem_singleton.mpr rfl)

/-- At response level 3 the device enters the shackle state by the source (R343, R359). -/
theorem respond_of_three {d : Device} {n : Nat} (h : d.tp.level n = 3) (hs : (shareGone (told (recorded d n))).shackled = false) :
    d.respond [n] = (shareGone (told (recorded d n))).shackle (1392 + n) := by
  have own : ([n].find? fun s => d.tp.level s == 3).getD 0 = n := by simp [h]
  rw [respond_single, own]
  simp only [h, (by decide : 1 ≤ 3), (by decide : 2 ≤ 3), (by decide : 3 ≤ 3), if_true, hs, Bool.not_false, and_self]

/-- The loss of the share changes nothing of the collector but its raises (R343). -/
theorem shareGone_fc (d : Device) : ∃ l, (shareGone d).fc = { d.fc with incoming := l } := by
  unfold shareGone Device.zeroiseShare
  split
  · exact ⟨_, rfl⟩
  · exact ⟨_, rfl⟩

theorem exec_tamperEvent_three (n : Nat) (x : TSrc) (s : State) (hd : s.dev.aon.dead = false) (hb : s.dev.aon.onBackup = false)
    (ho : s.dev.power.off = false) (hn : n < 32) (hx : s.dev.tp.srcs[n]? = some x) (hc : s.dev.tp.counts n = true) (hneed : x.need ≤ 1)
    (hl : s.dev.tp.level n = 3) (hs : s.dev.shackled = false) : ∃ t,
    exec (.tamperEvent [n]) s = .next t ∧ t.dev.shackled = true ∧ t.dev.aon.share = [] ∧ t.dev.turns = [] ∧ t.dev.leaves = [] ∧
    t.dev.vault = [] ∧ t.dev.perm = s.dev.perm ∧ t.dev.fc.shSrc = (if s.dev.fc.shValid = true then s.dev.fc.shSrc else 1392 + n) := by
  obtain ⟨l, fc⟩ := shareGone_fc (told (recorded (countedOut s.dev n x) n))
  rw [told_fc] at fc
  have unshackled : (shareGone (told (recorded (countedOut s.dev n x) n))).shackled = false := (congrArg Collector.shackled fc).trans hs
  have answer := respond_of_three ((countedOut_level hx).trans hl) unshackled
  have entry := shackle_fc (shareGone (told (recorded (countedOut s.dev n x) n))) (1392 + n)
  rw [fc] at entry
  have share := (congrArg Aon.share (shackle_aon (shareGone (told (recorded (countedOut s.dev n x) n))) (1392 + n))).trans (shareGone_share _)
  have allowed : (!s.dev.aon.dead) = true := by simp [hd]
  refine ⟨_, (exec_tamperEvent_of_main hb ho hn hx hc hneed).trans ((congrArg (run s _) answer).trans (congrArg (run s · _) allowed)),
    congrArg Collector.shackled entry, share, shackle_turns _ _, shackle_leaves _ _, shackle_vault _ _, rfl, congrArg Collector.shSrc entry⟩

/-! ### Triggers on backup power (R345) -/

theorem changesOnly_respondBackup (d : Device) (hit : List Nat) : changesOnly [.tp, .aon] d (d.respondBackup hit) :=
  (changesOnly_tp d (d.respondBackup hit).tp).then (changesOnly_aon _ (d.respondBackup hit).aon)

theorem exec_tamperEvent_backup (n : Nat) (x : TSrc) (s : State) (hd : s.dev.aon.dead = false) (hb : s.dev.aon.onBackup = true) (hn : n < 32)
    (hx : s.dev.tp.srcs[n]? = some x) (hc : s.dev.tp.counts n = true) (hneed : x.need ≤ 1) : ∃ t, exec (.tamperEvent [n]) s = .next t ∧
    t.dev.tp.bktrig = s.dev.tp.bktrig ||| 2 ^ n ∧
    t.dev.tp.bkCount = min (s.dev.tp.bkCount + 1) 65535 ∧ t.dev.tp.bkLast = s.dev.aon.rtc ∧ t.dev.tp.bkLastSrc = n ∧
    t.dev.tp.pendShackle = (s.dev.tp.pendShackle || decide (3 ≤ s.dev.tp.level n)) ∧
    t.dev.aon = { s.dev.aon with share := if s.dev.tp.level n < 2 then s.dev.aon.share else [] } ∧ keepsRest [.tp, .aon] s t := by
  have taken : s.dev.tamper [n] = (countedOut s.dev n x).respondBackup [n] := by
    refine (tamper_single hn hx hc (event_of_need_one _ hneed)).trans ?_
    simp only [if_true, hb, Bool.true_or]
    rfl
  have top : (countedOut s.dev n x).tp.top [n] = s.dev.tp.level n := (Nat.zero_max _).trans (countedOut_level hx)
  have mask : maskOf [n] = 2 ^ n := Nat.zero_or _
  have frame : changesOnly [.tp, .aon] s.dev ((countedOut s.dev n x).respondBackup [n]) :=
    ((changesOnly_countedOut s.dev n x).then (changesOnly_respondBackup _ [n])).mono (by decide)
  obtain ⟨e, k⟩ := run_of_changesOnly (s := s) (c := !s.dev.aon.dead) (by simp [hd]) (by decide) frame
  refine ⟨_, (congrArg (run s _) taken).trans e, congrArg (s.dev.tp.bktrig ||| ·) mask, rfl, rfl, rfl, ?_, ?_, k⟩
  · exact congrArg (fun l => s.dev.tp.pendShackle || decide (3 ≤ l)) top
  · exact congrArg (fun l => { s.dev.aon with share := if l < 2 then s.dev.aon.share else [] }) top

/-! ### Windows, settling and configuration (R341, R342, R349) -/

theorem exec_tamperWindowExpiry (n : Nat) (x : TSrc) (s : State) (hn : n < 32) (hx : s.dev.tp.srcs[n]? = some x) (hw : x.openW = true)
    (ha : x.ticks ≤ x.age s.dev.aon.rtc) : ∃ t, exec (.tamperWindowExpiry n) s = .next t ∧
    t.dev.tp = { s.dev.tp with srcs := modifyAt s.dev.tp.srcs n fun y => { y with count := 0, openW := false } } ∧ keepsRest [.tp] s t := by
  have own := nth_of_get? hx {}
  obtain ⟨e, k⟩ := run_of_changesOnly (s := s) (ps := [.tp])
    (c := n < 32 && (nth s.dev.tp.srcs n {}).openW && (nth s.dev.tp.srcs n {}).ticks ≤ (nth s.dev.tp.srcs n {}).age s.dev.aon.rtc)
    (by simp [own, hn, hw, ha]) (by decide)
    (changesOnly_tp s.dev { s.dev.tp with srcs := modifyAt s.dev.tp.srcs n fun y => { y with count := 0, openW := false } })
  exact ⟨_, e, rfl, k⟩

theorem exec_tamperSettleEnd (n : Nat) (s : State) (hn : n < 32) (hs : (nth s.dev.tp.srcs n {}).settling = true) : ∃ t,
    exec (.tamperSettleEnd n) s = .next t ∧
    t.dev.tp = { s.dev.tp with srcs := modifyAt s.dev.tp.srcs n fun y => { y with settling := false } } ∧ keepsRest [.tp] s t := by
  obtain ⟨e, k⟩ := run_of_changesOnly (s := s) (ps := [.tp]) (c := n < 32 && (nth s.dev.tp.srcs n {}).settling) (by simp [hn, hs]) (by decide)
    (changesOnly_tp s.dev { s.dev.tp with srcs := modifyAt s.dev.tp.srcs n fun y => { y with settling := false } })
  exact ⟨_, e, rfl, k⟩

theorem setCfg_cfg (x : TSrc) (n w : Nat) : (x.setCfg n w).cfg = w := by
  unfold TSrc.setCfg
  split
  · assumption
  · rfl

theorem exec_tpSrcCfgWrite (n : Nat) (x : TSrc) (v : Word) (s : State) (h : hostOpen s) (hn : n < 32) (hx : s.dev.tp.srcs[n]? = some x)
    (hl : s.dev.tp.lock = false) : ∃ t, exec (.tpSrcCfgWrite n v) s = .next t ∧ (nth t.dev.tp.srcs n {}).cfg = tpCfgBits v.toNat ∧
    (∀ k, k ≠ n → t.dev.tp.srcs[k]? = s.dev.tp.srcs[k]?) ∧ keepsRest [.tp] s t := by
  have free : s.dev.tpSrcCfg n v.toNat =
      { s.dev with tp := { s.dev.tp with srcs := modifyAt s.dev.tp.srcs n fun x => x.setCfg n (tpCfgBits v.toNat) } } := if_neg (by simp [hl])
  obtain ⟨e, k⟩ := run_of_changesOnly (s := s) (ps := [.tp]) (c := n < 32) (by simp [hn]) (by decide)
    (changesOnly_tp s.dev { s.dev.tp with srcs := modifyAt s.dev.tp.srcs n fun x => x.setCfg n (tpCfgBits v.toNat) })
  refine ⟨_, (congrArg (run s _) ((hostDo_of_hostOpen h _).trans free)).trans e, ?_, fun i hi => ?_, k⟩
  · exact (congrArg TSrc.cfg (nth_modifyAt_self hx _ _)).trans (setCfg_cfg x n _)
  · exact get?_modifyAt_of_ne _ _ hi.symm

theorem exec_tpSrcCfgWrite_locked (n : Nat) (v : Word) (s : State) (h : hostOpen s) (hn : n < 32) (hl : s.dev.tp.lock = true)
    (hw : tpCfgBits v.toNat ≠ (nth s.dev.tp.srcs n {}).cfg) : ∃ t,
    exec (.tpSrcCfgWrite n v) s = .next t ∧ t.dev.tp = s.dev.tp ∧ raisedIn s t 1529 ∧ keepsRest [.fc] s t := by
  have locked : s.dev.tpSrcCfg n v.toNat = s.dev.raiseSrc 1529 := (if_pos hl).trans (if_neg hw)
  obtain ⟨e, k⟩ := run_of_changesOnly (s := s) (ps := [.fc]) (c := n < 32) (by simp [hn]) (by decide) (changesOnly_raiseSrc s.dev 1529)
  exact ⟨_, (congrArg (run s _) ((hostDo_of_hostOpen h _).trans locked)).trans e, rfl, rfl, k⟩

/-! ### The polarity of the tamper lines (R445, R446) -/

/-- The polarity has changed: the changed lines are masked and their windows cleared (R446). -/
def polChanged (d : Device) (v : Nat) : Device :=
  { d with aon := { d.aon with pol := field v 0 4 },
           tp := { d.tp with polMask := d.tp.polMask ||| (field v 0 4 ^^^ d.aon.pol),
                             srcs := d.tp.srcs.zipIdx.map fun e =>
                               if 28 ≤ e.2 && bitOf (field v 0 4 ^^^ d.aon.pol) (e.2 - 28) then { e.1 with count := 0, openW := false } else e.1 } }

theorem tamperPol_of_free {d : Device} {v : Nat} (hl : d.lr.lock = false) (hv : field v 0 4 ^^^ d.aon.pol ≠ 0) : d.tamperPol v = polChanged d v :=
  (if_neg hv).trans (if_neg (by simp [hl]))

theorem tamperPol_of_locked {d : Device} {v : Nat} (hl : d.lr.lock = true) (hv : field v 0 4 ^^^ d.aon.pol ≠ 0) : d.tamperPol v = d.raiseSrc 1531 :=
  (if_neg hv).trans (if_pos hl)

theorem changesOnly_polChanged (d : Device) (v : Nat) : changesOnly [.aon, .tp] d (polChanged d v) :=
  (changesOnly_aon d (polChanged d v).aon).then (changesOnly_tp _ (polChanged d v).tp)

theorem exec_tamperPolWrite (v : Word) (s : State) (h : hostOpen s) (hl : s.dev.lr.lock = false) (hv : field v.toNat 0 4 ^^^ s.dev.aon.pol ≠ 0) : ∃ t,
    exec (.tamperPolWrite v) s = .next t ∧ t.dev.aon = { s.dev.aon with pol := field v.toNat 0 4 } ∧
    t.dev.tp.polMask = s.dev.tp.polMask ||| (field v.toNat 0 4 ^^^ s.dev.aon.pol) ∧ t.dev.tp.sticky = s.dev.tp.sticky ∧
    keepsRest [.aon, .tp] s t := by
  obtain ⟨e, k⟩ := run_of_changesOnly (s := s) (c := true) rfl (by decide) (changesOnly_polChanged s.dev v.toNat)
  exact ⟨_, (congrArg (run s true) ((hostDo_of_hostOpen h _).trans (tamperPol_of_free hl hv))).trans e, rfl, rfl, rfl, k⟩

theorem exec_tamperPolWrite_locked (v : Word) (s : State) (h : hostOpen s) (hl : s.dev.lr.lock = true)
    (hv : field v.toNat 0 4 ^^^ s.dev.aon.pol ≠ 0) : exec (.tamperPolWrite v) s = .next { s with dev := s.dev.raiseSrc 1531 } :=
  (congrArg (run s true) ((hostDo_of_hostOpen h _).trans (tamperPol_of_locked hl hv))).trans (run_keepsPerm rfl)

/-- The masked lines that stand at their active level when the mask ends (R446). -/
def hotLines (d : Device) (lines : Nat) : List Nat := (List.range 4).filter fun k => bitOf d.tp.polMask k && (bitOf lines k != bitOf d.aon.pol k)

/-- The device whose polarity mask has ended with these lines (R446). -/
def maskEnded (d : Device) (lines : Nat) : Device := { d with tp := { d.tp with polMask := 0 }, aon := { d.aon with tamperIn := lines } }

theorem polMaskEnd_eq (d : Device) (lines : Nat) : d.polMaskEnd lines =
    if (hotLines d lines).isEmpty then maskEnded d lines else (maskEnded d lines).tamper ((hotLines d lines).map (28 + ·)) := rfl

/-- One line that stands at its active level counts one event (R446). -/
theorem polMaskEnd_of_hot {d : Device} {lines k : Nat} (h : hotLines d lines = [k]) : d.polMaskEnd lines = (maskEnded d lines).tamper [28 + k] := by
  rw [polMaskEnd_eq, h]
  exact if_neg (by simp)

theorem changesOnly_maskEnded (d : Device) (lines : Nat) : changesOnly [.tp, .aon] d (maskEnded d lines) :=
  (changesOnly_tp d (maskEnded d lines).tp).then (changesOnly_aon _ (maskEnded d lines).aon)

theorem exec_tamperPolMaskEnd_quiet (lines : BitVec 4) (s : State) (hm : s.dev.tp.polMask ≠ 0)
    (hq : ∀ k, k < 4 → bitOf s.dev.tp.polMask k = true → bitOf lines.toNat k = bitOf s.dev.aon.pol k) : ∃ t,
    exec (.tamperPolMaskEnd lines) s = .next t ∧ t.dev.tp = { s.dev.tp with polMask := 0 } ∧
    t.dev.aon = { s.dev.aon with tamperIn := lines.toNat } ∧ keepsRest [.tp, .aon] s t := by
  have none_hot : hotLines s.dev lines.toNat = [] := by
    refine List.filter_eq_nil_iff.mpr fun k hk => ?_
    cases masked : bitOf s.dev.tp.polMask k
    · simp
    · simp [hq k (List.mem_range.mp hk) masked]
  have ended : s.dev.polMaskEnd lines.toNat = maskEnded s.dev lines.toNat := by
    rw [polMaskEnd_eq, none_hot]
    rfl
  obtain ⟨e, k⟩ := run_of_changesOnly (s := s) (c := s.dev.tp.polMask != 0) (by simpa using hm) (by decide)
    (changesOnly_maskEnded s.dev lines.toNat)
  exact ⟨_, (congrArg (run s _) ended).trans e, rfl, rfl, k⟩

/-- Of four lines, one alone meets a condition. -/
theorem filter_range_of_only {p : Nat → Bool} {k : Nat} (hk : k < 4) (h : ∀ j, j < 4 → (p j = true ↔ j = k)) : (List.range 4).filter p = [k] := by
  have same : (List.range 4).filter p = (List.range 4).filter (· == k) := by
    refine List.filter_congr fun j hj => ?_
    rw [Bool.eq_iff_iff, h j (List.mem_range.mp hj), beq_iff_eq]
  have alone : ∀ i < 4, (List.range 4).filter (· == i) = [i] := by decide
  exact same.trans (alone k hk)

theorem exec_tamperPolMaskEnd_hot (k : Nat) (lines : BitVec 4) (s : State) (hd : s.dev.aon.dead = false) (hk : k < 4)
    (h : ∀ j, j < 4 → ((bitOf s.dev.tp.polMask j = true ∧ bitOf lines.toNat j ≠ bitOf s.dev.aon.pol j) ↔ j = k)) :
    exec (.tamperPolMaskEnd lines) s = exec (.tamperEvent [28 + k]) { s with dev := { s.dev with
      tp := { s.dev.tp with polMask := 0 }, aon := { s.dev.aon with tamperIn := lines.toNat } } } := by
  have hot : hotLines s.dev lines.toNat = [k] := filter_range_of_only hk fun j hj => by
    rw [← h j hj]
    simp
  have masked : (s.dev.tp.polMask != 0) = true := by
    refine bne_iff_ne.mpr fun zero => ?_
    have bit := ((h k hk).mpr rfl).1
    rw [zero] at bit
    simp [bitOf] at bit
  have ended := polMaskEnd_of_hot hot
  have alive : (!s.dev.aon.dead) = true := by simp [hd]
  calc exec (.tamperPolMaskEnd lines) s
    _ = run s true ((maskEnded s.dev lines.toNat).tamper [28 + k]) := (congrArg (run s · _) masked).trans (congrArg (run s true) ended)
    _ = run { s with dev := maskEnded s.dev lines.toNat } true ((maskEnded s.dev lines.toNat).tamper [28 + k]) := rfl
    _ = run { s with dev := maskEnded s.dev lines.toNat } (!s.dev.aon.dead) ((maskEnded s.dev lines.toNat).tamper [28 + k]) :=
      congrArg (fun c => run { s with dev := maskEnded s.dev lines.toNat } c ((maskEnded s.dev lines.toNat).tamper [28 + k])) alive.symm

/-- Settles O53, clause by clause. -/
theorem tamperSourcesCountAndRespond : Obligations.TamperSourcesCountAndRespond :=
  ⟨exec_tamperEvent_below, exec_tamperEvent_opening, exec_tamperEvent_low, exec_tamperEvent_two, exec_tamperEvent_three, exec_tamperEvent_backup,
    exec_tamperWindowExpiry, exec_tpSrcCfgWrite, exec_tpSrcCfgWrite_locked, exec_tamperSettleEnd, exec_tamperPolWrite, exec_tamperPolWrite_locked,
    exec_tamperPolMaskEnd_quiet, exec_tamperPolMaskEnd_hot⟩

end Sys2Proof.Safety
end

section
/-! CollectorReacts (R350, R352 to R359, R361, R363): what one collector event records, and the reactions that are not subsumed. -/

namespace Sys2Proof.Safety

open Sys2Proof.Machine

/-! ### Lists without repeats, in order -/

theorem insertNew_subset {α : Type} [DecidableEq α] (l : List α) (x : α) {y : α} (h : y ∈ l) : y ∈ insertNew l x := by
  unfold insertNew
  split
  · exact h
  · exact List.mem_append_left _ h

theorem foldl_insertNew_subset {α : Type} [DecidableEq α] : ∀ (r l : List α) {y : α}, y ∈ l → y ∈ r.foldl insertNew l
  | [], _, _, h => h
  | x :: r, l, _, h => foldl_insertNew_subset r (insertNew l x) (insertNew_subset l x h)

theorem mem_foldl_insertNew {α : Type} [DecidableEq α] : ∀ (r l : List α) {y : α}, y ∈ r → y ∈ r.foldl insertNew l
  | x :: r, l, y, h => by
    obtain rfl | h := List.mem_cons.mp h
    · exact foldl_insertNew_subset r _ (mem_insertNew l y)
    · exact mem_foldl_insertNew r _ h

theorem mem_insertBy {α : Type} (key : α → List Nat) (a : α) {y : α} : ∀ {l : List α}, y = a ∨ y ∈ l → y ∈ insertBy key a l
  | [], h => by simpa [insertBy] using h
  | b :: r, h => by
    unfold insertBy
    split
    · simpa using h
    · obtain rfl | h := h
      · exact List.mem_cons_of_mem _ (mem_insertBy key y (.inl rfl))
      · obtain rfl | h := List.mem_cons.mp h
        · exact List.mem_cons_self
        · exact List.mem_cons_of_mem _ (mem_insertBy key a (.inr h))

theorem mem_foldl_insertBy {α : Type} (key : α → List Nat) {y : α} :
    ∀ (r l : List α), y ∈ r ∨ y ∈ l → y ∈ r.foldl (fun s a => insertBy key a s) l
  | [], l, h => by simpa using h
  | x :: r, l, h => by
    refine mem_foldl_insertBy key r _ ?_
    obtain h | h := h
    · obtain rfl | h := List.mem_cons.mp h
      · exact .inr (mem_insertBy key y (.inl rfl))
      · exact .inl h
    · exact .inr (mem_insertBy key x (.inr h))

/-- Every number of a list stands among its distinct ones (R357). -/
theorem mem_distinct {l : List Nat} {n : Nat} (h : n ∈ l) : n ∈ distinct l := mem_foldl_insertBy _ _ _ (.inl (mem_foldl_insertNew l [] h))

theorem distinct_single (n : Nat) : distinct [n] = [n] := rfl

/-! ### What an event records (R355, R356) -/

/-- A record of sticky bits leaves the rest of the collector. -/
theorem record_rest (c : Collector) (l : List Nat) :
    ∃ v f w k, c.record l = { c with firstValid := v, first := f, sticky := w, count := k } := by
  unfold Collector.record
  dsimp only
  split
  · exact ⟨_, _, _, _, rfl⟩
  · exact ⟨_, _, _, _, rfl⟩

theorem effective_of_cfg {c c' : Collector} (h : c'.cfg = c.cfg) (n : Nat) : c'.effective n = c.effective n := by
  unfold Collector.effective Collector.cfgOf
  rw [h]

/-- The sticky bits with that of a source set (R350). -/
def withSource (w : BitVec 1536) (n : Nat) : BitVec 1536 := w ||| BitVec.ofNat 1536 (2 ^ n)

theorem record_sticky (c : Collector) (l : List Nat) : (c.record l).sticky = l.foldl withSource c.sticky := rfl

section
variable (c : Collector) (n : Nat)

theorem record_effective (l : List Nat) : (c.record l).effective n = c.effective n := by
  obtain ⟨v, f, w, k, h⟩ := record_rest c l
  exact effective_of_cfg (by rw [h]) n

theorem record_first (h : c.sticky = 0) : (c.record [n]).firstValid = true ∧ (c.record [n]).first = n := by
  unfold Collector.record
  dsimp only
  rw [if_pos h]
  exact ⟨rfl, rfl⟩

theorem record_count : (c.record [n]).count = min (c.count + if c.sticky.getLsbD n = true then 1 else 0) 65535 := by
  have repeats : ([n].filter fun s => c.sticky.getLsbD s).length = if c.sticky.getLsbD n = true then 1 else 0 := by
    by_cases h : c.sticky.getLsbD n = true <;> simp [h]
  unfold Collector.record
  dsimp only
  rw [repeats]
  rfl

end

/-- A source that a chapter assigns is one of the 1,536 (R350). -/
theorem lt_of_assigned {n : Nat} (h : assigned n = true) : n < 1536 := by
  by_contra hn
  have none_there : srcDefault n = none := by
    have device : deviceDefault n = none := by
      unfold deviceDefault
      rw [if_neg (by omega), if_neg (by omega), if_neg (by omega), if_neg (by omega), if_neg (by omega)]
    unfold srcDefault
    rw [if_neg (by omega), if_neg (by omega), if_neg (by omega), if_neg (by omega), device]
  simp [assigned, none_there] at h

theorem getLsbD_withSource (w : BitVec 1536) {n i : Nat} (hi : i < 1536) : (withSource w n).getLsbD i = (w.getLsbD i || decide (n = i)) := by
  rw [withSource, BitVec.getLsbD_or, BitVec.getLsbD_ofNat, Nat.testBit_two_pow, decide_eq_true hi, Bool.true_and]

theorem withSource_self (w : BitVec 1536) {n : Nat} (hn : n < 1536) : (withSource w n).getLsbD n = true := by
  rw [getLsbD_withSource w hn, decide_eq_true rfl, Bool.or_true]

theorem withSource_keeps {w : BitVec 1536} {n : Nat} (hn : n < 1536) (h : w.getLsbD n = true) (s : Nat) : (withSource w s).getLsbD n = true := by
  rw [getLsbD_withSource w hn, h, Bool.true_or]

/-- A source that is sticky already sets no further bit (R356). -/
theorem withSource_of_set {w : BitVec 1536} {n : Nat} (h : w.getLsbD n = true) : withSource w n = w := by
  refine BitVec.eq_of_getLsbD_eq fun i hi => ?_
  rw [getLsbD_withSource w hi]
  by_cases e : n = i
  · rw [← e, h, Bool.true_or]
  · rw [decide_eq_false e, Bool.or_false]

theorem foldl_withSource_keeps {n : Nat} (hn : n < 1536) (l : List Nat) {w : BitVec 1536} (h : w.getLsbD n = true) :
    (l.foldl withSource w).getLsbD n = true := by
  induction l generalizing w with
  | nil => exact h
  | cons s l ih => exact ih (withSource_keeps hn h s)

theorem foldl_withSource_of_mem {n : Nat} (hn : n < 1536) {l : List Nat} (h : n ∈ l) (w : BitVec 1536) : (l.foldl withSource w).getLsbD n = true := by
  induction l generalizing w with
  | nil => exact absurd h List.not_mem_nil
  | cons s l ih =>
    obtain rfl | h := List.mem_cons.mp h
    · exact foldl_withSource_keeps hn l (withSource_self w hn)
    · exact ih h _

/-! ### The message of an event (R363) -/

theorem changesOnly_fcMessage (d : Device) (bits : Nat) : changesOnly [.fc, .ul, .out] d (d.fcMessage bits) :=
  changesOnly.ite _ (changesOnly.refl _ d) ((changesOnly_fc d _).then (changesOnly_hingeMsi _ 0))

theorem fcMessage_zero (d : Device) : d.fcMessage 0 = d := if_pos rfl

theorem fcMessage_fc (d : Device) (bits : Nat) : (d.fcMessage bits).fc = { d.fc with evt := d.fc.evt ||| bits } := by
  unfold Device.fcMessage
  split
  · next zero => rw [zero, Nat.or_zero]
  · exact changesOnly_hingeMsi _ 0 .fc (by decide)

/-! ### Reactions of an event (R353, R357) -/

section
variable (c : Collector) (n rx : Nat)

theorem unionOf_single : c.unionOf [n] = c.effective n := Nat.zero_or _

theorem holding_single : c.holding [n] rx = if c.effective n &&& rx ≠ 0 then [n] else [] := by
  by_cases h : c.effective n &&& rx = 0 <;> simp [Collector.holding, h]

end

theorem and_eq_zero_of_part {e m k : Nat} (h : e &&& m = 0) (hk : m &&& k = k) : e &&& k = 0 := by
  rw [← hk, ← Nat.and_assoc, h, Nat.zero_and]

/-- The blocks that an event resets (R354). -/
def blocksHit (c : Collector) (srcs : List Nat) : List BlockId := (c.holding srcs rxBlock).foldl (fun l s => (blocksOf s).foldl insertNew l) []

/-- The traps of an event are pending (R353). -/
def trapsTaken (d : Device) (c : Collector) (news : List Nat) : Device :=
  { d with fc := { d.fc with traps := (if c.shackled then [] else c.holding news rxTrap).foldl insertNew d.fc.traps } }

theorem changesOnly_trapsTaken (d : Device) (c : Collector) (news : List Nat) : changesOnly [.fc] d (trapsTaken d c news) := changesOnly_fc d _

section
variable {d : Device} {srcs news : List Nat}

theorem react_of_shackle (h : d.fc.unionOf srcs &&& rxShackle ≠ 0) (hs : d.fc.shackled = false) : d.react srcs news =
    (d.shackle ((d.fc.holding srcs rxShackle).headD 0)).fcMessage (b2n (d.fc.unionOf news &&& rxInt != 0)) := by
  unfold Device.react
  dsimp only
  rw [if_pos h, if_neg (by simp [hs])]

theorem react_of_chip (h : d.fc.unionOf srcs &&& rxShackle = 0) (hc : d.fc.unionOf srcs &&& rxChip ≠ 0) : d.react srcs news =
    ({ d with fc := { d.fc with causeSrc := (d.fc.holding srcs rxChip).headD 0 } } : Device).chipReset .collector :=
  (if_neg (not_not.mpr h)).trans (if_pos hc)

theorem react_of_mild (h : d.fc.unionOf srcs &&& rxShackle = 0) (hc : d.fc.unionOf srcs &&& rxChip = 0) : d.react srcs news =
    (trapsTaken (if d.fc.unionOf srcs &&& rxPin ≠ 0 then ((blocksHit d.fc srcs).foldl Device.blockReset d).stopAlive 2
      else (blocksHit d.fc srcs).foldl Device.blockReset d) d.fc news).fcMessage
      (b2n (d.fc.unionOf news &&& rxInt != 0) + 4 * b2n (decide (d.fc.unionOf srcs &&& rxPin ≠ 0))) :=
  (if_neg (not_not.mpr h)).trans (if_neg (not_not.mpr hc))

end

end Sys2Proof.Safety
end

section
/-! CollectorReacts (R350, R352 to R359, R361, R363): its clauses. -/

namespace Sys2Proof.Safety

open Sys2Proof.Machine

/-! ### One source raised alone (R357) -/

/-- A record of sticky bits leaves events, traps, ALIVE, FC_SHACKLE and the blocks in reset. -/
theorem record_kept (c : Collector) (l : List Nat) : (c.record l).evt = c.evt ∧ (c.record l).traps = c.traps ∧ (c.record l).alive = c.alive ∧
    (c.record l).shackled = c.shackled ∧ (c.record l).shValid = c.shValid ∧ (c.record l).shSrc = c.shSrc := by
  obtain ⟨v, f, w, k, h⟩ := record_rest c l
  rw [h]
  exact ⟨rfl, rfl, rfl, rfl, rfl, rfl⟩

/-- The device whose collector has recorded a source, before the reactions (R355). -/
def recordedDev (s : State) (n : Nat) : Device := { s.dev with fc := s.dev.fc.record [n] }

/-- The source, if its sticky bit was clear (R353). -/
def newly (s : State) (n : Nat) : List Nat := [n].filter fun s' => !s.dev.fc.sticky.getLsbD s'

theorem newly_of_clear {s : State} {n : Nat} (h : s.dev.fc.sticky.getLsbD n = false) : newly s n = [n] := by simp [newly, h]

theorem newly_of_set {s : State} {n : Nat} (h : s.dev.fc.sticky.getLsbD n = true) : newly s n = [] := by simp [newly, h]

theorem event_alone {s : State} {n : Nat} (h : raisedAlone s n) : s.dev.event [{ source := n }] = (recordedDev s n).react [n] (newly s n) := by
  obtain ⟨-, -, quiet, check⟩ := h
  have same : ({ s.dev.fc with incoming := [] } : Collector) = s.dev.fc := by rw [← quiet]
  unfold Device.event
  simp only [List.foldl_cons, List.foldl_nil, check, quiet, List.nil_append, List.map_cons, List.map_nil, distinct_single]
  rw [same]
  exact if_neg (by simp)

theorem exec_alone {s : State} {n : Nat} (h : raisedAlone s n) :
    exec (.faultRaise [{ source := n }]) s = run s true ((recordedDev s n).react [n] (newly s n)) := by
  have allowed : (s.dev.collects && [{ source := n : Raise }].all fun r => assigned r.source) = true := by
    simp only [List.all_cons, List.all_nil, Bool.and_true, Bool.and_eq_true]
    exact ⟨h.1, h.2.1⟩
  exact (congrArg (run s · _) allowed).trans (congrArg (run s true) (event_alone h))

section
variable (s : State) (n : Nat)

theorem recordedDev_union : (recordedDev s n).fc.unionOf [n] = s.dev.fc.effective n := (unionOf_single _ n).trans (record_effective _ n [n])

theorem recordedDev_holding (rx : Nat) : (recordedDev s n).fc.holding [n] rx = if s.dev.fc.effective n &&& rx ≠ 0 then [n] else [] := by
  rw [holding_single, show (recordedDev s n).fc = s.dev.fc.record [n] from rfl, record_effective]

end

theorem newly_union {s : State} {n : Nat} (h : s.dev.fc.sticky.getLsbD n = false) :
    (recordedDev s n).fc.unionOf (newly s n) = s.dev.fc.effective n := by rw [newly_of_clear h, recordedDev_union]

theorem sticky_recordedDev (s : State) {n : Nat} (h : assigned n = true) : (recordedDev s n).fc.sticky.getLsbD n = true :=
  withSource_self s.dev.fc.sticky (lt_of_assigned h)

/-! ### Reactions that stop nothing: INT, TRAP, PIN (R353, R358) -/

section
variable {s : State} {n : Nat}

theorem no_reaction {m : Nat} (h : ¬ reacts s n m) {k : Nat} (hk : m &&& k = k) : s.dev.fc.effective n &&& k = 0 :=
  and_eq_zero_of_part (not_not.mp h) hk

/-- The traps and the message of a source that resets nothing. -/
theorem exec_mild (h : raisedAlone s n) (h2 : ¬ reacts s n 0x28) : exec (.faultRaise [{ source := n }]) s =
    run s true ((trapsTaken (if s.dev.fc.effective n &&& rxPin ≠ 0 then
        ((blocksHit (recordedDev s n).fc [n]).foldl Device.blockReset (recordedDev s n)).stopAlive 2
      else (blocksHit (recordedDev s n).fc [n]).foldl Device.blockReset (recordedDev s n)) (recordedDev s n).fc (newly s n)).fcMessage
      (b2n ((recordedDev s n).fc.unionOf (newly s n) &&& rxInt != 0) + 4 * b2n (decide (s.dev.fc.effective n &&& rxPin ≠ 0)))) := by
  have shackle : (recordedDev s n).fc.unionOf [n] &&& rxShackle = 0 := by
    rw [recordedDev_union]
    exact no_reaction h2 (by decide)
  have chip : (recordedDev s n).fc.unionOf [n] &&& rxChip = 0 := by
    rw [recordedDev_union]
    exact no_reaction h2 (by decide)
  rw [exec_alone h, react_of_mild shackle chip, recordedDev_union]

theorem blocksHit_of_none (h : s.dev.fc.effective n &&& 4 = 0) : blocksHit (recordedDev s n).fc [n] = [] := by
  have held : (recordedDev s n).fc.holding [n] rxBlock = [] := (recordedDev_holding s n rxBlock).trans (if_neg (not_not.mpr h))
  rw [blocksHit, held]
  rfl

/-- The device after the traps of a source that resets nothing. -/
def trapped (s : State) (n : Nat) : Device := trapsTaken (recordedDev s n) (recordedDev s n).fc (newly s n)

theorem exec_quiet (h : raisedAlone s n) (h2 : ¬ reacts s n 0x3C) : exec (.faultRaise [{ source := n }]) s =
    run s true ((trapped s n).fcMessage (b2n ((recordedDev s n).fc.unionOf (newly s n) &&& rxInt != 0))) := by
  have pin : ¬ s.dev.fc.effective n &&& rxPin ≠ 0 := not_not.mpr (no_reaction h2 (by decide))
  have blocks := blocksHit_of_none (s := s) (n := n) (no_reaction h2 (by decide))
  have mild : ¬ reacts s n 0x28 := not_not.mpr (no_reaction h2 (by decide))
  rw [exec_mild h mild, blocks, if_neg pin, decide_eq_false pin]
  rfl

theorem trapped_fc : (trapped s n).fc = { s.dev.fc.record [n] with
    traps := (if s.dev.fc.shackled then [] else (recordedDev s n).fc.holding (newly s n) rxTrap).foldl insertNew s.dev.fc.traps } := by
  obtain ⟨-, traps, -, shackled, -, -⟩ := record_kept s.dev.fc [n]
  rw [← traps, ← shackled]
  rfl

/-- A source without TRAP, or one that was set already, leaves the traps (R353). -/
theorem trapped_traps_of_none (h : (recordedDev s n).fc.holding (newly s n) rxTrap = []) : (trapped s n).fc.traps = s.dev.fc.traps := by
  rw [trapped_fc, h]
  split <;> rfl

theorem changesOnly_trapped : changesOnly [.fc] s.dev (trapped s n) :=
  ((changesOnly_fc s.dev (s.dev.fc.record [n])).then (changesOnly_trapsTaken _ _ _)).mono (by decide)

theorem trapped_sticky (h : assigned n = true) : (trapped s n).fc.sticky.getLsbD n = true := sticky_recordedDev s h

end

theorem holding_newly_of_no_reaction {s : State} {n rx : Nat} (h : s.dev.fc.effective n &&& rx = 0) :
    (recordedDev s n).fc.holding (newly s n) rx = [] := by
  cases hs : s.dev.fc.sticky.getLsbD n
  · rw [newly_of_clear hs, recordedDev_holding, if_neg (not_not.mpr h)]
  · rw [newly_of_set hs]
    rfl

theorem exec_faultRaise_silent (n : Nat) (s : State) (h : raisedAlone s n) (h0 : s.dev.fc.effective n = 0) : ∃ t,
    exec (.faultRaise [{ source := n }]) s = .next t ∧
    t.dev.fc.sticky = s.dev.fc.sticky ||| BitVec.ofNat 1536 (2 ^ n) ∧
    (s.dev.fc.sticky = 0 → t.dev.fc.firstValid = true ∧ t.dev.fc.first = n) ∧
    t.dev.fc.count = min (s.dev.fc.count + (if s.dev.fc.sticky.getLsbD n = true then 1 else 0)) 65535 ∧ t.dev.fc.evt = s.dev.fc.evt ∧
    t.dev.fc.traps = s.dev.fc.traps ∧ t.dev.fc.alive = s.dev.fc.alive ∧ keepsRest [.fc] s t := by
  have nothing (m : Nat) : s.dev.fc.effective n &&& m = 0 := by rw [h0, Nat.zero_and]
  have fresh : (recordedDev s n).fc.unionOf (newly s n) = 0 := by
    cases hs : s.dev.fc.sticky.getLsbD n
    · rw [newly_union hs, h0]
    · rw [newly_of_set hs]
      rfl
  have quiet := exec_quiet h (not_not.mpr (nothing 0x3C))
  rw [fresh, show b2n (0 &&& rxInt != 0) = 0 from rfl, fcMessage_zero] at quiet
  obtain ⟨evt, -, alive, -⟩ := record_kept s.dev.fc [n]
  obtain ⟨e, k⟩ := run_of_changesOnly (s := s) (c := true) rfl (by decide) (changesOnly_trapped (s := s) (n := n))
  exact ⟨_, quiet.trans e, rfl, record_first s.dev.fc n, record_count s.dev.fc n, evt,
    trapped_traps_of_none (holding_newly_of_no_reaction (nothing rxTrap)), alive, k⟩

/-- FC_EVT.INT of a source with INT (R363). -/
theorem or_b2n_int (w e : Nat) : w ||| b2n (e &&& rxInt != 0) = if e &&& 1 ≠ 0 then w ||| 1 else w := by
  by_cases h : e &&& 1 = 0
  · rw [if_neg (not_not.mpr h), show (e &&& rxInt != 0) = false from bne_eq_false_iff_eq.mpr h]
    exact Nat.or_zero w
  · rw [if_pos h, show (e &&& rxInt != 0) = true from bne_iff_ne.mpr h]
    rfl

theorem unionOf_nil (c : Collector) : c.unionOf [] = 0 := rfl

theorem exec_faultRaise_new (n : Nat) (s : State) (h : raisedAlone s n) (h2 : ¬ reacts s n 0x3C) (hs : s.dev.fc.sticky.getLsbD n = false) : ∃ t,
    exec (.faultRaise [{ source := n }]) s = .next t ∧ t.dev.fc.sticky.getLsbD n = true ∧
    t.dev.fc.evt = (if s.dev.fc.effective n &&& 1 ≠ 0 then s.dev.fc.evt ||| 1 else s.dev.fc.evt) ∧
    (reacts s n 2 → s.dev.fc.shackled = false → n ∈ t.dev.fc.traps) ∧ (¬ reacts s n 2 → t.dev.fc.traps = s.dev.fc.traps) ∧
    keepsRest [.fc, .ul, .out] s t := by
  have quiet := exec_quiet h h2
  rw [newly_union hs] at quiet
  obtain ⟨evt, -⟩ := record_kept s.dev.fc [n]
  have told := fcMessage_fc (trapped s n) (b2n (s.dev.fc.effective n &&& rxInt != 0))
  obtain ⟨e, k⟩ := run_of_changesOnly (s := s) (ps := [.fc, .ul, .out]) (c := true) rfl (by decide)
    ((changesOnly_trapped.then (changesOnly_fcMessage (trapped s n) (b2n (s.dev.fc.effective n &&& rxInt != 0)))).mono (by decide))
  refine ⟨_, quiet.trans e, (congrArg (fun c : Collector => c.sticky.getLsbD n) told).trans (trapped_sticky h.2.1), ?_,
    fun ht hf => ?_, fun ht => ?_, k⟩
  · refine (congrArg Collector.evt told).trans ((congrArg (· ||| _) (show (trapped s n).fc.evt = s.dev.fc.evt from evt)).trans
      (or_b2n_int s.dev.fc.evt (s.dev.fc.effective n)))
  · refine (congrArg (fun c : Collector => n ∈ c.traps) told).mpr ?_
    refine (congrArg (fun c : Collector => n ∈ c.traps) (trapped_fc (s := s) (n := n))).mpr ?_
    have held : (recordedDev s n).fc.holding (newly s n) rxTrap = [n] := by
      rw [newly_of_clear hs]
      exact (recordedDev_holding s n rxTrap).trans (if_pos ht)
    rw [held, hf]
    exact mem_insertNew _ n
  · exact (congrArg Collector.traps told).trans (trapped_traps_of_none (holding_newly_of_no_reaction (not_not.mp ht)))

theorem exec_faultRaise_again (n : Nat) (s : State) (h : raisedAlone s n) (h2 : ¬ reacts s n 0x3C) (hs : s.dev.fc.sticky.getLsbD n = true) : ∃ t,
    exec (.faultRaise [{ source := n }]) s = .next t ∧ t.dev.fc.sticky = s.dev.fc.sticky ∧ t.dev.fc.count = min (s.dev.fc.count + 1) 65535 ∧
    t.dev.fc.evt = s.dev.fc.evt ∧ t.dev.fc.traps = s.dev.fc.traps ∧ keepsRest [.fc] s t := by
  have quiet := exec_quiet h h2
  rw [newly_of_set hs, unionOf_nil, show b2n (0 &&& rxInt != 0) = 0 from rfl, fcMessage_zero] at quiet
  obtain ⟨evt, -⟩ := record_kept s.dev.fc [n]
  have count := record_count s.dev.fc n
  rw [if_pos hs] at count
  obtain ⟨e, k⟩ := run_of_changesOnly (s := s) (c := true) rfl (by decide) (changesOnly_trapped (s := s) (n := n))
  exact ⟨_, quiet.trans e, withSource_of_set hs, count, evt, trapped_traps_of_none (by rw [newly_of_set hs]; rfl), k⟩

end Sys2Proof.Safety
end

section
/-! CollectorReacts (R350, R352 to R359, R361, R363): PIN, BLOCK, CHIP and the shackle state; traps, ALIVE and the parity scan. -/

namespace Sys2Proof.Safety

open Sys2Proof.Machine

/-! ### PIN (R358) -/

theorem stopAlive_alarm (d : Device) (level : Nat) : (d.stopAlive level).lr.alarmActive = (d.lr.alarmActive || d.lr.tokenEn) := by
  unfold Device.stopAlive
  cases h : d.lr.tokenEn
  · exact (Bool.or_false _).symm
  · exact (Bool.or_true _).symm

/-- FC_EVT.PIN of a message that carries it (R363). -/
theorem bitOf_pin (w : Nat) (x : Bool) : bitOf (w ||| (b2n x + 4 * b2n true)) 2 = true := by
  have bit : (b2n x + 4 * b2n true).testBit 2 = true := by cases x <;> decide
  rw [bitOf, Nat.testBit_or, bit, Bool.or_true]

theorem exec_faultRaise_pin (n : Nat) (s : State) (h : raisedAlone s n) (h2 : ¬ reacts s n 0x2C) (hp : reacts s n 0x10) : ∃ t,
    exec (.faultRaise [{ source := n }]) s = .next t ∧
    t.dev.fc.alive = false ∧ t.dev.fc.aliveStopped = true ∧ bitOf t.dev.fc.evt 2 = true ∧ t.dev.lr.alarmActive = (s.dev.lr.alarmActive || s.dev.lr.tokenEn) ∧
    keepsRest [.fc, .lr, .ul, .out] s t := by
  have pin : s.dev.fc.effective n &&& rxPin ≠ 0 := hp
  have mild := exec_mild h (not_not.mpr (no_reaction h2 (by decide)))
  rw [blocksHit_of_none (no_reaction h2 (by decide)), if_pos pin, decide_eq_true pin, List.foldl_nil] at mild
  have told := fcMessage_fc (trapsTaken ((recordedDev s n).stopAlive 2) (recordedDev s n).fc (newly s n))
    (b2n ((recordedDev s n).fc.unionOf (newly s n) &&& rxInt != 0) + 4 * b2n true)
  have stopped := stopAlive_fc (recordedDev s n) 2
  have message := changesOnly_fcMessage (trapsTaken ((recordedDev s n).stopAlive 2) (recordedDev s n).fc (newly s n))
    (b2n ((recordedDev s n).fc.unionOf (newly s n) &&& rxInt != 0) + 4 * b2n true)
  obtain ⟨e, k⟩ := run_of_changesOnly (s := s) (ps := [.fc, .lr, .ul, .out]) (c := true) rfl (by decide)
    (((((changesOnly_fc s.dev (s.dev.fc.record [n])).then (changesOnly_stopAlive (recordedDev s n) 2)).then
      (changesOnly_trapsTaken _ _ _)).then message).mono (by decide))
  exact ⟨_, mild.trans e, (congrArg Collector.alive told).trans (congrArg Collector.alive stopped),
    (congrArg Collector.aliveStopped told).trans (congrArg Collector.aliveStopped stopped),
    (congrArg (fun c : Collector => bitOf c.evt 2) told).trans (bitOf_pin _ _),
    (congrArg Ring.alarmActive (message .lr (by decide))).trans (stopAlive_alarm (recordedDev s n) 2), k⟩

/-! ### BLOCK (R354) -/

/-- The sticky bits stay and no block leaves its reset. -/
def KeepsRecord (c c' : Collector) : Prop := c'.sticky = c.sticky ∧ ∀ b ∈ c.resets, b ∈ c'.resets

namespace KeepsRecord

theorem refl (c : Collector) : KeepsRecord c c := ⟨rfl, fun _ h => h⟩

theorem trans {a b c : Collector} (h : KeepsRecord a b) (g : KeepsRecord b c) : KeepsRecord a c :=
  ⟨g.1.trans h.1, fun x hx => g.2 x (h.2 x hx)⟩

theorem of_eq {a b : Collector} (h : b.sticky = a.sticky) (g : b.resets = a.resets) : KeepsRecord a b := ⟨h, fun _ hx => g ▸ hx⟩

end KeepsRecord

/-- A block that is reset leaves the collector but for what it raises (R354, R357). -/
theorem resetOne_fc (d : Device) (b : BlockId) : ∃ l, (d.resetOne b).fc = { d.fc with incoming := l } := by
  cases b with
  | tumbler n => exact ⟨_, changesOnly_abortOn d (.tumbler n) .fc (by decide)⟩
  | bolt n => exact ⟨_, changesOnly_abortOn d (.bolt n) .fc (by decide)⟩
  | link m =>
    unfold Device.resetOne
    dsimp only
    have kept (f : Link → Link) : (d.onLink m f).fc = d.fc := by
      unfold Device.onLink
      split <;> rfl
    cases d.linkUp m with
    | false =>
      rw [Device.when_false]
      exact ⟨d.fc.incoming, kept _⟩
    | true =>
      rw [Device.when_true]
      exact ⟨_, congrArg (fun c : Collector => ({ c with incoming := c.incoming ++ [_] } : Collector)) (kept _)⟩
  | dma m =>
    unfold Device.resetOne Device.onDma
    dsimp only
    split
    · exact ⟨_, rfl⟩
    · exact ⟨_, rfl⟩
  | _ => exact ⟨_, rfl⟩

theorem blockReset_keepsRecord (d : Device) (b : BlockId) : KeepsRecord d.fc (d.blockReset b).fc ∧ b ∈ (d.blockReset b).fc.resets := by
  obtain ⟨l, h⟩ := resetOne_fc d b
  have fc : (d.blockReset b).fc = { d.fc with incoming := l, resets := insertNew d.fc.resets b } :=
    congrArg (fun c : Collector => ({ c with resets := insertNew c.resets b } : Collector)) h
  rw [fc]
  exact ⟨⟨rfl, fun _ hx => insertNew_subset _ _ hx⟩, mem_insertNew _ _⟩

theorem blockResets_keepRecord (l : List BlockId) (d : Device) :
    KeepsRecord d.fc (l.foldl Device.blockReset d).fc ∧ ∀ b ∈ l, b ∈ (l.foldl Device.blockReset d).fc.resets := by
  induction l generalizing d with
  | nil => exact ⟨.refl _, nofun⟩
  | cons x l ih =>
    obtain ⟨kept, reset⟩ := blockReset_keepsRecord d x
    obtain ⟨rest, others⟩ := ih (d.blockReset x)
    refine ⟨kept.trans rest, fun b hb => ?_⟩
    obtain rfl | hb := List.mem_cons.mp hb
    · exact rest.2 b reset
    · exact others b hb

theorem stopAlive_keepsRecord (d : Device) (level : Nat) : KeepsRecord d.fc (d.stopAlive level).fc := by
  rw [stopAlive_fc]
  exact .of_eq rfl rfl

theorem fcMessage_keepsRecord (d : Device) (bits : Nat) : KeepsRecord d.fc (d.fcMessage bits).fc := by
  rw [fcMessage_fc]
  exact .of_eq rfl rfl

theorem trapsTaken_keepsRecord (d : Device) (c : Collector) (news : List Nat) : KeepsRecord d.fc (trapsTaken d c news).fc := .of_eq rfl rfl

/-- What follows the BLOCK resets of an event keeps them, and the sticky bits (R353). -/
theorem mild_keepsRecord (d : Device) (pin : Prop) [Decidable pin] (c : Collector) (news : List Nat) (bits : Nat) :
    KeepsRecord d.fc ((trapsTaken (if pin then d.stopAlive 2 else d) c news).fcMessage bits).fc := by
  have stopped : KeepsRecord d.fc (if pin then d.stopAlive 2 else d).fc := by
    split
    · exact stopAlive_keepsRecord d 2
    · exact .refl _
  exact (stopped.trans (trapsTaken_keepsRecord _ c news)).trans (fcMessage_keepsRecord _ bits)

theorem exec_faultRaise_block (n : Nat) (s : State) (h : raisedAlone s n) (h2 : ¬ reacts s n 0x28) (hb : reacts s n 4) : ∃ t,
    exec (.faultRaise [{ source := n }]) s = .next t ∧
    t.pending = s.pending ∧ (∀ b ∈ blocksOf n, b ∈ t.dev.fc.resets) ∧ t.dev.fc.sticky.getLsbD n = true ∧ t.dev.perm = s.dev.perm := by
  have hit : ∀ b ∈ blocksOf n, b ∈ blocksHit (recordedDev s n).fc [n] := fun b hmem => by
    have held : (recordedDev s n).fc.holding [n] rxBlock = [n] := (recordedDev_holding s n rxBlock).trans (if_pos hb)
    rw [blocksHit, held]
    exact mem_foldl_insertNew _ _ hmem
  obtain ⟨kept, reset⟩ := blockResets_keepRecord (blocksHit (recordedDev s n).fc [n]) (recordedDev s n)
  have after := mild_keepsRecord ((blocksHit (recordedDev s n).fc [n]).foldl Device.blockReset (recordedDev s n))
    (s.dev.fc.effective n &&& rxPin ≠ 0) (recordedDev s n).fc (newly s n)
    (b2n ((recordedDev s n).fc.unionOf (newly s n) &&& rxInt != 0) + 4 * b2n (decide (s.dev.fc.effective n &&& rxPin ≠ 0)))
  refine ⟨_, (exec_mild h h2).trans (run_true _ _), rfl, fun b hmem => after.2 b (reset b (hit b hmem)), ?_, rfl⟩
  exact (congrArg (BitVec.getLsbD · n) (kept.trans after).1).trans (sticky_recordedDev s h.2.1)

/-! ### CHIP and the shackle state (R353, R359) -/

theorem exec_faultRaise_chip (n : Nat) (s : State) (h : raisedAlone s n) (h2 : ¬ reacts s n 0x20) (hc : reacts s n 8) : ∃ t,
    exec (.faultRaise [{ source := n }]) s = .next t ∧
    t.pending = s.pending ∧ t.dev.fc.cause = resetCode .collector ∧ t.dev.fc.causeSrc = n ∧ t.dev.turns = [] ∧ t.dev.leaves = [] ∧
    t.dev.fc.sticky.getLsbD n = true ∧ t.dev.perm = s.dev.perm := by
  have chip : (recordedDev s n).fc.unionOf [n] &&& rxChip ≠ 0 := by
    rw [recordedDev_union]
    exact hc
  have shackle : (recordedDev s n).fc.unionOf [n] &&& rxShackle = 0 := by
    rw [recordedDev_union]
    exact not_not.mp h2
  have held : (recordedDev s n).fc.holding [n] rxChip = [n] := (recordedDev_holding s n rxChip).trans (if_pos hc)
  have answer := (exec_alone h).trans (congrArg (run s true) (react_of_chip shackle chip))
  rw [held] at answer
  have fc := chipReset_fc { recordedDev s n with fc := { (recordedDev s n).fc with causeSrc := [n].headD 0 } } .collector
  exact ⟨_, answer.trans (run_true _ _), rfl, congrArg Collector.cause fc, congrArg Collector.causeSrc fc, chipReset_turns _ _, chipReset_leaves _ _,
    (congrArg (fun c : Collector => c.sticky.getLsbD n) fc).trans (sticky_recordedDev s h.2.1), rfl⟩

theorem exec_faultRaise_shackle (n : Nat) (s : State) (h : raisedAlone s n) (hr : reacts s n 0x20) (hs : s.dev.fc.shackled = false) : ∃ t,
    exec (.faultRaise [{ source := n }]) s = .next t ∧
    t.pending = s.pending ∧ t.dev.shackled = true ∧ t.dev.fc.shSrc = (if s.dev.fc.shValid = true then s.dev.fc.shSrc else n) ∧ t.dev.turns = [] ∧
    t.dev.leaves = [] ∧ t.dev.vault = [] ∧ t.dev.fc.aliveStopped = true ∧ t.dev.perm = s.dev.perm := by
  have shackle : (recordedDev s n).fc.unionOf [n] &&& rxShackle ≠ 0 := by
    rw [recordedDev_union]
    exact hr
  obtain ⟨-, -, -, shackled, valid, src⟩ := record_kept s.dev.fc [n]
  have held : (recordedDev s n).fc.holding [n] rxShackle = [n] := (recordedDev_holding s n rxShackle).trans (if_pos hr)
  have answer := (exec_alone h).trans (congrArg (run s true) (react_of_shackle shackle (shackled.trans hs)))
  rw [held] at answer
  have message := changesOnly_fcMessage ((recordedDev s n).shackle n) (b2n ((recordedDev s n).fc.unionOf (newly s n) &&& rxInt != 0))
  have told := fcMessage_fc ((recordedDev s n).shackle n) (b2n ((recordedDev s n).fc.unionOf (newly s n) &&& rxInt != 0))
  rw [shackle_fc] at told
  have entry : (enteredFc (recordedDev s n).fc n).shSrc = if s.dev.fc.shValid = true then s.dev.fc.shSrc else n := by
    rw [← valid, ← src]
    rfl
  exact ⟨_, answer.trans (run_true _ _), rfl, congrArg Collector.shackled told, (congrArg Collector.shSrc told).trans entry,
    (message .turns (by decide)).trans (shackle_turns _ _), (message .leaves (by decide)).trans (shackle_leaves _ _),
    (message .vault (by decide)).trans (shackle_vault _ _), congrArg Collector.aliveStopped told, rfl⟩

/-! ### Any event (R355, R357) -/

/-- The reactions keep the sticky bits (R356). -/
theorem react_sticky (d : Device) (srcs news : List Nat) : (d.react srcs news).fc.sticky = d.fc.sticky := by
  by_cases hs : d.fc.unionOf srcs &&& rxShackle = 0
  · by_cases hc : d.fc.unionOf srcs &&& rxChip = 0
    · rw [react_of_mild hs hc]
      exact ((blockResets_keepRecord _ d).1.trans (mild_keepsRecord _ _ _ _ _)).1
    · rw [react_of_chip hs hc, chipReset_fc]
      rfl
  · unfold Device.react
    dsimp only
    rw [if_pos hs, fcMessage_fc]
    split
    · rfl
    · exact (congrArg Collector.sticky (shackle_fc d ((d.fc.holding srcs rxShackle).headD 0)) :)

theorem event_sticky (d : Device) (raises : List Raise) {r : Raise} (hr : r ∈ raises) (ha : assigned r.source = true) :
    (d.event raises).fc.sticky.getLsbD r.source = true := by
  have own (l : List Raise) : r.source ∈ distinct ((l ++ raises).map Raise.source) :=
    mem_distinct (List.mem_map_of_mem (List.mem_append_right l hr))
  unfold Device.event
  dsimp only
  rw [if_neg fun empty => List.not_mem_nil (List.isEmpty_iff.mp empty ▸ own _), react_sticky]
  exact foldl_withSource_of_mem (lt_of_assigned ha) (own _) _

theorem exec_faultRaise_all (raises : List Raise) (r : Raise) (s : State) (hc : s.dev.collects = true)
    (ha : ∀ x ∈ raises, assigned x.source = true) (hr : r ∈ raises) : ∃ t,
    exec (.faultRaise raises) s = .next t ∧ t.dev.fc.sticky.getLsbD r.source = true := by
  have allowed : (s.dev.collects && raises.all fun r => assigned r.source) = true := by
    rw [hc, Bool.true_and]
    exact List.all_eq_true.mpr ha
  exact ⟨_, (congrArg (run s · _) allowed).trans (run_true _ _), event_sticky s.dev raises hr (ha r hr)⟩

/-! ### Traps reach the core (R353) -/

/-- The evidence record of a trap (R353). -/
def trapRecord (d : Device) (n : Nat) : Device := d.evidence 0x03 n [field (d.fc.cfgOf n) 8 2]

theorem trapRecords (l : List Nat) (d : Device) : changesOnly [.nv] d (l.foldl trapRecord d) ∧
    (l.foldl trapRecord d).nv.evq.map Evidence.src = d.nv.evq.map Evidence.src ++ l := by
  induction l generalizing d with
  | nil => exact ⟨.refl _ d, (List.append_nil _).symm⟩
  | cons n l ih =>
    obtain ⟨frame, queued⟩ := ih (trapRecord d n)
    refine ⟨(changesOnly_evidence d 0x03 n _).trans frame, queued.trans ?_⟩
    simp [trapRecord, Device.evidence]

theorem exec_trapDelivery (s : State) (ht : s.dev.fc.traps ≠ []) (hr : s.dev.coreRuns = true) : ∃ t, exec .trapDelivery s = .next t ∧
    t.dev.fc = { s.dev.fc with traps := [], evt := s.dev.fc.evt ||| 2 } ∧
    t.dev.nv.evq.map Evidence.src = s.dev.nv.evq.map Evidence.src ++ s.dev.fc.traps ∧ keepsRest [.fc, .nv] s t := by
  obtain ⟨frame, queued⟩ := trapRecords s.dev.fc.traps s.dev
  have allowed : (!s.dev.fc.traps.isEmpty && s.dev.coreRuns) = true := by simp [ht, hr]
  obtain ⟨e, k⟩ := run_of_changesOnly (s := s) (ps := [.fc, .nv]) allowed (by decide)
    ((frame.then (changesOnly_fc _ { (s.dev.fc.traps.foldl trapRecord s.dev).fc with
      traps := [], evt := (s.dev.fc.traps.foldl trapRecord s.dev).fc.evt ||| 2 })).mono (by decide))
  exact ⟨_, e, congrArg (fun c : Collector => ({ c with traps := [], evt := c.evt ||| 2 } : Collector)) (frame .fc (by decide)), queued, k⟩

/-! ### ALIVE starts again; the parity scan (R358, R361) -/

theorem aliveRestart_of_open {s : State} (h : s.dev.serves 0 = true) (hs : s.dev.shackled = false) (hm : s.dev.mc.romOnly = false)
    (f : Device → Device) : s.dev.hostDoIn true f = f s.dev := by
  rw [Device.hostDoIn, if_neg (by simp [h]), if_neg (by simp [hs, hm])]

/-- ALIVE has started again (R358, R450). -/
def aliveAgain (d : Device) : Device :=
  { d with fc := { d.fc with alive := d.power.boot == 4, aliveStopped := false }, lr := { d.lr with alarmActive := false } }

theorem exec_aliveRestart (s : State) (h : s.dev.serves 0 = true) (hs : s.dev.shackled = false) (hm : s.dev.mc.romOnly = false)
    (ha : s.dev.fc.aliveStopped = true) (hp : s.dev.fc.pinStuck = false) : ∃ t, exec .aliveRestart s = .next t ∧
    t.dev.fc = { s.dev.fc with alive := s.dev.power.boot == 4, aliveStopped := false } ∧ t.dev.lr = { s.dev.lr with alarmActive := false } ∧
    keepsRest [.fc, .lr] s t := by
  have started : s.dev.restartAlive = aliveAgain s.dev := if_neg (by simp [ha, hp])
  obtain ⟨e, k⟩ := run_of_changesOnly (s := s) (ps := [.fc, .lr]) (c := true) rfl (by decide)
    ((changesOnly_fc s.dev (aliveAgain s.dev).fc).then (changesOnly_lr _ (aliveAgain s.dev).lr))
  exact ⟨_, (congrArg (run s true) ((aliveRestart_of_open h hs hm _).trans started)).trans e, rfl, rfl, k⟩

theorem exec_aliveRestart_stuck (s : State) (h : s.dev.serves 0 = true) (hs : s.dev.shackled = false) (hm : s.dev.mc.romOnly = false)
    (hp : s.dev.fc.pinStuck = true) : exec .aliveRestart s = .next s := by
  have stuck : s.dev.restartAlive = s.dev := if_pos (by simp [hp])
  exact (congrArg (run s true) ((aliveRestart_of_open h hs hm _).trans stuck)).trans (run_true s s.dev)

theorem exec_fcParityScan_bad (bad : List Nat) (s : State) (h : s.dev.power.hkPll = true) (hb : bad ≠ []) :
    exec (.fcParityScan bad) s = .next { s with dev := s.dev.raiseSrc 1520 } := by
  have found : (if bad.isEmpty then s.dev else s.dev.raiseSrc 1520) = s.dev.raiseSrc 1520 := if_neg (by simpa using hb)
  exact (congrArg (run s · _) h).trans ((congrArg (run s true) found).trans (run_keepsPerm rfl))

theorem exec_fcParityScan_good (s : State) (h : s.dev.power.hkPll = true) : exec (.fcParityScan []) s = .next s :=
  (congrArg (run s · _) h).trans (run_true s s.dev)

/-- The parity source holds the shackle state whatever its word is (R361). -/
theorem effective_parity (c : Collector) : c.effective 1520 = (implied (field (c.cfgOf 1520) 8 2) ||| field (c.cfgOf 1520) 0 5) ||| rxShackle := by
  unfold Collector.effective
  rw [if_pos rfl]

theorem parity_shackles (s : State) : reacts s 1520 0x20 := by
  rw [reacts, effective_parity, Nat.and_or_distrib_right]
  exact fun zero => absurd (Nat.or_eq_zero_iff.mp zero).2 (by decide)

/-- Settles O54, clause by clause. -/
theorem collectorReacts : Obligations.CollectorReacts :=
  ⟨exec_faultRaise_silent, exec_faultRaise_new, exec_faultRaise_again, exec_faultRaise_pin, exec_faultRaise_block, exec_faultRaise_chip,
    exec_faultRaise_shackle, exec_faultRaise_all, exec_trapDelivery, exec_aliveRestart, exec_aliveRestart_stuck, exec_fcParityScan_bad,
    exec_fcParityScan_good, parity_shackles⟩

end Sys2Proof.Safety
end
